-- ==== Sys2Proof/Word.lean ====
section
/-! DEFINITION. The word types of the QA-7600 model and the one shape in which sparse state is held. -/

namespace Sys2Proof

/-- One byte. -/
abbrev Byte := BitVec 8
/-- A 32-bit register or record word. -/
abbrev Word32 := BitVec 32
/-- A 64-bit register, scalar or memory word. -/
abbrev Word := BitVec 64
/-- A 2 KiB vector register (R101). -/
abbrev VReg := BitVec 16384
/-- A 1,024-bit predicate (R102). -/
abbrev Pred := BitVec 1024

/-- A sparse table: pairs of key and value, keys strictly rising, no pair holding the value an unlisted
key reads as.  The operations over it stand in `Sys2Proof.Machine.Bits`. -/
abbrev Tab (α : Type) := List (Nat × α)

end Sys2Proof
end

