-- ==== Sys2Proof/Syntax.lean ====
section
/-! DEFINITION. The commands of the block: one constructor of `Instr` for every row of the command table, with the operands
the outside world supplies.  A Zidal command carries its instruction word; its major and minor opcode are the
constructor's own. -/

namespace Sys2Proof

/-- The word of a Zidal instruction (Table 05.5) without MAJ and SUB, which the constructor fixes: ORD, LONG, PG, F1, F2, the
bits `[34:0]` that hold F3, F4 and OPT or an immediate, and the extension word, read only where LONG is 1. -/
structure IWord where
  ord : BitVec 2 := 0
  long : Bool := false
  pg : BitVec 3 := 0
  f1 : BitVec 6 := 0
  f2 : BitVec 6 := 0
  low : BitVec 35 := 0
  ext : Word := 0
  deriving DecidableEq, Repr

/-- A store of a quire whose cells can be upset (Table 17.2): scratchpad, vat words and tile headers of a sheet, vector and predicate
registers of a stream. -/
inductive Store where
  | spad
  | vat (sheet slot fmt : Nat)
  | header (sheet slot fmt : Nat)
  | vreg (stream v : Nat)
  | pred (stream p : Nat)
  deriving DecidableEq, Repr

/-- Upset cells of one word of a store: how many bits of the word have flipped (R493), and whether the error is hard. -/
structure StoreUpset where
  store : Store
  word : Nat
  bits : Nat
  hard : Bool
  deriving DecidableEq, Repr

/-- The state that a handler of R510 relies on: the retirement engine's copy path, the mesh remap tables, a physical quire's spare-line
maps, a controller's soft-repair row buffer, a zero engine's and a controller's scrub engine's address state, the collector's queue, the
security block's key store. -/
inductive Handler where
  | copyPath
  | remap
  | spareMap (p : Nat)
  | rowBuffer (c : Nat)
  | zeroEngine (e : Nat)
  | scrubEngine (c : Nat)
  | collector
  | keyStore
  deriving DecidableEq, Repr

/-- A cell array outside the quires: a Stock cache line held for a deckle (number plus 1, or 0), a physical quire's L1 line, the tag
of a Stock cache line and its duplicate, a check line of an LPDDR5X controller, a flit at a quire's mesh port, a handler's state. -/
inductive Cell where
  | slice (dk base : Nat)
  | l1 (p base : Nat)
  | tag (both : Bool) (dk base : Nat)
  | check (c line : Nat)
  | flit (q : Nat)
  | handler (h : Handler)
  deriving DecidableEq, Repr

/-- Upset cells of one 64-bit word of such an array (R493). -/
structure CellUpset where
  cell : Cell
  word : Nat
  bits : Nat
  deriving DecidableEq, Repr

/-- A path on which a checked value travels: the Calender's read of a tile (R96), a butterfly stage of a transform (R243), the second
execution of DUAL (R244), the add phase of aggregation (R291). -/
inductive UPath where
  | calender (sheet slot fmt : Nat)
  | stage
  | dual
  | add
  deriving DecidableEq, Repr

/-- An upset of a path that the next check there meets: a bit of the value at index `idx` (an element of the tile, a stage, a limb, an
element) is inverted in the first reading or execution, or with `again` in the second. -/
structure PathUpset where
  path : UPath
  again : Bool
  idx : Nat
  bit : Nat
  deriving DecidableEq, Repr

/-- Upsets that strike one pass: the bits inverted in pass sums as (half, row, column, bit), in the first execution and in the
re-execution, and upsets of the quire's stores and paths. -/
structure PassUpset where
  first : List (Nat × Nat × Nat × Nat) := []
  again : List (Nat × Nat × Nat × Nat) := []
  stores : List StoreUpset := []
  paths : List PathUpset := []
  deriving DecidableEq, Repr

/-- Upsets that strike the instruction a Beater pipe starts: the bit inverted in an element's unrounded result as (element, bit), in the
first execution and in the re-execution, and upsets of the quire's stores and paths. -/
structure LaneUpset where
  first : List (Nat × Nat) := []
  again : List (Nat × Nat) := []
  stores : List StoreUpset := []
  paths : List PathUpset := []
  deriving DecidableEq, Repr

/-- What a read of host memory over PCIe returns: data, Unsupported Request or Completer Abort, or poisoned data. -/
inductive HostRead where
  | ok
  | refused
  | poisoned
  deriving DecidableEq, Repr

/-- What the boot sequence meets: the self-tests, the boot-record write-back, the controllers whose DRAM does not train, the
wipe, the calibration limit, the physical quires that fail every ACLK step, the pairwise consistency test. -/
structure BootIn where
  katOk : Bool := true
  recordOk : Bool := true
  untrained : List Nat := []
  wipeOk : Bool := true
  tableMax : Nat := 36
  unfit : List Nat := []
  pctOk : Bool := true
  /-- The functions whose configuration requests arrive before the device is ready (R373). -/
  requests : List Nat := []
  deriving DecidableEq, Repr

/-- A configuration request: a read of the identity or the class code, a write of VF Enable, of the ATS enable, of a function's MSI-X
enable or of one vector's mask, of Bus Master Enable; a base address register, by index, of the function or of the PF's SR-IOV capability
(`vf`); Device Control; the power state; the uncorrectable errors that AER has recorded; DOE Discovery through the PF's mailbox. -/
inductive ConfigAccess where
  | readId
  | readClass
  | readBar (vf : Bool) (i : Nat)
  | writeBar (vf : Bool) (i : Nat) (value : Word32)
  | readDevCtl
  | writeDevCtl (value : BitVec 16)
  | powerState (d3hot : Bool)
  | readAer
  | clearAer (mask : Word32)
  | doeDiscovery (index : Nat)
  | vfEnable (on : Bool)
  | ats (on : Bool)
  | msixEnable (on : Bool)
  | msixMask (vector : Nat) (masked : Bool)
  | busMaster (on : Bool)
  deriving DecidableEq, Repr

/-- An algorithm a requester offers. -/
inductive SpdmAlg where
  | sha256
  | aes256gcm
  | other
  deriving DecidableEq, Repr

/-- The hashes a requester offers: of the base algorithms and of measurements. -/
structure SpdmHashes where
  base : SpdmAlg
  meas : SpdmAlg
  deriving DecidableEq, Repr

/-- A repair request for DRAM: the value written to MEM_PPR_CMD, and whether the stack has a spare row left. -/
structure RepairWrite where
  value : Word
  spare : Bool := true
  deriving DecidableEq, Repr

/-- What a reading of the sensors finds: the temperatures in 0.125 °C, and of each rail its mV and its current in 0.1 A. -/
structure Sensors where
  temps : List Nat
  rails : List (Nat × Nat)
  deriving DecidableEq, Repr

/-- How an ICMPv6 frame came: its MAC addresses, and whether its packet carries no extension header and is no fragment. -/
structure Ether where
  src : Nat
  dst : Nat
  plain : Bool := true
  deriving DecidableEq, Repr

/-- The payload of a vendor-defined SPDM message. -/
inductive VendorMsg where
  | ideKm (data : List Byte)
  | tdisp (data : List Byte)
  | other
  deriving DecidableEq, Repr

/-- A request queued at a memory controller: a read or a write of one code word, or a write of part of it. -/
inductive CtlReq where
  | read
  | writeWhole (data : List Byte)
  | writePart (off : Nat) (data : List Byte)
  deriving DecidableEq, Repr

/-- Who issues a deckle command: a function through PRT_CMD2, or a Pliac session. -/
inductive CmdSource where
  | function (fn : Nat)
  | pliac
  deriving DecidableEq, Repr

/-- A UDP datagram at the management port; `plain` says that its packet carries no extension header and is no fragment. -/
structure Datagram where
  srcMac : Nat
  dstMac : Nat
  plain : Bool := true
  srcIp : Nat
  srcPort : Nat
  dstIp : Nat
  dstPort : Nat
  payload : List Byte
  deriving DecidableEq, Repr

/-- A TAP operation: the debug chain, the trace buffer, or a write of an injection register. -/
inductive TapOp where
  | debugChain
  | traceBuffer
  | writeInjection (addr : Nat) (value : Word)
  deriving DecidableEq, Repr

/-- The commands of the QA-7600: one constructor for every row of the command table. -/
inductive Instr where
  /-- POWER_APPLIED (R525): The input enters 48–58 V for 10 ms, the rails restart and a COLD reset begins. -/
  | powerApplied
  /-- INPUT_OUT_OF_RANGE (R525): The input lies outside 46–60 V for more than 100 µs and every rail switches off. -/
  | inputOutOfRange
  /-- INPUT_SAMPLE (R531): Every 1 µs the device samples input voltage and current and updates P10, P1M and P100M. -/
  | inputSample (mv ma : Nat)
  /-- PERST_N_ASSERT (R564): The filtered assertion of PERST_N starts a WARM reset. -/
  | perstNAssert
  /-- PERST_N_RELEASE (R564): The filtered release of PERST_N, with the rails up, starts the boot sequence. -/
  | perstNRelease (b : BootIn)
  /-- GCT_RESET (R565): A write of KEY 0xA55A acts as a 1 ms PERST_N assertion followed by a release. -/
  | gctReset (fn : Nat) (value : Word) (b : BootIn)
  /-- FLR (R374): A function-level reset disables the function's rings, drops unstarted descriptors, stops its DMA and clears its host-facing state. -/
  | flr (f : Nat)
  /-- CONFIGURATION_REQUEST (R373): A PCIe configuration request completes with Retry Status until ready, and normally afterwards. -/
  | configurationRequest (fn : Nat) (a : ConfigAccess)
  /-- QUIRE_RESET (R562): A write of QRE_RST.GO stops issue, idles the streams, clears the quire state and assigns role IDLE. -/
  | quireReset (fn p : Nat)
  /-- RAW_PIN_EDGE (R584): An edge on a raw sideband input or strap enters its filter and is counted for the toggle force. -/
  | rawPinEdge (pin : Nat) (level : Bool)
  /-- FILTER_OUTPUT_CHANGE (R583): A raw level held for 2 µs, or the end of a toggle force, reaches the filter output. -/
  | filterOutputChange (pin : Nat)
  /-- PIN_HELD (R585): An assertion of PWRBRK_N or THROT_N reaching 1 s sets PIN_HELD and the PIN alert cause and raises PIN_HELD. -/
  | pinHeld (pin : Nat)
  /-- PWRBRK_N_ASSERT (R534): The filtered assertion of PWRBRK_N forces L to at most BRAKE_L and takes the cap as 600 W. -/
  | pwrbrkNAssert
  /-- PWRBRK_N_RELEASE (R534): The filtered release of PWRBRK_N returns the cap to PWR_CAP. -/
  | pwrbrkNRelease
  /-- THROT_N_ASSERT (R534): The filtered assertion of THROT_N forces L to at most THROT_L. -/
  | throtNAssert
  /-- THROT_N_RELEASE (R534): The filtered release of THROT_N lets L rise again. -/
  | throtNRelease
  /-- SHUTDN_N_ASSERT (R534): The filtered assertion of SHUTDN_N stops issue in every quire and asserts FAULT_N. -/
  | shutdnNAssert
  /-- SHUTDOWN_RAILS_OFF (R534): 1 ms after SHUTDN_N is asserted the regulators switch off every rail. -/
  | shutdownRailsOff
  /-- SHUTDN_N_RELEASE (R534): The filtered release of SHUTDN_N restarts the rails as a COLD reset. -/
  | shutdnNRelease
  /-- REGISTER_WRITE (R10): A BAR0 write to a register without a row of its own stores, sets or clears its fields by their access types, or is discarded under R6 and R592. -/
  | registerWrite (fn addr size : Nat) (value : Word)
  /-- LATCHING_READ (R593): A 4-byte read of bits [31:0] of a latching 64-bit register latches the upper half for that function. -/
  | latchingRead (fn addr : Nat)
  /-- LOG_CLEAR (R59): All-ones writes to both halves of a log register clear the record as a whole; a lone half is held pending for the writing function. -/
  | logClear (fn addr size : Nat) (value : Word)
  /-- BAR2_READ (R351): A BAR2 read is translated, checked and answered with data, zeros or poisoned data. -/
  | bar2Read (fn off len : Nat)
  /-- BAR2_WRITE (R351): A BAR2 write is translated, checked and performed or discarded. -/
  | bar2Write (fn off : Nat) (data : List Byte)
  /-- HOST_WINDOW_READ (R447): An 8-byte read of RNG_RDf returns 32 random bits, NOT_READY or RNG_FAILED. -/
  | hostWindowRead (fn f : Nat) (inTime : Bool)
  /-- DOORBELL (R356): A write of PI to HQI_RING_DB makes new work ring entries valid or halts the ring on overrun. -/
  | doorbell (fn ring : Nat) (value : Word32)
  /-- COMPLETION_DOORBELL (R359): A write of HEAD to HQI_CQ_DB returns completion ring slots, or sets BADHEAD. -/
  | completionDoorbell (fn ring : Nat) (value : Word32)
  /-- RING_ENABLE (R355): A write of ENABLE 1 selects a descriptor version and makes the ring ACTIVE, or leaves it DISABLED with a reason. -/
  | ringEnable (fn ring : Nat) (value : Word)
  /-- RING_DISABLE (R355): A write of ENABLE 0 puts an ACTIVE ring into DRAINING. -/
  | ringDisable (fn ring : Nat) (value : Word)
  /-- HALT_CLEAR (R367): A write of 1 to HALTn lets a halted DMA channel take descriptors again. -/
  | haltClear (fn f : Nat) (value : Word)
  /-- DESCRIPTOR_FETCH (R357): The device fetches a valid descriptor once a tracking entry, the ring's MAXOUT and a completion slot allow. -/
  | descriptorFetch (ring : Nat) (hostOk : Bool)
  /-- DESCRIPTOR_START (R358): The device starts a fetched descriptor as soon as its resources allow, FENCE descriptors after earlier ones complete. -/
  | descriptorStart (ring id : Nat)
  /-- INTERRUPT_TIMER (R365): MTIME µs after the first unsignalled record the completion ring sends its MSI-X vector. -/
  | interruptTimer (ring : Nat)
  /-- NOP (R362): A NOP descriptor completes with VALUE 0. -/
  | nop (ring id : Nat)
  /-- DISPATCH (R363): A DISPATCH descriptor starts a stream of a logical quire at a program entry, or completes with a fault. -/
  | dispatch (ring id : Nat)
  /-- LOAD (R140): A LOAD descriptor copies and hashes a program image, checks its header and records it in the program table. -/
  | load (ring id : Nat) (h : HostRead)
  /-- UNLOAD (R141): An UNLOAD descriptor frees a program, unless a stream is running or draining it. -/
  | unload (ring id : Nat)
  /-- DMA (R366): A DMA descriptor moves bytes between host and device memory on the ring's channel. -/
  | dma (ring id : Nat) (h : HostRead)
  /-- MLOAD (R368): An MLOAD descriptor copies host data and extends or closes a measured object. -/
  | mload (ring id : Nat) (h : HostRead)
  /-- SUBMIT (R206): A SUBMIT request writes input tokens to the token buffer and adds them to PENDING_IN. -/
  | submit (ring id : Nat) (h : HostRead)
  /-- CANCEL (R202): A CANCEL request zeroes PENDING_IN and GEN_LIMIT, deferred to step close while INSTEP. -/
  | cancel (ring id : Nat)
  /-- DETACH (R202): A DETACH request returns the context to IDLE once no step holds it and no move runs. -/
  | detach (ring id : Nat)
  /-- SETPARAM (R207): A SETPARAM request sets the sampler parameters, adjusted as needed. -/
  | setparam (ring id : Nat)
  /-- MODEL_LOAD (R224): A MODEL_LOAD request checks the placement table, assigns every segment address and starts the measured copies. -/
  | modelLoad (ring id : Nat)
  /-- MODEL_LOADED (R226): When every segment copy has ended the record becomes LOADED, or returns to FREE on a failed copy. -/
  | modelLoaded (d m : Nat) (h : HostRead)
  /-- MODEL_UNLOAD (R226): A MODEL_UNLOAD request withdraws the model's digests and frees its record. -/
  | modelUnload (ring id : Nat)
  /-- BASIS_REGISTER (R231): A BASIS_REGISTER request checks a basis record, fills the basis area and takes a basis slot. -/
  | basisRegister (ring id : Nat)
  /-- BASIS_RELEASE (R260): A BASIS_RELEASE request makes the basis and its keys unavailable and completes when the last user has ended. -/
  | basisRelease (ring id : Nat)
  /-- KEY_REGISTER (R258): A KEY_REGISTER request checks and registers an evaluation or gate key. -/
  | keyRegister (ring id : Nat)
  /-- KEY_RELEASE (R260): A KEY_RELEASE request makes a key unavailable and completes when the last user has ended. -/
  | keyRelease (ring id : Nat)
  /-- RELEASE_DRAIN_END (R260): The last P. instruction that passed its first step before a release point ends, and the release request completes. -/
  | releaseDrainEnd (d n : Nat)
  /-- AGG_ABANDON (R303): An AGG_ABANDON request moves an OPEN or BROKEN session to RELEASING. -/
  | aggAbandon (ring id : Nat)
  /-- SESSION_RELEASED (R303): Once the area and inbox are zeroed and the log key destroyed, a RELEASING session becomes FREE. -/
  | sessionReleased (session : Nat)
  /-- XLT_MAP (R314): An XLT_MAP request maps deckle-address pages to frames of the deckle's granules. -/
  | xltMap (ring id : Nat)
  /-- XLT_UNMAP (R315): An XLT_UNMAP request invalidates entries at the removal point and completes once every access through them is performed. -/
  | xltUnmap (ring id : Nat)
  /-- GET_VERSION (R369): The SPDM responder offers version 1.3 only. -/
  | getVersion
  /-- GET_CAPABILITIES (R369): The SPDM responder reports its capabilities. -/
  | getCapabilities
  /-- NEGOTIATE_ALGORITHMS (R369): The SPDM responder accepts SHA-256 and AES-256-GCM only. -/
  | negotiateAlgorithms (hash : SpdmHashes) (aead : SpdmAlg)
  /-- PSK_EXCHANGE (R369): The SPDM responder starts a pre-shared-key session, up to four. -/
  | pskExchange (hint : List Byte) (context : List Byte)
  /-- PSK_FINISH (R369): The SPDM responder completes a pre-shared-key session. -/
  | pskFinish (sess : Nat) (verified : Bool)
  /-- HEARTBEAT (R369): The SPDM responder answers a heartbeat inside a session. -/
  | heartbeat (sess : Nat)
  /-- KEY_UPDATE (R369): The SPDM responder updates session keys inside a session. -/
  | keyUpdate (sess : Nat)
  /-- END_SESSION (R369): The SPDM responder ends a session. -/
  | endSession (sess : Nat)
  /-- GET_MEASUREMENTS (R370): The SPDM responder returns one measurement block or the Watermark report for the requester's nonce. -/
  | getMeasurements (sess : Option Nat) (index : Nat) (nonce : List Byte)
  /-- CHUNK_SEND (R369): The SPDM responder takes one chunk of a large request. -/
  | chunkSend (handle seq : Nat) (last : Bool) (data : List Byte)
  /-- CHUNK_GET (R369): The SPDM responder returns one chunk of a large response. -/
  | chunkGet (handle seq : Nat)
  /-- VENDOR_DEFINED_REQUEST (R369): The SPDM responder carries an IDE_KM or TDISP message inside a session. -/
  | vendorDefinedRequest (sess : Option Nat) (payload : VendorMsg)
  /-- UNSUPPORTED_REQUEST (R369): Any other SPDM request is answered with ERROR UnsupportedRequest. -/
  | unsupportedRequest (code : Nat)
  /-- KEY_PROG (R371): IDE_KM KEY_PROG programs an IDE stream key. -/
  | keyProg (sess stream keySet : Nat) (key : List Byte)
  /-- K_SET_GO (R371): IDE_KM K_SET_GO starts use of a key set. -/
  | kSetGo (sess stream keySet : Nat)
  /-- K_SET_STOP (R371): IDE_KM K_SET_STOP stops use of a key set. -/
  | kSetStop (sess stream keySet : Nat)
  /-- QUERY (R371): IDE_KM QUERY reports IDE stream information. -/
  | query (sess : Nat)
  /-- IDE_FAIL (R371): A TLP failing IDE integrity is discarded, its stream leaves the secure state and its VF's TDI enters ERROR. -/
  | ideFail (stream : Nat)
  /-- GET_TDISP_VERSION (R372): The TDISP responder reports its version. -/
  | getTdispVersion (sess vf : Nat)
  /-- GET_TDISP_CAPABILITIES (R372): The TDISP responder reports its capabilities. -/
  | getTdispCapabilities (sess vf : Nat)
  /-- LOCK_INTERFACE_REQUEST (R372): LOCK moves a VF's TDI to CONFIG_LOCKED, only in SEALED mode with its deckle existing. -/
  | lockInterfaceRequest (sess vf : Nat)
  /-- GET_DEVICE_INTERFACE_REPORT (R372): The TDISP responder returns the interface report with the VF's BARs as TEE ranges. -/
  | getDeviceInterfaceReport (sess vf : Nat)
  /-- GET_DEVICE_INTERFACE_STATE (R372): The TDISP responder reports the TDI state. -/
  | getDeviceInterfaceState (sess vf : Nat)
  /-- START_INTERFACE_REQUEST (R372): START moves a locked TDI to RUN. -/
  | startInterfaceRequest (sess vf : Nat)
  /-- STOP_INTERFACE_REQUEST (R372): STOP performs a FUNCTION reset of the VF and returns its TDI to CONFIG_UNLOCKED. -/
  | stopInterfaceRequest (sess vf : Nat)
  /-- S_ADD (R158): S.ADD adds two scalar registers. -/
  | sAdd (q st : Nat) (w : IWord)
  /-- S_SUB (R158): S.SUB subtracts two scalar registers. -/
  | sSub (q st : Nat) (w : IWord)
  /-- S_AND (R158): S.AND ANDs two scalar registers. -/
  | sAnd (q st : Nat) (w : IWord)
  /-- S_OR (R158): S.OR ORs two scalar registers. -/
  | sOr (q st : Nat) (w : IWord)
  /-- S_XOR (R158): S.XOR XORs two scalar registers. -/
  | sXor (q st : Nat) (w : IWord)
  /-- S_SHL (R158): S.SHL shifts left by a count modulo 64. -/
  | sShl (q st : Nat) (w : IWord)
  /-- S_SHR (R158): S.SHR shifts right logically by a count modulo 64. -/
  | sShr (q st : Nat) (w : IWord)
  /-- S_SRA (R158): S.SRA shifts right arithmetically by a count modulo 64. -/
  | sSra (q st : Nat) (w : IWord)
  /-- S_SLT (R158): S.SLT sets on signed less-than. -/
  | sSlt (q st : Nat) (w : IWord)
  /-- S_SLTU (R158): S.SLTU sets on unsigned less-than. -/
  | sSltu (q st : Nat) (w : IWord)
  /-- S_ADD_IMMEDIATE (R158): The immediate form of S.ADD. -/
  | sAddImmediate (q st : Nat) (w : IWord)
  /-- S_SUB_IMMEDIATE (R158): The immediate form of S.SUB. -/
  | sSubImmediate (q st : Nat) (w : IWord)
  /-- S_AND_IMMEDIATE (R158): The immediate form of S.AND. -/
  | sAndImmediate (q st : Nat) (w : IWord)
  /-- S_OR_IMMEDIATE (R158): The immediate form of S.OR. -/
  | sOrImmediate (q st : Nat) (w : IWord)
  /-- S_XOR_IMMEDIATE (R158): The immediate form of S.XOR. -/
  | sXorImmediate (q st : Nat) (w : IWord)
  /-- S_SHL_IMMEDIATE (R158): The immediate form of S.SHL. -/
  | sShlImmediate (q st : Nat) (w : IWord)
  /-- S_SHR_IMMEDIATE (R158): The immediate form of S.SHR. -/
  | sShrImmediate (q st : Nat) (w : IWord)
  /-- S_SRA_IMMEDIATE (R158): The immediate form of S.SRA. -/
  | sSraImmediate (q st : Nat) (w : IWord)
  /-- S_SLT_IMMEDIATE (R158): The immediate form of S.SLT. -/
  | sSltImmediate (q st : Nat) (w : IWord)
  /-- S_SLTU_IMMEDIATE (R158): The immediate form of S.SLTU. -/
  | sSltuImmediate (q st : Nat) (w : IWord)
  /-- S_MUL (R158): S.MUL keeps the low 64 bits of a product. -/
  | sMul (q st : Nat) (w : IWord)
  /-- S_MULHU (R158): S.MULHU keeps the high half of an unsigned product. -/
  | sMulhu (q st : Nat) (w : IWord)
  /-- S_MULHS (R158): S.MULHS keeps the high half of a signed product. -/
  | sMulhs (q st : Nat) (w : IWord)
  /-- S_DIV (R158): S.DIV divides signed, truncating toward zero, without fault. -/
  | sDiv (q st : Nat) (w : IWord)
  /-- S_DIVU (R158): S.DIVU divides unsigned. -/
  | sDivu (q st : Nat) (w : IWord)
  /-- S_REM (R158): S.REM gives the signed remainder. -/
  | sRem (q st : Nat) (w : IWord)
  /-- S_REMU (R158): S.REMU gives the unsigned remainder. -/
  | sRemu (q st : Nat) (w : IWord)
  /-- S_BEQ (R158): S.BEQ branches if equal. -/
  | sBeq (q st : Nat) (w : IWord)
  /-- S_BNE (R158): S.BNE branches if not equal. -/
  | sBne (q st : Nat) (w : IWord)
  /-- S_BLT (R158): S.BLT branches if signed less-than. -/
  | sBlt (q st : Nat) (w : IWord)
  /-- S_BLTU (R158): S.BLTU branches if unsigned less-than. -/
  | sBltu (q st : Nat) (w : IWord)
  /-- S_JMP (R158): S.JMP jumps by a signed offset. -/
  | sJmp (q st : Nat) (w : IWord)
  /-- S_JR (R158): S.JR jumps to the PC in a register. -/
  | sJr (q st : Nat) (w : IWord)
  /-- S_LD (R173): S.LD loads 64 bits from device memory under the order field. -/
  | sLd (q st : Nat) (w : IWord)
  /-- S_ST (R173): S.ST stores 64 bits to device memory under the order field. -/
  | sSt (q st : Nat) (w : IWord)
  /-- S_LI (R158): S.LI loads a sign-extended immediate. -/
  | sLi (q st : Nat) (w : IWord)
  /-- S_LIU (R158): S.LIU loads the upper bits of a register from an immediate. -/
  | sLiu (q st : Nat) (w : IWord)
  /-- S_PAND (R158): S.PAND ANDs predicates. -/
  | sPand (q st : Nat) (w : IWord)
  /-- S_POR (R158): S.POR ORs predicates. -/
  | sPor (q st : Nat) (w : IWord)
  /-- S_PXOR (R158): S.PXOR XORs predicates. -/
  | sPxor (q st : Nat) (w : IWord)
  /-- S_PNOT (R158): S.PNOT inverts a predicate. -/
  | sPnot (q st : Nat) (w : IWord)
  /-- S_PSET (R158): S.PSET sets the low count bits of a predicate. -/
  | sPset (q st : Nat) (w : IWord)
  /-- V_ADD (R106): V.ADD adds floating-point elements. -/
  | vAdd (q st : Nat) (w : IWord)
  /-- V_SUB (R106): V.SUB subtracts floating-point elements. -/
  | vSub (q st : Nat) (w : IWord)
  /-- V_MUL (R106): V.MUL multiplies floating-point elements. -/
  | vMul (q st : Nat) (w : IWord)
  /-- V_FMA (R106): V.FMA fuses multiply and add with one rounding. -/
  | vFma (q st : Nat) (w : IWord)
  /-- V_MIN (R107): V.MIN takes the exact minimum. -/
  | vMin (q st : Nat) (w : IWord)
  /-- V_MAX (R107): V.MAX takes the exact maximum. -/
  | vMax (q st : Nat) (w : IWord)
  /-- V_CMP (R107): V.CMP writes predicate bits where the relation holds. -/
  | vCmp (q st : Nat) (w : IWord)
  /-- V_CVT (R108): V.CVT converts 512 elements between FP32, BF16 and S32. -/
  | vCvt (q st : Nat) (w : IWord)
  /-- V_IADD (R109): V.IADD adds 32-bit lanes modulo 2^32. -/
  | vIadd (q st : Nat) (w : IWord)
  /-- V_ISUB (R109): V.ISUB subtracts 32-bit lanes. -/
  | vIsub (q st : Nat) (w : IWord)
  /-- V_IMUL (R109): V.IMUL keeps the low 32 bits of lane products. -/
  | vImul (q st : Nat) (w : IWord)
  /-- V_SHL (R109): V.SHL shifts lanes left. -/
  | vShl (q st : Nat) (w : IWord)
  /-- V_SHR (R109): V.SHR shifts lanes right logically. -/
  | vShr (q st : Nat) (w : IWord)
  /-- V_SRA (R109): V.SRA shifts lanes right arithmetically. -/
  | vSra (q st : Nat) (w : IWord)
  /-- V_AND (R109): V.AND ANDs lanes. -/
  | vAnd (q st : Nat) (w : IWord)
  /-- V_OR (R109): V.OR ORs lanes. -/
  | vOr (q st : Nat) (w : IWord)
  /-- V_XOR (R109): V.XOR XORs lanes. -/
  | vXor (q st : Nat) (w : IWord)
  /-- V_IMIN (R109): V.IMIN takes the signed minimum of lanes. -/
  | vImin (q st : Nat) (w : IWord)
  /-- V_IMAX (R109): V.IMAX takes the signed maximum of lanes. -/
  | vImax (q st : Nat) (w : IWord)
  /-- V_EXP2 (R110): V.EXP2 computes 2^x rounded once. -/
  | vExp2 (q st : Nat) (w : IWord)
  /-- V_LOG2 (R110): V.LOG2 computes log2 x rounded once. -/
  | vLog2 (q st : Nat) (w : IWord)
  /-- V_RCP (R110): V.RCP computes 1/x rounded once. -/
  | vRcp (q st : Nat) (w : IWord)
  /-- V_RSQRT (R110): V.RSQRT computes 1/sqrt x rounded once. -/
  | vRsqrt (q st : Nat) (w : IWord)
  /-- V_SQRT (R110): V.SQRT computes sqrt x rounded once. -/
  | vSqrt (q st : Nat) (w : IWord)
  /-- V_TANH (R110): V.TANH computes tanh x rounded once. -/
  | vTanh (q st : Nat) (w : IWord)
  /-- V_RSUM (R112): V.RSUM writes the exactly summed, once-rounded total of the unmasked elements. -/
  | vRsum (q st : Nat) (w : IWord)
  /-- V_RMAX (R113): V.RMAX writes the largest unmasked element. -/
  | vRmax (q st : Nat) (w : IWord)
  /-- V_RMIN (R113): V.RMIN writes the smallest unmasked element. -/
  | vRmin (q st : Nat) (w : IWord)
  /-- V_PERM (R120): V.PERM gathers elements by an index register. -/
  | vPerm (q st : Nat) (w : IWord)
  /-- V_BITREV (R120): V.BITREV reverses the low g bits of element indices. -/
  | vBitrev (q st : Nat) (w : IWord)
  /-- V_LD (R103): V.LD loads a 2 KiB scratchpad row into a vector register. -/
  | vLd (q st : Nat) (w : IWord)
  /-- V_ST (R103): V.ST stores a vector register to a 2 KiB scratchpad row. -/
  | vSt (q st : Nat) (w : IWord)
  /-- PIPE_START (R105): A Beater pipe starts the oldest waiting instruction when its previous occupancy ends. -/
  | pipeStart (q pipe : Nat) (u : LaneUpset)
  /-- M_ADD (R115): M.ADD adds residues modulo q. -/
  | mAdd (q st : Nat) (w : IWord)
  /-- M_SUB (R115): M.SUB subtracts residues modulo q. -/
  | mSub (q st : Nat) (w : IWord)
  /-- M_NEG (R115): M.NEG negates residues modulo q. -/
  | mNeg (q st : Nat) (w : IWord)
  /-- M_MULS (R117): M.MULS computes a Montgomery multiply-add on a SHIFT slot. -/
  | mMuls (q st : Nat) (w : IWord)
  /-- M_MULG (R118): M.MULG computes a Montgomery multiply-add on any valid slot. -/
  | mMulg (q st : Nat) (w : IWord)
  /-- M_TOMONT (R115): M.TOMONT converts to Montgomery form. -/
  | mTomont (q st : Nat) (w : IWord)
  /-- M_FROMMONT (R115): M.FROMMONT converts from Montgomery form. -/
  | mFrommont (q st : Nat) (w : IWord)
  /-- M_BFLY (R119): M.BFLY applies one radix-2 butterfly stage. -/
  | mBfly (q st : Nat) (w : IWord)
  /-- M_SETQ (R114): M.SETQ writes a modulus slot and classifies it SHIFT or GENERAL. -/
  | mSetq (q st : Nat) (w : IWord)
  /-- T_ZERO (R71): T.ZERO opens a tile with every element zero. -/
  | tZero (q st : Nat) (w : IWord)
  /-- T_PRELOAD (R74): T.PRELOAD opens a tile and fills it from converted scratchpad values. -/
  | tPreload (q st : Nat) (w : IWord)
  /-- T_MMA (R40): T.MMA accumulates C += A × B into a tile in passes. -/
  | tMma (q st : Nat) (w : IWord)
  /-- PASS (R53): A sheet runs one pass: reads, expands, multiplies, checks column residues and adds the pass sum to the tile. -/
  | pass (q sheet : Nat) (u : PassUpset)
  /-- T_MERGE (R76): T.MERGE checks and adds a raw tile image into an open tile. -/
  | tMerge (q st : Nat) (w : IWord)
  /-- T_DRAIN (R87): T.DRAIN converts a tile through the Calender into the scratchpad, with optional CLEAR and RELEASE. -/
  | tDrain (q st : Nat) (w : IWord)
  /-- T_RMAX (R94): T.RMAX writes the K largest elements of each line and their indices. -/
  | tRmax (q st : Nat) (w : IWord)
  /-- T_RMIN (R94): T.RMIN writes the K smallest elements of each line and their indices. -/
  | tRmin (q st : Nat) (w : IWord)
  /-- ORDERING_OPERATION_START (R84): An ordering operation on a tile starts once every earlier operation on the tile has ended. -/
  | orderingOperationStart (q sheet slot fmt : Nat)
  /-- P_NTT (R239): P.NTT transforms a raw limb to the negacyclic NTT domain. -/
  | pNtt (q st : Nat) (w : IWord)
  /-- P_INTT (R239): P.INTT transforms a raw limb back from the NTT domain. -/
  | pIntt (q st : Nat) (w : IWord)
  /-- P_AUTO (R256): P.AUTO applies an automorphism and switches with the Galois key. -/
  | pAuto (q st : Nat) (w : IWord)
  /-- P_KSW (R255): P.KSW relinearises or switches the key of a ciphertext. -/
  | pKsw (q st : Nat) (w : IWord)
  /-- P_RESCALE (R249): P.RESCALE drops the top limb and lowers the level. -/
  | pRescale (q st : Nat) (w : IWord)
  /-- P_BOOT (R263): P.BOOT refreshes a CKKS ciphertext by a library macro-sequence across a gang of quires. -/
  | pBoot (q st : Nat) (w : IWord)
  /-- P_GATE (R273): P.GATE evaluates a batch of two-input gates with refresh. -/
  | pGate (q st : Nat) (w : IWord)
  /-- P_LUT (R274): P.LUT evaluates a lookup table with refresh on each input ciphertext. -/
  | pLut (q st : Nat) (w : IWord)
  /-- P_ADD (R248): P.ADD adds ciphertexts or a plaintext slot by slot. -/
  | pAdd (q st : Nat) (w : IWord)
  /-- P_SUB (R248): P.SUB subtracts ciphertexts or a plaintext slot by slot. -/
  | pSub (q st : Nat) (w : IWord)
  /-- P_MULP (R248): P.MULP multiplies a ciphertext by a plaintext. -/
  | pMulp (q st : Nat) (w : IWord)
  /-- P_MULC (R248): P.MULC multiplies two ciphertexts into three components. -/
  | pMulc (q st : Nat) (w : IWord)
  /-- A_OPEN (R280): A.OPEN checks a parameter block, zeroes the session area, draws the log key and opens the lowest free session. -/
  | aOpen (q st : Nat) (w : IWord)
  /-- A_INGEST (R289): A.INGEST admits a contribution, sets its bitmap bit and adds its elements to SUM. -/
  | aIngest (q st : Nat) (w : IWord)
  /-- A_EXPAND (R294): A.EXPAND writes 2 KiB of regenerated seeded elements to the scratchpad. -/
  | aExpand (q st : Nat) (w : IWord)
  /-- A_STAGE (R297): A.STAGE admits an explicit contribution into a transaction slot's partial sum. -/
  | aStage (q st : Nat) (w : IWord)
  /-- A_COMMIT (R298): A.COMMIT closes a slot and adds its partial sum to SUM. -/
  | aCommit (q st : Nat) (w : IWord)
  /-- A_ABORT (R298): A.ABORT closes a slot and clears its identities' bitmap bits. -/
  | aAbort (q st : Nat) (w : IWord)
  /-- A_RETRACT (R296): A.RETRACT regenerates a logged seeded contribution and subtracts it from SUM. -/
  | aRetract (q st : Nat) (w : IWord)
  /-- A_FINAL (R300): A.FINAL passes the final point, waits for admitted operations, adds noise and writes the result. -/
  | aFinal (q st : Nat) (w : IWord)
  /-- C_ATTACH (R204): C.ATTACH binds an IDLE context to a loaded model and makes it RESIDENT. -/
  | cAttach (q st : Nat) (w : IWord)
  /-- C_STEP (R212): C.STEP closes the stream's open step with commit and opens a new one with a batch list. -/
  | cStep (q st : Nat) (w : IWord)
  /-- C_SAMPLE (R218): C.SAMPLE draws the next token of a context from its logits. -/
  | cSample (q st : Nat) (w : IWord)
  /-- C_SWAP (R220): C.SWAP requests a swap-out or swap-in of a context, or has no effect, or faults. -/
  | cSwap (q st : Nat) (w : IWord)
  /-- SWAP_END (R221): The swap engine finishes a move, clears MOVING and settles the context's state. -/
  | swapEnd (ctx : Nat)
  /-- AUTO_SWAP_OUT (R222): With AUTO_OUT set and free HBM folios below LOW, the engine swaps out a RESIDENT context. -/
  | autoSwapOut (d : Nat)
  /-- AUTO_SWAP_IN (R222): With AUTO_IN set, the engine swaps in the qualifying SWAPPED context with the lowest READY_SEQ. -/
  | autoSwapIn (d : Nat)
  /-- D_COPY (R160): D.COPY moves rows described by a scratchpad descriptor. -/
  | dCopy (q st : Nat) (w : IWord)
  /-- D_PREF (R326): D.PREF starts or replaces a Headbox prefetch stream. -/
  | dPref (q st : Nat) (w : IWord)
  /-- D_MLOAD (R160): D.MLOAD moves rows and hashes them into a measured object. -/
  | dMload (q st : Nat) (w : IWord)
  /-- PREFETCH_REQUEST (R326): A Headbox stream requests lines ahead of consumption up to its depth. -/
  | prefetchRequest (q hs : Nat)
  /-- X_FENCE (R177): X.FENCE holds the stream until the conditions of its scope hold. -/
  | xFence (q st : Nat) (w : IWord)
  /-- FENCE_END (R177): A fence or release ordering ends once every condition of its scope holds. -/
  | fenceEnd (q st : Nat)
  /-- X_WAIT (R186): X.WAIT reads a counter and waits for its condition. -/
  | xWait (q st : Nat) (w : IWord)
  /-- X_WAIT_END (R186): A satisfying counter write ends a waiting X.WAIT with an acquire. -/
  | xWaitEnd (q st : Nat)
  /-- X_WAIT_TIMEOUT (R186): TMO × 1,024 cycles pass and X.WAIT ends without the acquire. -/
  | xWaitTimeout (q st : Nat)
  /-- X_SIGNAL (R185): X.SIGNAL releases and atomically adds to a counter. -/
  | xSignal (q st : Nat) (w : IWord)
  /-- X_BAR (R187): X.BAR releases, arrives at a barrier object and waits for GEN to change. -/
  | xBar (q st : Nat) (w : IWord)
  /-- X_BAR_RELEASE (R187): A write to GEN ends a waiting X.BAR with an acquire. -/
  | xBarRelease (q st : Nat)
  /-- X_SEND (R189): X.SEND sends a 64-byte payload to a quire and epoch. -/
  | xSend (q st : Nat) (w : IWord)
  /-- X_RECV (R192): X.RECV takes the oldest matching message, waits, or ends EMPTY. -/
  | xRecv (q st : Nat) (w : IWord)
  /-- X_END (R134): X.END ends the stream once every instruction has ended, closes its step and writes its completion record. -/
  | xEnd (q st : Nat) (w : IWord)
  /-- K_SHA (R162): K.SHA hashes scratchpad bytes with SHA-256. -/
  | kSha (q st : Nat) (w : IWord)
  /-- K_AES (R162): K.AES encrypts or decrypts scratchpad bytes under a key handle. -/
  | kAes (q st : Nat) (w : IWord)
  /-- K_SHAKE (R162): K.SHAKE computes SHAKE128 output from scratchpad bytes. -/
  | kShake (q st : Nat) (w : IWord)
  /-- RELEASE (R169): A write of RELEASE in QRE_STR_CTL releases a FAULTED stream to IDLE after its release actions. -/
  | release (fn p : Nat) (value : Word)
  /-- ROLE_ASSIGNMENT (R194): A write of QRE_ROLE.ROLE, if accepted, increments EPOCH, returns arrivals, discards returns and sets the role. -/
  | roleAssignment (fn p : Nat) (value : Word)
  /-- MESSAGE_ARRIVAL (R190): A message reaches its destination quire and is placed, refused for resend, or returned on an epoch mismatch. -/
  | messageArrival (src dst : Nat)
  /-- MESSAGE_RESEND (R190): 64 FCLK cycles after a refusal the message is sent again. -/
  | messageResend (src dst : Nat)
  /-- RETURN_ARRIVAL (R195): A returned message reaches its sender and enters the return area or is dropped. -/
  | returnArrival (q : Nat)
  /-- CONTROLLER_REQUEST (R325): A memory controller serves a queued request, correcting, poisoning or merging as needed. -/
  | controllerRequest (dpa : Nat) (r : CtlReq)
  /-- ZERO_FILL (R319): The first write to a fresh frame waits while the frame is zero-filled and FRESH cleared. -/
  | zeroFill (frame : Nat)
  /-- ZERO_REQUEST_END (R320): A zero engine finishes zeroing a range. -/
  | zeroRequestEnd (engine : Nat)
  /-- PATROL_SCRUB_READ (R339): A controller's patrol scrub reads its next code word and corrects, repairs from the slice, or poisons it. -/
  | patrolScrubRead (c : Nat) (us : List CellUpset)
  /-- TRANSLATION_ENABLE (R313): A write of MEM_DCTL.ENABLE 1 zeroes the level-1 table and enables translation, or sets ERR. -/
  | translationEnable (fn d : Nat) (value : Word)
  /-- TRANSLATION_DISABLE (R313): A write of MEM_DCTL.ENABLE 0 disables translation when no page is mapped. -/
  | translationDisable (fn d : Nat) (value : Word)
  /-- FLIP_ARM (R342): Setting MEM_FLIP_POS.ARM corrupts the next code-word write of the controller. -/
  | flipArm (fn c : Nat) (value : Word)
  /-- SOFT (R343): A PPR request of KIND SOFT repairs an HBM3E row within 200 µs. -/
  | soft (fn c : Nat) (value : Word)
  /-- HARD (R343): A PPR request of KIND HARD records a row as pending for the next WARM reset. -/
  | hard (fn c : Nat) (r : RepairWrite)
  /-- SOFT_REPAIR_END (R343): A soft repair finishes and sets RESULT. -/
  | softRepairEnd (c : Nat) (spare : Bool)
  /-- POOL_ENABLE (R229): A write of CTX_POOL_CTL.ENABLE 1 checks the pools, zeroes the bitmaps and enables them, or sets ERR. -/
  | poolEnable (fn d : Nat) (value : Word)
  /-- POOL_DISABLE (R229): A write of ENABLE 0 disables the pools when every context is IDLE, or sets ERR. -/
  | poolDisable (fn d : Nat) (value : Word)
  /-- PORT_ENABLE (R378): A write of IZK_PORT_CFG.ENABLE 1 starts training if the configuration is acceptable, or sets ERR. -/
  | portEnable (fn p : Nat) (value : Word)
  /-- PORT_DISABLE (R378): A write of ENABLE 0 disables the port and puts its queue pairs into ERROR with FLUSHED. -/
  | portDisable (fn p : Nat) (value : Word)
  /-- TRAINING_COMPLETE (R377): Link training completes at a width and the port enters NEGOTIATE. -/
  | trainingComplete (p : Nat) (lanes : BitVec 8)
  /-- LINK_LOSS (R379): Loss of lock or a lane beyond FEC for 1 ms returns the port to TRAINING excluding failed lanes. -/
  | linkLoss (p : Nat) (lanes : BitVec 8)
  /-- LINK_HOLD_EXPIRED (R379): A port not back to UP within LINK_HOLD puts its queue pairs into ERROR. -/
  | linkHoldExpired (p : Nat)
  /-- HELLO_TRANSMIT (R386): Every 1 ms after training each end sends an Izkai HELLO. -/
  | helloTransmit (p : Nat)
  /-- IZKAI_HELLO (R386): A received HELLO selects the common transport version and may bring the port UP. -/
  | izkaiHello (p : Nat)
  /-- NEGOTIATE_FAIL (R386): 100 ms without a common version raises NEGOTIATE_FAIL. -/
  | negotiateFail (p : Nat)
  /-- PFC_FRAME (R380): A received PFC frame pauses the start of frames of its priorities. -/
  | pfcFrame (p : Nat) (classes : BitVec 8) (quanta : List Nat)
  /-- XOFF (R380): Receive buffer free space below 1 MiB sends XOFF, repeated every 100 µs. -/
  | xoff (p : Nat)
  /-- XON (R380): Receive buffer free space above 2 MiB sends XON. -/
  | xon (p : Nat)
  /-- PFC_STORM (R381): A priority paused without a break for 100 ms raises PFC_STORM. -/
  | pfcStorm (p prio : Nat)
  /-- FRAME_RECEIVE (R385): A received frame is checked for FCS, link tag, header, queue pair, PSN and partition tag, or discarded and counted. -/
  | frameReceive (p : Nat) (frame : List Byte)
  /-- WRITE (R405): A WRITE packet is admitted or placed at VA + OFFSET. -/
  | write (p : Nat)
  /-- WRITE_IMM (R405): A WRITE_IMM packet is placed and completes a receive entry when the message is whole. -/
  | writeImm (p : Nat)
  /-- SEND (R405): A SEND packet is placed into its receive entry's buffer. -/
  | send (p : Nat)
  /-- READ_REQ (R397): A READ_REQ is checked and answered with READ_RESP packets. -/
  | readReq (p : Nat)
  /-- READ_RESP (R405): A READ_RESP packet is placed at the local entry's address. -/
  | readResp (p : Nat)
  /-- ACK (R402): An ACK advances a path's acknowledged PSN and credit and may complete send entries. -/
  | ack (p : Nat)
  /-- NAK (R402): A NAK triggers retransmission, RNR waiting or an error by its syndrome. -/
  | nak (p : Nat)
  /-- CREDIT (R399): A CREDIT packet raises the sender's credit limit. -/
  | credit (p : Nat)
  /-- CREDIT_REQ (R399): A CREDIT_REQ is answered with credit in blocks of 16 within GRANT_WIN. -/
  | creditReq (p : Nat)
  /-- TERMINATE (R407): A received TERMINATE puts the queue pair into ERROR. -/
  | terminate (p : Nat)
  /-- ACK_TIMER (R402): 2 µs after the first unacknowledged packet the receiver sends an ACK. -/
  | ackTimer (qp path : Nat)
  /-- RTO_EXPIRY (R402): The oldest unacknowledged packet waits RTO and the path is retransmitted from it. -/
  | rtoExpiry (qp path : Nat)
  /-- RNR_DELAY_EXPIRY (R403): After RNR_DELAY the sender retransmits from E. -/
  | rnrDelayExpiry (qp path : Nat)
  /-- CREDIT_TIMEOUT (R400): A sender without credit for CREDIT_TMO completes its entry with CREDIT_TIMEOUT. -/
  | creditTimeout (qp : Nat)
  /-- MSG_TMO_EXPIRY (R398): An admitted inbound message without a packet for MSG_TMO puts its queue pair into ERROR. -/
  | msgTmoExpiry (qp msn : Nat)
  /-- QP_DOORBELL (R392): A write to an SQ_PI or RQ_PI word makes the port read it. -/
  | qpDoorbell (qp : Nat) (recv : Bool)
  /-- SEND_ENTRY_START (R394): The port starts the next send queue entry in order once allowed. -/
  | sendEntryStart (qp : Nat)
  /-- TRIGGERED_START (R406): A TRIG entry at the head starts once TCTR reaches TTHR. -/
  | triggeredStart (qp : Nat)
  /-- QP_CREATE (R389): QP_CREATE creates a queue pair in INIT from a context block. -/
  | qpCreate (fn d : Nat) (value : Word)
  /-- QP_MODIFY (R391): QP_MODIFY moves a queue pair to another state. -/
  | qpModify (fn d : Nat) (value : Word)
  /-- QP_DESTROY (R389): QP_DESTROY frees a queue pair. -/
  | qpDestroy (fn d : Nat) (value : Word)
  /-- CQ_CREATE (R389): CQ_CREATE creates a completion queue. -/
  | cqCreate (fn d : Nat) (value : Word)
  /-- CQ_DESTROY (R389): CQ_DESTROY frees an unused completion queue. -/
  | cqDestroy (fn d : Nat) (value : Word)
  /-- MR_REG (R397): MR_REG registers a range and returns a key. -/
  | mrReg (fn d : Nat) (value : Word)
  /-- MR_DEREG (R398): MR_DEREG revokes a key and ends after admitted messages drain. -/
  | mrDereg (fn d : Nat) (value : Word)
  /-- REVOCATION_DRAIN_END (R398): The last message admitted under a revoked key ends and the command ends with CODE 0x00. -/
  | revocationDrainEnd (d : Nat)
  /-- PRIMARY_UNLOCK (R414): The primary PLL of a main domain unlocks and the domain switches to its standby. -/
  | primaryUnlock (dom : Nat)
  /-- STANDBY_UNLOCK (R414): The standby PLL unlocks and PLL_STANDBY_LOST is raised. -/
  | standbyUnlock (dom : Nat)
  /-- PLL_DUAL_LOST (R414): Both PLLs of a main domain unlock, the domain stops and FE follows. -/
  | pllDualLost (dom : Nat)
  /-- REF_LOST (R416): A reference shows no edge for 1 µs and its dependent clocks unlock. -/
  | refLost (r : Nat)
  /-- REF_PRESENT (R413): A reference is present again after 1,000 good edges. -/
  | refPresent (r : Nat)
  /-- PRIMARY_RELOCK (R414): A primary PLL locks again; the domain stays on its standby. -/
  | primaryRelock (dom : Nat)
  /-- SWITCH_BACK (R415): A write of CLK_SWBACK returns a domain to its locked primary. -/
  | switchBack (fn : Nat) (value : Word)
  /-- ACLK_STEP (R417): Every 200 ns ACLK moves one 25 MHz step toward min(TARGET, LIMIT). -/
  | aclkStep
  /-- CDC_PTR_MISMATCH (R421): A pointer mismatch resets a dual-clock queue, discarding its entries. -/
  | cdcPtrMismatch (cls inst packets : Nat)
  /-- EVENT_RECORD_ENTRY (R423): An event record enters the collector, is numbered and queued or dropped by severity. -/
  | eventRecordEntry
  /-- EVENT_DELIVERY (R498): The collector writes the next pending record to a destination ring and may send its vector. -/
  | eventDelivery (dest : Nat)
  /-- EVENT_RING_ENABLE (R598): A write of EVT_RING_CFG.ENABLE 1 enables the event ring, or sets ERR. -/
  | eventRingEnable (fn f : Nat) (value : Word32)
  /-- EVENT_RING_DISABLE (R598): A write of ENABLE 0 disables the event ring at once. -/
  | eventRingDisable (fn f : Nat) (value : Word32)
  /-- EVENT_HEAD (R598): A write of EVT_RING_HEAD returns event ring slots, or sets BADHEAD. -/
  | eventHead (fn f : Nat) (value : Word32)
  /-- FATAL_CLEAR (R599): All ones written to EVT_FATAL0 clears the first-fatal records, unless the FE state holds. -/
  | fatalClear (fn size : Nat) (value : Word)
  /-- SAMPLE (R430): A noise source delivers a sample, which is health-tested and conditioned or discarded. -/
  | sample (src : Nat) (v : BitVec 4)
  /-- INSTANTIATE (R441): An instance is instantiated from two combined blocks and becomes READY after 2 µs. -/
  | instantiate (g : Nat)
  /-- GENERATE (R442): An instance serves one 64-byte generate request to the next consumer in turn. -/
  | generate (g : Nat)
  /-- RESEED (R443): An instance reseeds from a combined block between requests. -/
  | reseed (g : Nat)
  /-- HT_INJ_ARM (R449): Setting RNG_HT_INJ.ARM forces a health-test failure of one source. -/
  | htInjArm (fn : Nat) (value : Word)
  /-- SEAL (R456): A PF write of SEC_MODE.SEAL makes the device SEALED while no deckle exists. -/
  | seal (fn : Nat) (value : Word)
  /-- LOAD_KEY (R464): A write of SEC_PTK_CTL.LOAD installs a partition transport key into a slot. -/
  | loadKey (fn d : Nat) (value : Word)
  /-- DESTROY (R464): A write of SEC_PTK_CTL.DESTROY zeroises a transport key slot. -/
  | destroy (fn d : Nat) (value : Word)
  /-- CREATE (R477): CREATE makes a deckle, loads its MEK, sets its way mask and idles its quires. -/
  | create (src : CmdSource) (cmd : Word) (cmd2 : Word32)
  /-- GRANT (R478): GRANT gives granules to a deckle in their zero state. -/
  | grant (src : CmdSource) (cmd : Word) (cmd2 : Word32)
  /-- RECLAIM (R478): RECLAIM erases granules and frees them. -/
  | reclaim (src : CmdSource) (cmd : Word) (cmd2 : Word32)
  /-- RESET (R479): RESET drains, scrubs and erases a deckle and returns it to ACTIVE with a new key. -/
  | reset (src : CmdSource) (cmd : Word) (cmd2 : Word32)
  /-- REMOVE (R479): REMOVE drains, scrubs and erases a deckle and frees its resources. -/
  | remove (src : CmdSource) (cmd : Word) (cmd2 : Word32)
  /-- DRAIN_CLOSE (R479): At t1 the remaining DMA stops, unfinished work completes with ABORTED_TENANT and the scrub begins. -/
  | drainClose (d : Nat)
  /-- KEY_DESTRUCTION (R479): Once the deckle's lines are written back, its MEK and transport keys are zeroised. -/
  | keyDestruction (d : Nat)
  /-- SCRUB_END (R479): At t3 the deckle's transport objects are freed, its rings disabled and PHASE becomes ERASING. -/
  | scrubEnd (d : Nat)
  /-- ERASE_END (R479): The erase of every granule ends and the deckle returns to ACTIVE or NONE. -/
  | eraseEnd (d : Nat)
  /-- LIVE_ACTIVATION (R468): A committed image with unchanged boot-path sections is activated when no report is being signed. -/
  | liveActivation
  /-- REPORT_SIGNED (R474): A Watermark report is signed after about 1 ms and returned. -/
  | reportSigned
  /-- RETIRE (R515): A PF write of QRE_ERR_CTL.RETIRE requests retirement of the quire. -/
  | retire (fn p : Nat)
  /-- ERR_ACK (R506): A write of QRE_ERR_CTL.ACK closes the quire's handling window. -/
  | errAck (fn p : Nat)
  /-- WINDOW_EXPIRY (R506): The handling window closes after WINDOW ms. -/
  | windowExpiry (p : Nat)
  /-- RETIREMENT (R516): A retirement tests spares, freezes the quire, transfers its state, remaps and resumes on a spare, or fences it. -/
  | retirement (failed : List Nat)
  /-- QUIRE_BUCKET_LEAK (R513): Every LEAK ms a quire bucket above 0 decrements. -/
  | quireBucketLeak (p : Nat)
  /-- FRAME_BUCKET_LEAK (R514): Every LEAK hours the frame buckets of a controller decrement. -/
  | frameBucketLeak (c : Nat)
  /-- SHT_INJ_ARM (R61): Setting QRE_SHT_INJ.ARM corrupts the next pass on the target sheet. -/
  | shtInjArm (fn p : Nat) (value : Word)
  /-- BTR_INJ_ARM (R127): Setting QRE_BTR_INJ.ARM corrupts the next computing instruction on the target pipe. -/
  | btrInjArm (fn p : Nat) (value : Word)
  /-- LANE_FAILURE (R521): A failed PCIe lane brings the link through Recovery at the widest sound width. -/
  | laneFailure (lanes : BitVec 16)
  /-- TICK (R529): At each 50 µs tick the cap loop and limiters move L by one position. -/
  | tick
  /-- EXCURSION (R532): An excursion reaching 8 ms forces L down by 8, again every 200 µs. -/
  | excursion
  /-- PEAK (R532): P10 above 1,650 W forces L down by 16, again every 10 µs. -/
  | peak
  /-- DROOP (R533): A VDD_CORE droop over 4 % doubles the quire's ACLK period until the rail recovers. -/
  | droop (p : Nat)
  /-- SENSOR_READ (R537): Every 1 ms the temperature sensors are read and the thresholds applied. -/
  | sensorRead (x : Sensors)
  /-- CALDROP (R536): A disagreement with calibration lowers CALSTEP and L. -/
  | caldrop
  /-- IDLE_WINDOW (R536): After 5 ms with no running stream the device measures again and restores CALSTEP. -/
  | idleWindow (tableMax : Nat)
  /-- HELLO (R549): A Pliac HELLO selects a version, draws nonces and opens a session. -/
  | hello (slot : Nat)
  /-- BYE (R549): BYE ends a Pliac session. -/
  | bye (slot : Nat)
  /-- IDENTITY (R552): IDENTITY returns the serial, life cycle, mode and image identity. -/
  | identity (slot : Nat)
  /-- TELEMETRY (R552): TELEMETRY returns power and temperature fields as the mode shows them. -/
  | telemetry (slot : Nat)
  /-- REPORT (R555): REPORT takes a Watermark snapshot or returns further bytes of the held report. -/
  | report (slot : Nat)
  /-- POWER (R553): POWER writes PWR_CAP and PWR_CTL. -/
  | power (slot : Nat)
  /-- PLIAC_RESET (R553): The Pliac RESET command is answered and a WARM reset follows 1 ms later. -/
  | pliacReset (slot : Nat) (b : BootIn)
  /-- PLIAC_RETIRE (R553): The Pliac RETIRE command requests retirement and answers when it ends. -/
  | pliacRetire (slot : Nat) (failed : List Nat)
  /-- PARTITION (R553): PARTITION carries a deckle command and returns its acceptance code. -/
  | partition (slot : Nat)
  /-- PARTITION_STATUS (R552): PARTITION_STATUS returns PRT_GSTS and every PRT_DSTS. -/
  | partitionStatus (slot : Nat)
  /-- LC_SET (R453): LC_SET blows life-cycle fuses and then performs a WARM reset. -/
  | lcSet (slot : Nat) (b : BootIn)
  /-- MODE (R456): MODE seals, unseals or blows SEAL_ONLY. -/
  | mode (slot : Nat)
  /-- ARB_ADVANCE (R469): ARB_ADVANCE blows anti-rollback bits up to a target count. -/
  | arbAdvance (slot : Nat)
  /-- IMG_BEGIN (R556): IMG_BEGIN starts staging and erases the idle bank's image region. -/
  | imgBegin (slot : Nat)
  /-- ERASE_DONE (R556): The staging erase ends and staging becomes OPEN. -/
  | eraseDone
  /-- IMG_WRITE (R556): IMG_WRITE writes image bytes into the staged bank. -/
  | imgWrite (slot : Nat)
  /-- IMG_COMMIT (R468): IMG_COMMIT verifies the staged image, writes a boot record and activates it live or pending. -/
  | imgCommit (slot : Nat) (sigOk : Bool)
  /-- IMG_STATUS (R556): IMG_STATUS returns the staging state. -/
  | imgStatus (slot : Nat)
  /-- STAGING_TIMEOUT (R556): A staging idle for 10 minutes returns to IDLE. -/
  | stagingTimeout
  /-- LINK_KEY (R554): LINK_KEY unwraps and installs an Izkai link key slot. -/
  | linkKey (slot : Nat)
  /-- CRED_INSTALL (R548): CRED_INSTALL unwraps and stores a credential in flash. -/
  | credInstall (slot : Nat)
  /-- CRED_REMOVE (R548): CRED_REMOVE empties a credential slot and ends its session. -/
  | credRemove (slot : Nat)
  /-- EVENT_SUB (R557): EVENT_SUB subscribes or unsubscribes a session to event records. -/
  | eventSub (slot : Nat)
  /-- EVENT_ACK (R557): EVENT_ACK frees the records sent up to its SEQ. -/
  | eventAck (slot : Nat)
  /-- EVENT (R557): The device sends buffered records in an EVENT message. -/
  | event (slot : Nat)
  /-- EVENT_RESEND (R557): Unacknowledged EVENT messages are resent every 100 ms. -/
  | eventResend (slot : Nat)
  /-- SESSION_TIMEOUT (R549): A Pliac session ends after 60 s without an accepted request. -/
  | sessionTimeout (slot : Nat)
  /-- DATAGRAM_RECEIVE (R544): A Pliac datagram is checked for length, magic, MAC and SEQ, then executed, answered or discarded. -/
  | datagramReceive (d : Datagram)
  /-- NEIGHBOR_SOLICITATION (R542): The management port answers a Neighbor Solicitation for its addresses. -/
  | neighborSolicitation (e : Ether) (src target : Nat)
  /-- ECHO_REQUEST (R542): The management port answers an ICMPv6 Echo Request. -/
  | echoRequest (e : Ether) (src dst : Nat) (data : List Byte)
  /-- SMBUS_IDENTITY_READ (R559): SMBus command 0x00 returns the identity block. -/
  | smbusIdentityRead
  /-- SMBUS_DIE_TEMPERATURE (R559): SMBus command 0x01 returns the hottest die sensor. -/
  | smbusDieTemperature
  /-- SMBUS_MEMORY_TEMPERATURE (R559): SMBus command 0x02 returns the hottest memory readout. -/
  | smbusMemoryTemperature
  /-- SMBUS_IMAGE_SEQ (R559): SMBus command 0x03 returns the running image SEQ. -/
  | smbusImageSeq
  /-- SMBUS_FAULT_STATUS (R559): SMBus command 0x04 returns FE, FAULT_N and mode bits. -/
  | smbusFaultStatus
  /-- SMBUS_WRITE (R559): An SMBus write is NACKed after its command byte. -/
  | smbusWrite (command : Byte)
  /-- STANDBY_RELOCK (R413): A standby PLL of a main domain that had unlocked locks again and the domain regains its spare. -/
  | standbyRelock (dom : Nat)
  /-- TAP_ACCESS (R458): A JTAG TAP operation uses the debug chain or trace buffer, or writes an injection register, clearing SEC_STS.APPROVED. -/
  | tapAccess (a : TapOp)
  /-- JTAG_LIFE_CYCLE_REQUEST (R452): Manufacture requests BLANK to PROVISIONED, or RETURNED to RETIRED, over JTAG with JTAG_EN high. -/
  | jtagLifeCycleRequest (target : Nat) (b : BootIn)
  /-- HOST_LINK_REENABLE (R521): The host disables and re-enables the PCIe link, which then returns to x16. -/
  | hostLinkReenable
  /-- PAUSE_EXPIRY (R380): The pause time given by a received PFC frame's quanta runs out and the priority may start frames again. -/
  | pauseExpiry (p prio : Nat)
  /-- DROOP_RECOVERY (R533): The VDD_CORE rail at a quire has been within 2 % of the setpoint for 64 cycles and ACLK doubling ends. -/
  | droopRecovery (p : Nat)
  /-- MANAGEMENT_LINK_CHANGE (R541): The management port link comes up or goes down after auto-negotiation or on loss of signal, changing GCT_MGT_STS.LINK. -/
  | managementLinkChange (up : Bool)
  deriving DecidableEq, Repr

end Sys2Proof
end

