-- ==== Sys2Proof/Decode.lean ====
section
/-! DEFINITION. The decoder the host asks: no row of the command table has bits, so no word spells a command. -/

namespace Sys2Proof

/-- The command a word spells by the table's bits: the table gives no row bits. -/
def decodeTableWord (_nbits _w : Nat) : Option Instr := none

end Sys2Proof
end

