-- ==== Sys2Proof/Machine/Bits.lean ====
section
/-! DEFINITION. Bit fields, byte order, sparse tables and the CRC-32C of R236: the helpers every family shares. -/

namespace Sys2Proof.Machine

/-! ### Bit fields of a number -/

/-- Bits `[hi:lo]` of `x`, both ends inclusive (Table 00.3). -/
def bits (x hi lo : Nat) : Nat := (x >>> lo) % 2 ^ (hi + 1 - lo)

/-- Bit `i` of `x`. -/
def bit (x i : Nat) : Bool := x.testBit i

/-- `x` with bits `[hi:lo]` replaced by the low bits of `v`. -/
def setBits (x hi lo v : Nat) : Nat :=
  x - (bits x hi lo) * 2 ^ lo + (v % 2 ^ (hi + 1 - lo)) * 2 ^ lo

/-- A field value placed at bit `lo`. -/
def place (v lo : Nat) : Nat := v * 2 ^ lo

/-- 0 or 1. -/
def b2n (b : Bool) : Nat := if b then 1 else 0

/-- The number that an `n`-bit two's-complement field denotes. -/
def signed (n x : Nat) : Int :=
  let y := x % 2 ^ n
  if 2 * y < 2 ^ n then (y : Int) else (y : Int) - (2 ^ n : Nat)

/-- The low `n` bits of an integer, in two's complement. -/
def wrapTo (n : Nat) (x : Int) : Nat := (x % ((2 ^ n : Nat) : Int)).toNat

/-- An integer modulo 2⁶⁴. -/
def wordOf (x : Int) : Word := BitVec.ofInt 64 x

/-- `x` is a multiple of `n`. -/
def aligned (n x : Nat) : Bool := x % n == 0

/-- The smallest multiple of `n` that is at least `x`. -/
def roundUp (n x : Nat) : Nat := (x + n - 1) / n * n

/-- `a - b` modulo `n`. -/
def subMod (n a b : Nat) : Nat := (a + (n - b % n)) % n

/-- `ceil (x / n)`. -/
def ceilDiv (x n : Nat) : Nat := (x + n - 1) / n

/-- A counter of `w` bits that holds at its maximum. -/
def satInc (w x n : Nat) : Nat := min (x + n) (2 ^ w - 1)

/-- The number of set bits among the low `n` bits of `x`. -/
def popcount : Nat → Nat → Nat
  | 0, _ => 0
  | n + 1, x => x % 2 + popcount n (x / 2)

/-- The indices below `n` whose bit is set in `x`, ascending. -/
def setBitsOf (n x : Nat) : List Nat := (List.range n).filter (fun i => x.testBit i)

/-- The number of trailing zero bits of `x`, at most `n`. -/
def trailingZeros : Nat → Nat → Nat
  | 0, _ => 0
  | n + 1, x => if x % 2 = 1 then 0 else 1 + trailingZeros n (x / 2)

/-- `x` is a power of two. -/
def isPow2 (x : Nat) : Bool := x != 0 && 2 ^ x.log2 == x

/-- The low `n` bits of an index in reverse order, the bits above kept (R120). -/
def reverseBits : Nat → Nat → Nat
  | 0, _ => 0
  | n + 1, x => (x % 2) * 2 ^ n + reverseBits n (x / 2)

/-! ### Bytes (little-endian, Table 00.3) -/

/-- The number a little-endian byte string denotes. -/
def leNat : List Byte → Nat
  | [] => 0
  | b :: bs => b.toNat + 256 * leNat bs

/-- `n` bytes of `x`, least significant first. -/
def leBytes : Nat → Nat → List Byte
  | 0, _ => []
  | n + 1, x => BitVec.ofNat 8 x :: leBytes n (x / 256)

/-- The number a big-endian byte string denotes. -/
def beNat (bs : List Byte) : Nat := bs.foldl (fun a b => a * 256 + b.toNat) 0

/-- `n` bytes of `x`, most significant first. -/
def beBytes (n x : Nat) : List Byte := (leBytes n x).reverse

/-- `n` zero bytes. -/
def zeros (n : Nat) : List Byte := List.replicate n 0#8

/-- The `n` bytes at offset `o` of a byte string, zero past its end. -/
def sliceB (bs : List Byte) (o n : Nat) : List Byte :=
  let r := (bs.drop o).take n
  r ++ zeros (n - r.length)

/-- The little-endian field of `n` bytes at offset `o`. -/
def fieldAt (bs : List Byte) (o n : Nat) : Nat := leNat (sliceB bs o n)

/-- A byte string padded with zeros, or cut, to `n` bytes. -/
def fitB (n : Nat) (bs : List Byte) : List Byte := sliceB bs 0 n

/-- Every byte is zero. -/
def allZero (bs : List Byte) : Bool := bs.all (· == 0#8)

/-- The ASCII bytes of a name. -/
def ascii (s : String) : List Byte := s.toList.map (fun c => BitVec.ofNat 8 c.toNat)

/-- Cut a list into pieces of `n`, with `fuel` pieces at most. -/
def chunksOf {α : Type} (n : Nat) : Nat → List α → List (List α)
  | 0, _ => []
  | _, [] => []
  | k + 1, l => l.take n :: chunksOf n k (l.drop n)

/-- The values of `w`-bit lanes `0 … n-1` of `x`. -/
def lanesOf (w n x : Nat) : List Nat := (List.range n).map (fun e => (x >>> (w * e)) % 2 ^ w)

/-- The number whose `w`-bit lanes are the list. -/
def ofLanes (w : Nat) (l : List Nat) : Nat := l.foldr (fun v acc => acc * 2 ^ w + v % 2 ^ w) 0

/-! ### Sparse tables -/

/-- The value at key `k`; `d` where the table lists none. -/
def tget {α : Type} (d : α) : Tab α → Nat → α
  | [], _ => d
  | (a, v) :: t, k => if a = k then v else tget d t k

/-- The pairs of consecutive keys from `base`. -/
def tpairs {α : Type} : Nat → List α → Tab α
  | _, [] => []
  | base, v :: vs => (base, v) :: tpairs (base + 1) vs

/-- Write consecutive keys from `base`, keeping the keys rising and dropping every pair that holds `d`. -/
def tputs {α : Type} [DecidableEq α] (d : α) (t : Tab α) (base : Nat) (vs : List α) : Tab α :=
  t.filter (fun p => decide (p.1 < base))
    ++ (tpairs base vs).filter (fun p => decide (p.2 ≠ d))
    ++ t.filter (fun p => decide (base + vs.length ≤ p.1))

/-- Write one key, keeping the canonical form. -/
def tset {α : Type} [DecidableEq α] (d : α) (t : Tab α) (k : Nat) (v : α) : Tab α := tputs d t k [v]

/-- `n` consecutive values from `base`. -/
def tslice {α : Type} (d : α) (t : Tab α) (base n : Nat) : List α :=
  (List.range n).map (fun i => tget d t (base + i))

/-- Clear `n` consecutive keys from `base`. -/
def tclear {α : Type} (t : Tab α) (base n : Nat) : Tab α :=
  t.filter (fun p => decide (p.1 < base)) ++ t.filter (fun p => decide (base + n ≤ p.1))

/-- Write one key of a table of records, whose default is not dropped. -/
def tupd {α : Type} (t : Tab α) (k : Nat) (v : α) : Tab α :=
  t.filter (fun p => decide (p.1 < k)) ++ (k, v) :: t.filter (fun p => decide (k < p.1))

/-- Remove one key. -/
def tdel {α : Type} (t : Tab α) (k : Nat) : Tab α := t.filter (fun p => decide (p.1 ≠ k))

/-- The record at key `k`, if listed. -/
def tfind {α : Type} : Tab α → Nat → Option α
  | [], _ => none
  | (a, v) :: t, k => if a = k then some v else tfind t k

/-- The lowest key below `n` that is not listed. -/
def tfree {α : Type} (t : Tab α) (n : Nat) : Option Nat :=
  (List.range n).find? (fun k => (tfind t k).isNone)

/-- Keys strictly rise. -/
def tsorted {α : Type} : Tab α → Bool
  | [] => true
  | [_] => true
  | p :: q :: t => decide (p.1 < q.1) && tsorted (q :: t)

/-- The canonical form: keys strictly rise and no pair holds the default. -/
def tcanon {α : Type} [DecidableEq α] (d : α) (t : Tab α) : Bool :=
  tsorted t && t.all (fun p => decide (p.2 ≠ d))

/-! ### Memory -/

/-- What an address that memory does not list reads as (log entry 22). -/
abbrev blankByte : Byte := 0#8

/-- Memory in its canonical form: addresses strictly rise and no listed byte is one that an unlisted address reads as. -/
abbrev Memory.wf (m : Tab Byte) : Bool := tcanon blankByte m

/-- The element at index `i` of a list, `d` past its end. -/
def nth {α : Type} (d : α) : List α → Nat → α
  | [], _ => d
  | x :: _, 0 => x
  | _ :: t, n + 1 => nth d t n

/-- The list with the element at index `i` replaced. -/
def setNth {α : Type} : List α → Nat → α → List α
  | [], _, _ => []
  | _ :: t, 0, v => v :: t
  | x :: t, n + 1, v => x :: setNth t n v

/-- The index of the first element that satisfies `p`. -/
def findIx {α : Type} (p : α → Bool) : List α → Option Nat
  | [] => none
  | x :: t => if p x then some 0 else (findIx p t).map (· + 1)

/-- Remove the element at index `i`. -/
def dropNth {α : Type} : List α → Nat → List α
  | [], _ => []
  | _ :: t, 0 => t
  | x :: t, n + 1 => x :: dropNth t n

/-- Two byte ranges share a byte. -/
def overlaps (a b : Nat × Nat) : Bool :=
  decide (a.1 < b.1 + b.2) && decide (b.1 < a.1 + a.2)

/-! ### CRC-32C (R236) -/

/-- `n` shifts of the reflected CRC-32C register (polynomial 0x1EDC6F41). -/
def crcShift : Nat → Nat → Nat
  | 0, c => c
  | n + 1, c => crcShift n (if c % 2 = 1 then (c / 2) ^^^ 0x82F63B78 else c / 2)

/-- The CRC-32C of a byte string. -/
def crc32c (bs : List Byte) : Nat :=
  (bs.foldl (fun c b => crcShift 8 (c ^^^ b.toNat)) 0xFFFFFFFF) ^^^ 0xFFFFFFFF

/-- The CRC-32 of an Ethernet frame check sequence (polynomial 0x04C11DB7, reflected). -/
def crcEthShift : Nat → Nat → Nat
  | 0, c => c
  | n + 1, c => crcEthShift n (if c % 2 = 1 then (c / 2) ^^^ 0xEDB88320 else c / 2)

/-- The frame check sequence of an Ethernet frame. -/
def crcEth (bs : List Byte) : Nat :=
  (bs.foldl (fun c b => crcEthShift 8 (c ^^^ b.toNat)) 0xFFFFFFFF) ^^^ 0xFFFFFFFF

end Sys2Proof.Machine
end

