-- ==== Sys2Proof/Machine/Num.lean ====
section
/-! DEFINITION. Exact numbers and their rounding: the element layouts of Table 02.2 and R72, one rounding of an exact
value, the floating-point operations of R106–R108 and the functions of Table 04.3. -/

namespace Sys2Proof.Machine

/-! ### Formats and values -/

/-- How a floating-point layout spends its top codes (Table 02.2). -/
inductive Specials where
  /-- IEEE: the top exponent holds infinities and NaNs. -/
  | ieee
  /-- E4M3: one NaN code, no infinity. -/
  | e4m3
  /-- E2M1, E2M3, E3M2: no special code. -/
  | none
  deriving DecidableEq, Repr

/-- A floating-point layout: exponent bits, mantissa bits, bias. -/
structure Fmt where
  ebits : Nat
  mbits : Nat
  bias : Nat
  specials : Specials
  deriving DecidableEq, Repr

/-- IEEE 754 binary32 (R72). -/
def fp32 : Fmt := ⟨8, 23, 127, .ieee⟩
/-- BF16 (Table 02.2). -/
def bf16 : Fmt := ⟨8, 7, 127, .ieee⟩
/-- E4M3 (Table 02.2). -/
def e4m3 : Fmt := ⟨4, 3, 7, .e4m3⟩
/-- E5M2 (Table 02.2). -/
def e5m2 : Fmt := ⟨5, 2, 15, .ieee⟩
/-- E2M1 (Table 02.2). -/
def e2m1 : Fmt := ⟨2, 1, 1, .none⟩
/-- E2M3 (Table 02.2). -/
def e2m3 : Fmt := ⟨2, 3, 1, .none⟩
/-- E3M2 (Table 02.2). -/
def e3m2 : Fmt := ⟨3, 2, 3, .none⟩

/-- The width of a layout in bits. -/
def fmtWidth (f : Fmt) : Nat := 1 + f.ebits + f.mbits

/-- A decoded value: NaN, a signed infinity, or `(-1)^neg * m * 2^e`. -/
inductive FVal where
  | nan
  | inf (neg : Bool)
  | fin (neg : Bool) (m : Nat) (e : Int)
  deriving DecidableEq, Repr

/-- The exponent of the least significant bit of the subnormals. -/
def fmtMinExp (f : Fmt) : Int := 1 - (f.bias : Int) - (f.mbits : Int)

/-- R31: the value of an encoding. -/
def decodeF (f : Fmt) (c : Nat) : FVal :=
  let neg := c.testBit (f.ebits + f.mbits)
  let e := (c >>> f.mbits) % 2 ^ f.ebits
  let m := c % 2 ^ f.mbits
  let top := e == 2 ^ f.ebits - 1
  match f.specials with
  | .ieee =>
    if top then (if m = 0 then .inf neg else .nan)
    else if e = 0 then .fin neg m (fmtMinExp f)
    else .fin neg (2 ^ f.mbits + m) (fmtMinExp f + (e : Int) - 1)
  | .e4m3 =>
    if top && m == 2 ^ f.mbits - 1 then .nan
    else if e = 0 then .fin neg m (fmtMinExp f)
    else .fin neg (2 ^ f.mbits + m) (fmtMinExp f + (e : Int) - 1)
  | .none =>
    if e = 0 then .fin neg m (fmtMinExp f)
    else .fin neg (2 ^ f.mbits + m) (fmtMinExp f + (e : Int) - 1)

/-- The magnitude code of the largest finite value. -/
def fmtMaxCode (f : Fmt) : Nat :=
  match f.specials with
  | .ieee => (2 ^ f.ebits - 1) * 2 ^ f.mbits - 1
  | .e4m3 => 2 ^ (f.ebits + f.mbits) - 2
  | .none => 2 ^ (f.ebits + f.mbits) - 1

/-- The magnitude code of infinity, or of the NaN where the layout has no infinity. -/
def fmtInfCode (f : Fmt) : Nat :=
  match f.specials with
  | .ieee => (2 ^ f.ebits - 1) * 2 ^ f.mbits
  | .e4m3 => 2 ^ (f.ebits + f.mbits) - 1
  | .none => 2 ^ (f.ebits + f.mbits) - 1

/-- The canonical quiet NaN (R106, Table 03.7). -/
def fmtNaN (f : Fmt) : Nat :=
  match f.specials with
  | .ieee => (2 ^ f.ebits - 1) * 2 ^ f.mbits + 2 ^ (f.mbits - 1)
  | .e4m3 => 2 ^ (f.ebits + f.mbits) - 1
  | .none => 0

/-- The sign bit of a code. -/
def fmtSign (f : Fmt) (neg : Bool) : Nat := if neg then 2 ^ (f.ebits + f.mbits) else 0

/-! ### One rounding -/

/-- Rounding rules: to nearest even (R89), toward zero (R108), stochastic with a 16-bit draw (R90). -/
inductive Rnd where
  | rne
  | rz
  | stoch (r : Nat)
  deriving DecidableEq, Repr

/-- Round the quotient of `m * 2^e` (plus something positive and below `2^e` when `sticky`) by `2^q` to an integer. -/
def roundQ (r : Rnd) (m : Nat) (e q : Int) (sticky : Bool) : Nat :=
  if q ≤ e then m * 2 ^ (e - q).toNat
  else
    let sh := (q - e).toNat
    let lo := m / 2 ^ sh
    let rem := m % 2 ^ sh
    let half := 2 ^ (sh - 1)
    match r with
    | .rz => lo
    | .rne => if rem > half || (rem == half && (sticky || lo % 2 == 1)) then lo + 1 else lo
    | .stoch d => if d < rem * 2 ^ 16 / 2 ^ sh then lo + 1 else lo

/-- The magnitude code of `m * 2^e` rounded once into the layout, with the spacing continued above the largest finite
value; a result above `fmtMaxCode` has overflowed. -/
def roundMag (f : Fmt) (r : Rnd) (m : Nat) (e : Int) (sticky : Bool) : Nat :=
  if m = 0 then 0 else
  let top := e + (m.log2 : Int)
  let q := max (fmtMinExp f) (top - (f.mbits : Int))
  roundQ r m e q sticky + (q - fmtMinExp f).toNat * 2 ^ f.mbits

/-- R106, R108: a finite exact value rounded once; overflow gives infinity, or the largest finite value toward zero. -/
def encodeFin (f : Fmt) (r : Rnd) (neg : Bool) (m : Nat) (e : Int) (sticky : Bool) : Nat :=
  let c := roundMag f r m e sticky
  let c := if c ≤ fmtMaxCode f then c else
    match r with
    | .rz => fmtMaxCode f
    | _ => fmtInfCode f
  fmtSign f neg + c

/-- A value rounded once into the layout. -/
def encodeF (f : Fmt) (r : Rnd) : FVal → Nat
  | .nan => fmtNaN f
  | .inf neg => fmtSign f neg + fmtInfCode f
  | .fin neg m e => encodeFin f r neg m e false

/-! ### Exact arithmetic -/

/-- The signed integer `(-1)^neg * m`. -/
def sgn (neg : Bool) (m : Nat) : Int := if neg then -(m : Int) else m

/-- A signed exact value `i * 2^e` as an `FVal`; an exact zero is `+0`. -/
def ofInt2 (i : Int) (e : Int) : FVal := .fin (decide (i < 0)) i.natAbs e

/-- R106: the exact sum (IEEE 754: a zero sum of two values of one sign keeps the sign, otherwise it is `+0`). -/
def addF : FVal → FVal → FVal
  | .nan, _ => .nan
  | _, .nan => .nan
  | .inf a, .inf b => if a = b then .inf a else .nan
  | .inf a, .fin _ _ _ => .inf a
  | .fin _ _ _, .inf b => .inf b
  | .fin a m e, .fin b n g =>
    if m = 0 && n = 0 then .fin (a && b) 0 e
    else
      let l := min e g
      ofInt2 (sgn a (m * 2 ^ (e - l).toNat) + sgn b (n * 2 ^ (g - l).toNat)) l

/-- Negation. -/
def negF : FVal → FVal
  | .nan => .nan
  | .inf a => .inf (!a)
  | .fin a m e => .fin (!a) m e

/-- R106: the exact product. -/
def mulF : FVal → FVal → FVal
  | .nan, _ => .nan
  | _, .nan => .nan
  | .inf a, .inf b => .inf (a != b)
  | .inf a, .fin b n _ => if n = 0 then .nan else .inf (a != b)
  | .fin a m _, .inf b => if m = 0 then .nan else .inf (a != b)
  | .fin a m e, .fin b n g => .fin (a != b) (m * n) (e + g)

/-- The comparison of two values that are not NaN: infinities as ends, zeros equal. -/
def cmpF : FVal → FVal → Ordering
  | .inf a, .inf b => if a = b then .eq else if a then .lt else .gt
  | .inf a, _ => if a then .lt else .gt
  | _, .inf b => if b then .gt else .lt
  | .fin a m e, .fin b n g =>
    let l := min e g
    compare (sgn a (m * 2 ^ (e - l).toNat)) (sgn b (n * 2 ^ (g - l).toNat))
  | _, _ => .eq

/-- The value is NaN. -/
def isNaN : FVal → Bool
  | .nan => true
  | _ => false

/-- R107: the exact minimum; a NaN gives NaN, equal operands give the first. -/
def minF (a b : FVal) : FVal :=
  if isNaN a || isNaN b then .nan else if cmpF b a = .lt then b else a

/-- R107: the exact maximum; a NaN gives NaN, equal operands give the first. -/
def maxF (a b : FVal) : FVal :=
  if isNaN a || isNaN b then .nan else if cmpF b a = .gt then b else a

/-- R107, Table 05.15: the relation REL (0 EQ, 1 NE, 2 LT, 3 LE, 4 GT, 5 GE). -/
def relF (rel : Nat) (a b : FVal) : Bool :=
  if isNaN a || isNaN b then rel == 1 else
  match rel, cmpF a b with
  | 0, o => o == .eq
  | 1, o => o != .eq
  | 2, o => o == .lt
  | 3, o => o != .gt
  | 4, o => o == .gt
  | _, o => o != .lt

/-- R108, R74, R88: an exact value rounded to an integer under a rounding rule. -/
def roundInt (r : Rnd) (neg : Bool) (m : Nat) (e : Int) : Int := sgn neg (roundQ r m e 0 false)

/-- R108: conversion to S32 with saturation; NaN gives 0. -/
def toS32 (r : Rnd) : FVal → Int
  | .nan => 0
  | .inf neg => if neg then -(2 ^ 31) else 2 ^ 31 - 1
  | .fin neg m e => max (-(2 ^ 31)) (min (2 ^ 31 - 1) (roundInt r neg m e))

/-! ### Fixed-point helpers for the functions of Table 04.3 -/

/-- The integer square root, bit by bit from bit `k - 1`. -/
def isqrtGo : Nat → Nat → Nat → Nat
  | 0, r, _ => r
  | k + 1, r, n => isqrtGo k (if (r + 2 ^ k) * (r + 2 ^ k) ≤ n then r + 2 ^ k else r) n

/-- `floor (sqrt n)`. -/
def isqrt (n : Nat) : Nat := isqrtGo (n.log2 / 2 + 1) 0 n

/-- The working precision of the transcendental functions, in fraction bits. -/
def fxPrec : Nat := 320

/-- Terms of the series of `exp t - 1`, with `t` and the running term in `fxPrec` fraction bits. -/
def expSeries : Nat → Nat → Nat → Nat → Nat → Nat
  | 0, _, _, _, acc => acc
  | k + 1, n, t, term, acc =>
    let term' := term * t / 2 ^ fxPrec / (n + 1)
    expSeries k (n + 1) t term' (acc + term')

/-- Square a fixed-point number `k` times. -/
def sqTimes : Nat → Nat → Nat
  | 0, x => x
  | k + 1, x => sqTimes k (x * x / 2 ^ fxPrec)

/-- `exp t` for a fixed-point `t` below 64: reduced by `2^-16`, summed, squared back. -/
def expFx (t : Nat) : Nat :=
  sqTimes 16 (expSeries 32 0 (t / 2 ^ 16) (2 ^ fxPrec) (2 ^ fxPrec))

/-- The series of `ln 2`: the sum of `1 / (k * 2^k)`. -/
def ln2Series : Nat → Nat → Nat → Nat
  | 0, _, acc => acc
  | n + 1, k, acc => ln2Series n (k + 1) (acc + 2 ^ fxPrec / (k * 2 ^ k))

/-- `ln 2` in `fxPrec` fraction bits. -/
def ln2Fx : Nat := ln2Series 330 1 0

/-- Fraction bits of `log2` of a fixed-point number in `[1, 2)` by repeated squaring. -/
def log2Bits : Nat → Nat → Nat → Nat
  | 0, _, acc => acc
  | k + 1, x, acc =>
    let y := x * x / 2 ^ 480
    if y ≥ 2 ^ 481 then log2Bits k (y / 2) (2 * acc + 1) else log2Bits k y (2 * acc)

/-- R110: `2^x`, rounded once. -/
def exp2F (f : Fmt) : FVal → Nat
  | .nan => fmtNaN f
  | .inf neg => if neg then 0 else fmtInfCode f
  | .fin neg m e =>
    if m = 0 then encodeFin f .rne false 1 0 false
    else if (m.log2 : Int) + e ≥ 10 then
      (if neg then 0 else fmtInfCode f)
    else if (m.log2 : Int) + e < -40 then encodeFin f .rne false 1 0 false
    else
      -- the exact value i + fr / 2^k, with 0 ≤ fr < 2^k
      let k := (-e).toNat
      let n : Int := sgn neg (m * 2 ^ e.toNat)
      let i := n / ((2 ^ k : Nat) : Int)
      let fr := (n % ((2 ^ k : Nat) : Int)).toNat
      if fr = 0 then encodeFin f .rne false 1 i false
      else
        let t := fr * ln2Fx / 2 ^ k
        encodeFin f .rne false (expFx t) (i - (fxPrec : Int)) true

/-- R110: `log2 x`, rounded once. -/
def log2F (f : Fmt) : FVal → Nat
  | .nan => fmtNaN f
  | .inf neg => if neg then fmtNaN f else fmtInfCode f
  | .fin neg m e =>
    if m = 0 then fmtSign f true + fmtInfCode f
    else if neg then fmtNaN f
    else
      let l := m.log2
      let i : Int := e + (l : Int)
      if m = 2 ^ l then encodeFin f .rne (decide (i < 0)) i.natAbs 0 false
      else
        let fr := log2Bits 200 (m * 2 ^ (480 - l)) 0
        let v : Int := i * ((2 ^ 200 : Nat) : Int) + (fr : Int)
        if 0 ≤ v then encodeFin f .rne false v.toNat (-200) true
        else encodeFin f .rne true (v.natAbs - 1) (-200) true

/-- R110: `1/x`, rounded once. -/
def rcpF (f : Fmt) : FVal → Nat
  | .nan => fmtNaN f
  | .inf neg => fmtSign f neg
  | .fin neg m e =>
    if m = 0 then fmtSign f neg + fmtInfCode f
    else
      let p := 2 ^ 64
      encodeFin f .rne neg (p / m) (-64 - e) (p % m != 0)

/-- R110: `sqrt x`, rounded once. -/
def sqrtF (f : Fmt) : FVal → Nat
  | .nan => fmtNaN f
  | .inf neg => if neg then fmtNaN f else fmtInfCode f
  | .fin neg m e =>
    if m = 0 then fmtSign f neg
    else if neg then fmtNaN f
    else
      let odd := e % 2 != 0
      let m' := (if odd then 2 * m else m) * 2 ^ 80
      let e' := (if odd then e - 1 else e) - 80
      let r := isqrt m'
      encodeFin f .rne false r (e' / 2) (r * r != m')

/-- R110: `1/sqrt x`, rounded once. -/
def rsqrtF (f : Fmt) : FVal → Nat
  | .nan => fmtNaN f
  | .inf neg => if neg then fmtNaN f else 0
  | .fin neg m e =>
    if m = 0 then fmtSign f neg + fmtInfCode f
    else if neg then fmtNaN f
    else
      let odd := e % 2 != 0
      let m' := if odd then 2 * m else m
      let e' := if odd then e - 1 else e
      -- 1/sqrt(m' 2^e') = floor(sqrt(2^160 / m')) 2^(-80 - e'/2), with what is cut off
      let p := 2 ^ 160
      let r := isqrt (p / m')
      encodeFin f .rne false r (-80 - e' / 2) (r * r * m' != p)

/-- R110: `tanh x`, rounded once. -/
def tanhF (f : Fmt) : FVal → Nat
  | .nan => fmtNaN f
  | .inf neg => encodeFin f .rne neg 1 0 false
  | .fin neg m e =>
    if m = 0 then fmtSign f neg
    else if (m.log2 : Int) + e ≥ 4 then encodeFin f .rne neg 1 0 false
    else if (m.log2 : Int) + e < -14 then encodeFin f .rne neg (m * 2 ^ 64 - 1) (e - 64) true
    else
      -- e^(2x) with x in fxPrec fraction bits
      let t := if 0 ≤ e then 2 * m * 2 ^ e.toNat * 2 ^ fxPrec else 2 * m * 2 ^ fxPrec / 2 ^ (-e).toNat
      let g := expFx t
      encodeFin f .rne neg ((g - 2 ^ fxPrec) * 2 ^ fxPrec / (g + 2 ^ fxPrec)) (-(fxPrec : Int)) true

end Sys2Proof.Machine
end

