-- ==== Sys2Proof/Machine/Gauss.lean ====
section
/-! DEFINITION. The exact draw of the discrete Gaussian of R301 from random bits: `sample` and `bern_exp` of its pseudocode.  A uniform
integer below n takes as many bits as n − 1 has, lowest first, until they are below n (log entry 4). -/

namespace Sys2Proof.Machine

/-- Random bits not yet taken: their value, the next bit lowest, and their number. -/
abbrev Pool := Nat × Nat

/-- Take `k` bits; none where too few are left. -/
def takeBits (k : Nat) (p : Pool) : Option (Nat × Pool) :=
  if k ≤ p.2 then some (p.1 % 2 ^ k, (p.1 / 2 ^ k, p.2 - k)) else none

/-- A uniform integer in [0, n). -/
def uniformGo1 : Nat → Nat → Pool → Option (Nat × Pool)
  | 0, _, _ => none
  | f + 1, n, p =>
    match takeBits (if n ≤ 1 then 0 else (n - 1).log2 + 1) p with
    | none => none
    | some (v, p1) => if v < n then some (v, p1) else uniformGo1 f n p1

/-- A uniform integer in [0, n). -/
def uniformBelow (n : Nat) (p : Pool) : Option (Nat × Pool) := uniformGo1 (p.2 + 1) n p

/-- The loop of bern_exp for g = `a` / `b` at most 1, from `k`. -/
def bernGo (a b : Nat) : Nat → Nat → Pool → Option (Bool × Pool)
  | 0, _, _ => none
  | f + 1, k, p =>
    match uniformBelow (b * k) p with
    | none => none
    | some (v, p1) => if v < a then bernGo a b f (k + 1) p1 else some (k % 2 == 1, p1)

/-- bern_exp(`a` / `b`) for a fraction of at most 1. -/
def bernSmall (a b : Nat) (p : Pool) : Option (Bool × Pool) := bernGo a b (p.2 + 2) 1 p

/-- `n` draws of bern_exp(1), up to the first false one. -/
def bernOnes : Nat → Pool → Option (Bool × Pool)
  | 0, p => some (true, p)
  | n + 1, p =>
    match bernSmall 1 1 p with
    | some (true, p1) => bernOnes n p1
    | r => r

/-- bern_exp(`a` / `b`). -/
def bernExp (a b : Nat) (p : Pool) : Option (Bool × Pool) :=
  let n := if a ≤ b then 0 else ceilDiv a b - 1
  match bernOnes n p with
  | some (true, p1) => bernSmall (a - n * b) b p1
  | r => r

/-- The loop of `sample` that counts `v`. -/
def countOnes : Nat → Nat → Pool → Option (Nat × Pool)
  | 0, _, _ => none
  | f + 1, v, p =>
    match bernSmall 1 1 p with
    | none => none
    | some (true, p1) => countOnes f (v + 1) p1
    | some (false, p1) => some (v, p1)

/-- `sample` for σ² = `s` / `d`, with t = floor(sqrt(σ²)) + 1. -/
def gaussGo (s d t : Nat) : Nat → Pool → Option (Int × Pool)
  | 0, _ => none
  | f + 1, p => do
    let (u, p) ← uniformBelow t p
    let (keep, p) ← bernExp u t p
    if !keep then gaussGo s d t f p else
    let (v, p) ← countOnes (p.2 + 1) 0 p
    let x := u + t * v
    let (y, p) ← takeBits 1 p
    if y = 1 && x = 0 then gaussGo s d t f p else
    let z : Int := if y = 0 then x else -(x : Int)
    -- (x − σ²/t)² / (2σ²) over one denominator
    let e := ((x * d * t : Nat) : Int) - (s : Int)
    let (ok, p) ← bernExp (e * e).toNat (2 * s * d * t * t) p
    if ok then some (z, p) else gaussGo s d t f p

/-- One draw. -/
def gaussOf (s d : Nat) (p : Pool) : Option (Int × Pool) := gaussGo s d (isqrt (s / d) + 1) (p.2 + 1) p

/-- `n` independent draws; none where the bits do not suffice. -/
def gaussBatch (s d : Nat) : Nat → Pool → Option (List Int)
  | 0, _ => some []
  | n + 1, p => do
    let (z, p) ← gaussOf s d p
    let zs ← gaussBatch s d n p
    some (z :: zs)

end Sys2Proof.Machine
end

