-- ==== Sys2Proof/Config.lean ====
section
/-! DEFINITION. What the manual leaves open: free values with no body, so that a statement holds whatever they are. -/

namespace Sys2Proof

/-- The `n`-th free value a step takes; a value of `w` bits is this number modulo `2 ^ w` (log entry 3). -/
opaque Config.free : Nat → Nat

/-- The SLH-DSA-SHA2-128f public key of a 48-byte seed (FIPS 205), 32 bytes (log entry 5). -/
opaque Config.slhPublic (seed : List Byte) : List Byte

/-- The SLH-DSA-SHA2-128f signature of a message under a 48-byte seed (FIPS 205), 17,088 bytes (log entry 5). -/
opaque Config.slhSign (seed message : List Byte) : List Byte

/-- Field `f` of entry `n` of the P.* library in an image section with this digest: Table 08.11 does not give the
section's own layout (log entry 7).  Fields: 0 SEQ, 1 LOGN, 2 L, 3 K, 4 ALPHA, 5 QUIRES, 6 OUT_LEVEL, 7 OUT_SCALE,
8 OUT_NOISE, 9 SCRATCH_MIN. -/
opaque Config.libField (digest : List Byte) (n f : Nat) : Nat

/-- The number of library entries and the library version of an image section with this digest (log entry 7). -/
opaque Config.libCount (digest : List Byte) : Nat
/-- The library version of an image section with this digest (log entry 7). -/
opaque Config.libVersion (digest : List Byte) : Nat

/-- The Galois elements whose keys entry `n` of a library needs (log entry 7). -/
opaque Config.libGalois (digest : List Byte) (n : Nat) : List Nat

/-- Coefficient word `i` of the result of library entry `n` on a source with these bytes (log entry 7): the
macro-sequence stands in the signed image and not in the manual. -/
opaque Config.bootWord (digest : List Byte) (n : Nat) (source : List Byte) (i : Nat) : Nat

end Sys2Proof
end

