-- ==== Sys2Proof/Machine/Crypto.lean ====
section
/-! DEFINITION. The approved algorithms of R484 as functions of bytes: SHA-256, HMAC-SHA-256, the KDF of R460, HKDF,
AES-256 with CTR, GCM and KW, and SHAKE128.  SLH-DSA stands in `Config`, uninterpreted. -/

namespace Sys2Proof.Machine

/-! ### SHA-256 (FIPS 180-4) -/

/-- The first 32 bits of the fractional part of the cube root of the first 64 primes, part 1. -/
def shaK0 : List Word32 :=
  [0x428a2f98#32, 0x71374491#32, 0xb5c0fbcf#32, 0xe9b5dba5#32, 0x3956c25b#32, 0x59f111f1#32, 0x923f82a4#32, 0xab1c5ed5#32,
   0xd807aa98#32, 0x12835b01#32, 0x243185be#32, 0x550c7dc3#32, 0x72be5d74#32, 0x80deb1fe#32, 0x9bdc06a7#32, 0xc19bf174#32,
   0xe49b69c1#32, 0xefbe4786#32, 0x0fc19dc6#32, 0x240ca1cc#32, 0x2de92c6f#32, 0x4a7484aa#32, 0x5cb0a9dc#32, 0x76f988da#32,
   0x983e5152#32, 0xa831c66d#32, 0xb00327c8#32, 0xbf597fc7#32, 0xc6e00bf3#32, 0xd5a79147#32, 0x06ca6351#32, 0x14292967#32]

/-- The round constants, part 2. -/
def shaK1 : List Word32 :=
  [0x27b70a85#32, 0x2e1b2138#32, 0x4d2c6dfc#32, 0x53380d13#32, 0x650a7354#32, 0x766a0abb#32, 0x81c2c92e#32, 0x92722c85#32,
   0xa2bfe8a1#32, 0xa81a664b#32, 0xc24b8b70#32, 0xc76c51a3#32, 0xd192e819#32, 0xd6990624#32, 0xf40e3585#32, 0x106aa070#32,
   0x19a4c116#32, 0x1e376c08#32, 0x2748774c#32, 0x34b0bcb5#32, 0x391c0cb3#32, 0x4ed8aa4a#32, 0x5b9cca4f#32, 0x682e6ff3#32,
   0x748f82ee#32, 0x78a5636f#32, 0x84c87814#32, 0x8cc70208#32, 0x90befffa#32, 0xa4506ceb#32, 0xbef9a3f7#32, 0xc67178f2#32]

/-- The initial hash value. -/
def shaInit : List Word32 :=
  [0x6a09e667#32, 0xbb67ae85#32, 0x3c6ef372#32, 0xa54ff53a#32, 0x510e527f#32, 0x9b05688c#32, 0x1f83d9ab#32, 0x5be0cd19#32]

/-- The message schedule, newest word first, `n` words still to form. -/
def shaExpand : Nat → List Word32 → List Word32
  | 0, w => w
  | n + 1, w =>
    let w2 := nth 0 w 1; let w7 := nth 0 w 6; let w15 := nth 0 w 14; let w16 := nth 0 w 15
    let s0 := w15.rotateRight 7 ^^^ w15.rotateRight 18 ^^^ (w15 >>> 3)
    let s1 := w2.rotateRight 17 ^^^ w2.rotateRight 19 ^^^ (w2 >>> 10)
    shaExpand n ((w16 + s0 + w7 + s1) :: w)

/-- One round on the working variables. -/
def shaRound (v : List Word32) (kw : Word32 × Word32) : List Word32 :=
  match v with
  | [a, b, c, d, e, f, g, h] =>
    let s1 := e.rotateRight 6 ^^^ e.rotateRight 11 ^^^ e.rotateRight 25
    let ch := (e &&& f) ^^^ (~~~e &&& g)
    let t1 := h + s1 + ch + kw.1 + kw.2
    let s0 := a.rotateRight 2 ^^^ a.rotateRight 13 ^^^ a.rotateRight 22
    let mj := (a &&& b) ^^^ (a &&& c) ^^^ (b &&& c)
    [t1 + (s0 + mj), a, b, c, d + t1, e, f, g]
  | v => v

/-- One block of 64 bytes. -/
def shaBlock (h : List Word32) (blk : List Byte) : List Word32 :=
  let w := (chunksOf 4 16 blk).map (fun c => BitVec.ofNat 32 (beNat c))
  let ws := (shaExpand 48 w.reverse).reverse
  let v := ((shaK0 ++ shaK1).zip ws).foldl shaRound h
  List.zipWith (· + ·) h v

/-- SHA-256 of a byte string. -/
def sha256 (m : List Byte) : List Byte :=
  let n := m.length
  let padded := m ++ [0x80#8] ++ zeros ((119 - n % 64) % 64) ++ beBytes 8 (8 * n)
  ((chunksOf 64 (n / 64 + 2) padded).foldl shaBlock shaInit).flatMap (fun x => beBytes 4 x.toNat)

/-! ### HMAC, KDF, HKDF -/

/-- HMAC-SHA-256 (FIPS 198-1). -/
def hmac (k m : List Byte) : List Byte :=
  let k0 := fitB 64 (if k.length > 64 then sha256 k else k)
  sha256 (k0.map (· ^^^ 0x5c#8) ++ sha256 (k0.map (· ^^^ 0x36#8) ++ m))

/-- Blocks `i+1 … i+n` of the KDF of R460, with the fixed input already formed. -/
def kdfBlocks (k fixed : List Byte) : Nat → Nat → List Byte
  | 0, _ => []
  | n + 1, i => hmac k (beBytes 4 (i + 1) ++ fixed) ++ kdfBlocks k fixed n (i + 1)

/-- R460: KDF in counter mode with HMAC-SHA-256; the first `l` bits. -/
def kdf (k : List Byte) (label : String) (ctx : List Byte) (l : Nat) : List Byte :=
  (kdfBlocks k (ascii label ++ [0#8] ++ ctx ++ beBytes 4 l) (ceilDiv l 256) 0).take (l / 8)

/-- HKDF-Extract with HMAC-SHA-256. -/
def hkdfExtract (salt ikm : List Byte) : List Byte := hmac salt ikm

/-- HKDF-Expand blocks, the previous block first. -/
def hkdfBlocks (prk info : List Byte) : Nat → Nat → List Byte → List Byte
  | 0, _, _ => []
  | n + 1, i, prev =>
    let t := hmac prk (prev ++ info ++ [BitVec.ofNat 8 (i + 1)])
    t ++ hkdfBlocks prk info n (i + 1) t

/-- HKDF-Expand to `l` bytes. -/
def hkdfExpand (prk info : List Byte) (l : Nat) : List Byte :=
  (hkdfBlocks prk info (ceilDiv l 32) 0 []).take l

/-! ### AES-256 (FIPS 197) -/

/-- Multiplication by x in GF(2⁸). -/
def xtime (a : Nat) : Nat := (if a ≥ 128 then (2 * a) ^^^ 0x11b else 2 * a) % 256

/-- Multiplication in GF(2⁸), over the low `n` bits of `b`. -/
def gmulN : Nat → Nat → Nat → Nat
  | 0, _, _ => 0
  | n + 1, a, b => (if b % 2 = 1 then a else 0) ^^^ gmulN n (xtime a) (b / 2)

/-- Multiplication in GF(2⁸). -/
def gmul (a b : Nat) : Nat := gmulN 8 a b

/-- The inverse in GF(2⁸) as the 254th power. -/
def ginv (a : Nat) : Nat :=
  let a2 := gmul a a; let a4 := gmul a2 a2; let a8 := gmul a4 a4; let a16 := gmul a8 a8
  let a32 := gmul a16 a16; let a64 := gmul a32 a32; let a128 := gmul a64 a64
  gmul a2 (gmul a4 (gmul a8 (gmul a16 (gmul a32 (gmul a64 a128)))))

/-- Rotation of a byte left. -/
def rotl8 (a n : Nat) : Nat := (a * 2 ^ n) % 256 + a / 2 ^ (8 - n)

/-- The S-box: inverse and affine map. -/
def sbox (a : Nat) : Nat :=
  let b := ginv a
  b ^^^ rotl8 b 1 ^^^ rotl8 b 2 ^^^ rotl8 b 3 ^^^ rotl8 b 4 ^^^ 0x63

/-- The inverse S-box. -/
def sboxInv (a : Nat) : Nat :=
  ginv (rotl8 a 1 ^^^ rotl8 a 3 ^^^ rotl8 a 6 ^^^ 0x05)

/-- The key expansion of AES-256, newest word first, `n` words still to form from index `i`. -/
def aesExpand : Nat → Nat → Nat → List (List Nat) → List (List Nat)
  | 0, _, _, ws => ws
  | n + 1, i, rcon, ws =>
    let t := nth [] ws 0
    let t' := if i % 8 = 0 then
        let r := (t.drop 1 ++ t.take 1).map sbox
        match r with
        | a :: rest => (a ^^^ rcon) :: rest
        | [] => []
      else if i % 8 = 4 then t.map sbox else t
    aesExpand n (i + 1) (if i % 8 = 0 then xtime rcon else rcon)
      (List.zipWith (· ^^^ ·) (nth [] ws 7) t' :: ws)

/-- The fifteen round keys of 16 bytes. -/
def aesKeys (k : List Byte) : List (List Nat) :=
  let w0 := (chunksOf 4 8 (k.map BitVec.toNat)).reverse
  (chunksOf 4 15 (aesExpand 52 8 1 w0).reverse).map List.flatten

/-- ShiftRows: byte `r + 4c` comes from column `c + r`. -/
def shiftRows (s : List Nat) : List Nat :=
  (List.range 16).map (fun i => nth 0 s ((i + 4 * (i % 4)) % 16))

/-- The inverse of ShiftRows. -/
def shiftRowsInv (s : List Nat) : List Nat :=
  (List.range 16).map (fun i => nth 0 s ((i + 12 * (i % 4)) % 16))

/-- One column through a circulant matrix. -/
def mixCol (m : List Nat) (c : List Nat) : List Nat :=
  (List.range 4).map (fun r =>
    (List.range 4).foldl (fun a j => a ^^^ gmul (nth 0 m ((j + 4 - r) % 4)) (nth 0 c j)) 0)

/-- MixColumns with the circulant row given. -/
def mixCols (m s : List Nat) : List Nat := (chunksOf 4 4 s).flatMap (mixCol m)

/-- XOR of two byte states. -/
def xorN (a b : List Nat) : List Nat := List.zipWith (· ^^^ ·) a b

/-- AES-256 encryption of one block under expanded keys. -/
def aesEncN (ks : List (List Nat)) (blk : List Nat) : List Nat :=
  let s0 := xorN blk (nth [] ks 0)
  let s := ((ks.drop 1).take 13).foldl (fun s k => xorN (mixCols [2, 3, 1, 1] (shiftRows (s.map sbox))) k) s0
  xorN (shiftRows (s.map sbox)) (nth [] ks 14)

/-- AES-256 decryption of one block under expanded keys. -/
def aesDecN (ks : List (List Nat)) (blk : List Nat) : List Nat :=
  let s0 := (shiftRowsInv (xorN blk (nth [] ks 14))).map sboxInv
  let s := ((ks.drop 1).take 13).reverse.foldl
    (fun s k => (shiftRowsInv (mixCols [14, 11, 13, 9] (xorN s k))).map sboxInv) s0
  xorN s (nth [] ks 0)

/-- AES-256 encryption of one 16-byte block. -/
def aesEnc (ks : List (List Nat)) (blk : List Byte) : List Byte :=
  (aesEncN ks (blk.map BitVec.toNat)).map (BitVec.ofNat 8)

/-- AES-256 decryption of one 16-byte block. -/
def aesDec (ks : List (List Nat)) (blk : List Byte) : List Byte :=
  (aesDecN ks (blk.map BitVec.toNat)).map (BitVec.ofNat 8)

/-- XOR of two byte strings, as long as the shorter. -/
def xorB (a b : List Byte) : List Byte := List.zipWith (· ^^^ ·) a b

/-! ### XTS (IEEE 1619) -/

/-- The tweak times α in GF(2¹²⁸), least significant byte first. -/
def xtsNext (t : Nat) : Nat := (2 * t % 2 ^ 128) ^^^ (if 2 ^ 127 ≤ t then 0x87 else 0)

/-- Blocks of a data unit under the tweak `t`, encrypted or decrypted. -/
def xtsBlocks (on : Bool) (ks : List (List Nat)) : Nat → List (List Byte) → List Byte
  | _, [] => []
  | t, b :: bs =>
    let x := xorB b (leBytes 16 t)
    xorB (if on then aesEnc ks x else aesDec ks x) (leBytes 16 t) ++ xtsBlocks on ks (xtsNext t) bs

/-- AES-256-XTS of a data unit of whole blocks under a 64-byte key. -/
def xts (on : Bool) (key : List Byte) (unit : Nat) (m : List Byte) : List Byte :=
  let t := leNat (aesEnc (aesKeys (key.drop 32)) (leBytes 16 unit))
  xtsBlocks on (aesKeys (key.take 32)) t (chunksOf 16 (ceilDiv m.length 16) m)

/-! ### CTR (SP 800-38A) -/

/-- `n` key-stream blocks from a 16-byte counter block whose low `w` bits (big-endian end) increment. -/
def ctrStream (ks : List (List Nat)) (w : Nat) : Nat → Nat → List Byte
  | 0, _ => []
  | n + 1, c => aesEnc ks (beBytes 16 c) ++ ctrStream ks w n (c / 2 ^ w * 2 ^ w + (c + 1) % 2 ^ w)

/-- Counter-mode encryption or decryption under an initial counter block. -/
def aesCtr (key : List Byte) (ctr0 : List Byte) (m : List Byte) : List Byte :=
  xorB m (ctrStream (aesKeys key) 128 (ceilDiv m.length 16) (beNat ctr0))

/-! ### GCM (SP 800-38D) -/

/-- Multiplication in GF(2¹²⁸) of GHASH: bit 127 is the coefficient of 1. -/
def ghMul : Nat → Nat → Nat → Nat → Nat
  | 0, z, _, _ => z
  | n + 1, z, v, y =>
    let z' := if y.testBit n then z ^^^ v else z
    let v' := if v % 2 = 1 then (v / 2) ^^^ (0xe1 * 2 ^ 120) else v / 2
    ghMul n z' v' y

/-- GHASH of a byte string of whole blocks. -/
def ghash (h : Nat) (bs : List Byte) : Nat :=
  (chunksOf 16 (bs.length / 16 + 1) bs).foldl (fun y b => ghMul 128 0 h (y ^^^ beNat b)) 0

/-- Zero padding to whole blocks. -/
def pad16 (bs : List Byte) : List Byte := bs ++ zeros ((16 - bs.length % 16) % 16)

/-- The GCM pre-counter block of an IV. -/
def gcmJ0 (h : Nat) (iv : List Byte) : Nat :=
  if iv.length = 12 then beNat (iv ++ [0#8, 0#8, 0#8, 1#8])
  else ghash h (pad16 iv ++ zeros 8 ++ beBytes 8 (8 * iv.length))

/-- The 16-byte tag of a ciphertext. -/
def gcmTag (ks : List (List Nat)) (iv aad ct : List Byte) : List Byte :=
  let h := beNat (aesEnc ks (zeros 16))
  let s := ghash h (pad16 aad ++ pad16 ct ++ beBytes 8 (8 * aad.length) ++ beBytes 8 (8 * ct.length))
  xorB (beBytes 16 s) (aesEnc ks (beBytes 16 (gcmJ0 h iv)))

/-- The CTR part of GCM, the same for both directions. -/
def gcmCrypt (ks : List (List Nat)) (iv m : List Byte) : List Byte :=
  let h := beNat (aesEnc ks (zeros 16))
  let j0 := gcmJ0 h iv
  xorB m (ctrStream ks 32 (ceilDiv m.length 16) (j0 / 2 ^ 32 * 2 ^ 32 + (j0 + 1) % 2 ^ 32))

/-- AES-256-GCM encryption: ciphertext and 16-byte tag. -/
def gcmEnc (key iv aad m : List Byte) : List Byte × List Byte :=
  let ks := aesKeys key
  let ct := gcmCrypt ks iv m
  (ct, gcmTag ks iv aad ct)

/-- AES-256-GCM decryption under a tag of any truncated length; `none` where the tag does not match. -/
def gcmDec (key iv aad ct tag : List Byte) : Option (List Byte) :=
  let ks := aesKeys key
  if (gcmTag ks iv aad ct).take tag.length == tag then some (gcmCrypt ks iv ct) else none

/-! ### KW (SP 800-38F) -/

/-- The steps of key unwrap, `t` counting down. -/
def kwUnwrapGo (ks : List (List Nat)) (n : Nat) : Nat → List Byte → List (List Byte) → List Byte × List (List Byte)
  | 0, a, rs => (a, rs)
  | t + 1, a, rs =>
    let i := t % n
    let b := aesDec ks (beBytes 8 (beNat a ^^^ (t + 1)) ++ nth [] rs i)
    kwUnwrapGo ks n t (b.take 8) (setNth rs i (b.drop 8))

/-- AES key unwrap: the plaintext, or `none` where the integrity check fails. -/
def kwUnwrap (key wrapped : List Byte) : Option (List Byte) :=
  let n := wrapped.length / 8 - 1
  if wrapped.length % 8 != 0 || n < 2 then none else
  let r := kwUnwrapGo (aesKeys key) n (6 * n) (wrapped.take 8) (chunksOf 8 n (wrapped.drop 8))
  if r.1 == List.replicate 8 0xa6#8 then some r.2.flatten else none

/-- The steps of key wrap. -/
def kwWrapGo (ks : List (List Nat)) (n : Nat) : Nat → Nat → List Byte → List (List Byte) → List Byte × List (List Byte)
  | 0, _, a, rs => (a, rs)
  | k + 1, t, a, rs =>
    let i := t % n
    let b := aesEnc ks (a ++ nth [] rs i)
    kwWrapGo ks n k (t + 1) (beBytes 8 (beNat (b.take 8) ^^^ (t + 1))) (setNth rs i (b.drop 8))

/-- AES key wrap. -/
def kwWrap (key plain : List Byte) : List Byte :=
  let n := plain.length / 8
  let r := kwWrapGo (aesKeys key) n (6 * n) 0 (List.replicate 8 0xa6#8) (chunksOf 8 n plain)
  r.1 ++ r.2.flatten

/-! ### SHAKE128 (FIPS 202) -/

/-- The rotation offset of lane `x + 5y`, rows of x. -/
def keccakRot : List Nat :=
  [0, 1, 62, 28, 27, 36, 44, 6, 55, 20, 3, 10, 43, 25, 39, 41, 45, 15, 21, 8, 18, 2, 61, 56, 14]

/-- The 24 round constants. -/
def keccakRC : List Word :=
  [0x0000000000000001#64, 0x0000000000008082#64, 0x800000000000808A#64, 0x8000000080008000#64, 0x000000000000808B#64, 0x0000000080000001#64,
   0x8000000080008081#64, 0x8000000000008009#64, 0x000000000000008A#64, 0x0000000000000088#64, 0x0000000080008009#64, 0x000000008000000A#64,
   0x000000008000808B#64, 0x800000000000008B#64, 0x8000000000008089#64, 0x8000000000008003#64, 0x8000000000008002#64, 0x8000000000000080#64,
   0x000000000000800A#64, 0x800000008000000A#64, 0x8000000080008081#64, 0x8000000000008080#64, 0x0000000080000001#64, 0x8000000080008008#64]

/-- One round of Keccak-f[1600] on 25 lanes. -/
def keccakRound (a : List Word) (rc : Word) : List Word :=
  let c := (List.range 5).map (fun x =>
    nth 0 a x ^^^ nth 0 a (x + 5) ^^^ nth 0 a (x + 10) ^^^ nth 0 a (x + 15) ^^^ nth 0 a (x + 20))
  let d := (List.range 5).map (fun x => nth 0 c ((x + 4) % 5) ^^^ (nth 0 c ((x + 1) % 5)).rotateLeft 1)
  let t := (List.range 25).map (fun i => nth 0 a i ^^^ nth 0 d (i % 5))
  -- rho and pi: lane (x, y) of the result comes from lane (x + 3y, x)
  let b := (List.range 25).map (fun i =>
    let x := i % 5; let y := i / 5
    let j := (x + 3 * y) % 5 + 5 * x
    (nth 0 t j).rotateLeft (nth 0 keccakRot j))
  let e := (List.range 25).map (fun i =>
    let x := i % 5; let y := i / 5
    nth 0 b i ^^^ (~~~(nth 0 b ((x + 1) % 5 + 5 * y)) &&& nth 0 b ((x + 2) % 5 + 5 * y)))
  match e with
  | h :: t => (h ^^^ rc) :: t
  | [] => []

/-- Keccak-f[1600]. -/
def keccakF (a : List Word) : List Word := keccakRC.foldl keccakRound a

/-- Absorb one 168-byte block. -/
def shakeAbsorb (a : List Word) (blk : List Byte) : List Word :=
  let ws := (chunksOf 8 21 blk).map (fun c => BitVec.ofNat 64 (leNat c))
  keccakF ((List.range 25).map (fun i => nth 0 a i ^^^ nth 0 ws i))

/-- Squeeze `n` blocks of 168 bytes. -/
def shakeSqueeze : Nat → List Word → List Byte
  | 0, _ => []
  | n + 1, a => ((a.take 21).flatMap (fun w => leBytes 8 w.toNat)) ++ shakeSqueeze n (keccakF a)

/-- SHAKE128: `l` bytes of output. -/
def shake128 (m : List Byte) (l : Nat) : List Byte :=
  let z := 168 - m.length % 168
  let pad := if z = 1 then [0x9F#8] else [0x1F#8] ++ zeros (z - 2) ++ [0x80#8]
  let st := (chunksOf 168 (m.length / 168 + 2) (m ++ pad)).foldl shakeAbsorb (List.replicate 25 0#64)
  (shakeSqueeze (ceilDiv l 168) st).take l

end Sys2Proof.Machine
end

