-- ==== Sys2Proof/Machine/QuireState.lean ====
section
/-! DEFINITION. The state of one quire (Table 01.3): streams and their registers, tiles and their headers, scratchpad, instructions
in flight, mailbox, Headbox prefetch streams, role. -/

namespace Sys2Proof.Machine

/-- Stream states (Table 05.1). -/
inductive StreamState where
  | idle
  | running
  | draining
  | faulted
  deriving DecidableEq, Repr

/-- Modulus slot kinds (R114). -/
inductive SlotKind where
  | invalid
  | shift
  | general
  deriving DecidableEq, Repr

/-- A modulus slot (R114): modulus, kind, exponents, −q⁻¹ mod 2⁶⁴ and 2¹²⁸ mod q. -/
structure ModSlot where
  kind : SlotKind := .invalid
  q : Nat := 0
  a : Nat := 0
  b : Nat := 0
  qinv : Nat := 0
  r2 : Nat := 0
  deriving DecidableEq, Repr

/-- The fault a stream records (R164, Table 05.21), with the place of the instruction in program order. -/
structure FaultRec where
  code : Nat
  multi : Bool
  exec : Bool
  maj : Nat
  sub : Nat
  pc : Nat
  seq : Nat
  deriving DecidableEq, Repr

/-- One sequence of an open decode step (R214): the context and what the close with commit applies to it (R215). -/
structure StepEntry where
  ctx : Nat
  inTokens : Nat
  samples : Bool
  drawn : Option Nat
  deriving DecidableEq, Repr

/-- One stream of a quire (R101, R134, R135). -/
structure Stream where
  state : StreamState := .idle
  /-- Program table entry the stream runs. -/
  prog : Nat := 0
  /-- Ring and tracking id of its dispatch descriptor. -/
  ring : Nat := 0
  desc : Nat := 0
  pc : Nat := 0
  /-- X.END has issued. -/
  ending : Bool := false
  /-- Program order of the next instruction. -/
  nextSeq : Nat := 0
  /-- The last dispatch's fault record, kept until the stream next starts (R167). -/
  fault : Option FaultRec := none
  sregs : Tab Word := []
  vregs : Tab VReg := []
  pregs : Tab Pred := []
  mslots : Tab ModSlot := []
  /-- The completion record of the dispatch has been written (R134). -/
  recorded : Bool := false
  /-- The release actions have begun (R137). -/
  leaving : Bool := false
  /-- The open decode step (R212), if the stream holds one. -/
  step : Option (List StepEntry) := none
  /-- The opening instruction that waits at its issue for releases (R70): its program order, and the tiles as (sheet, slot, format). -/
  openWait : Option (Nat × List (Nat × Nat × Nat)) := none
  /-- QPNs whose doorbell word or trigger counter the stream has written, each with the send queue index that its entries must reach
  (R177, SYSTEM). -/
  rung : List (Nat × Nat) := []
  deriving DecidableEq, Repr

/-- An open tile: its header (Table 03.3) and its stored integers, element (i, j) at i × N + j. -/
structure Tile where
  sheet : Nat
  slot : Nat
  fmt : Nat
  shape : Nat
  owner : Nat
  shared : Bool
  terms : Nat := 0
  bound : Bool := false
  ovfPos : Bool := false
  ovfNeg : Bool := false
  nan : Bool := false
  inexact : Bool := false
  res : Nat := 0
  elems : List Int := []
  /-- SHARED as the last opening instruction issued states it (R70). -/
  sharedAt : Bool := false
  /-- A release of the tile has been issued and has not completed (R70). -/
  releasing : Bool := false
  /-- The instruction that opens the tile has been issued and has not completed (R70). -/
  opening : Bool := false
  deriving DecidableEq, Repr

/-- A tile handle (R65). -/
structure Handle where
  sheet : Nat
  slot : Nat
  fmt : Nat
  shape : Nat
  deriving DecidableEq, Repr

/-- The executing parts that hold instructions in flight (Table 04.7). -/
inductive Part where
  | sheet (n : Nat)
  | pipes (fp mod trn xbar : Bool)
  /-- The Beater, for what waits in none of its pipes' queues: V.LD, V.ST, P. and the arithmetic of A. -/
  | beater
  | headbox
  | expander
  | mboxSend
  | mboxRecv
  | sequencer
  deriving DecidableEq, Repr

/-- How far an instruction in flight has come. -/
inductive Phase where
  /-- In its part's dispatch queue, not started (R131). -/
  | queued
  /-- In its part's queue behind an acquire, a scratchpad range or a memory location of an earlier instruction (R46, R173, R175, R180). -/
  | held
  /-- T.MMA: the next pass. -/
  | mma (pass : Nat)
  /-- Waiting for the conditions of a fence or release at a scope (R177); the instruction then acts. -/
  | fence (scope : Nat)
  /-- X.WAIT or X.BAR waiting at the home slice: the entry of `State.waits` that watches for it. -/
  | waiting
  /-- X.SEND sent into the mesh and neither placed nor returned. -/
  | inMesh
  /-- X.RECV waiting for a message. -/
  | receiving
  /-- Waiting in a stalling read of the DRBG, with the 64-byte blocks delivered so far and still wanted (R446). -/
  | drawing (need : Nat) (got : List (List Byte))
  /-- Waiting for the far end of a memory transfer that another command completes. -/
  | transfer
  deriving DecidableEq, Repr

/-- An instruction in flight: its place, its word, the scalar operands read at issue, and what it holds of registers and
scratchpad ranges until it has ended (R130, R46, R180). -/
structure Flight where
  stream : Nat
  seq : Nat
  pc : Nat
  maj : Nat
  sub : Nat
  w : IWord
  vals : List Nat
  part : Part
  phase : Phase
  sWr : List Nat := []
  vRd : List Nat := []
  vWr : List Nat := []
  pRd : List Nat := []
  pWr : List Nat := []
  spRd : List (Nat × Nat) := []
  spWr : List (Nat × Nat) := []
  /-- Deckle-address ranges that a memory operation touches (R173). -/
  mem : List (Nat × Nat) := []
  /-- It is a memory operation, or reads or writes the scratchpad, which an earlier acquire orders (R175, R181). -/
  eff : Bool := false
  /-- Sheet, first slot and format of the tile it names. -/
  tile : Option (Nat × Nat × Nat) := none
  /-- The armed injection that its issue took, with REPEAT (R127). -/
  inj : Option Bool := none
  deriving DecidableEq, Repr

/-- A message held in a mailbox area (R188): header fields of Table 06.5 and the payload. -/
structure Msg where
  quire : Nat
  stream : Nat
  tag : Nat
  bounced : Bool
  epoch : Nat
  /-- The sender's role epoch at the send (R195). -/
  senderEpoch : Nat
  bfault : Bool := false
  /-- Program order of its X.SEND at the sender. -/
  seq : Nat := 0
  payload : List Byte
  deriving DecidableEq, Repr

/-- A Headbox prefetch stream (R326). -/
structure Prefetch where
  stream : Nat
  addr : Nat
  len : Nat
  depth : Nat
  /-- Lines requested so far. -/
  asked : Nat
  /-- Lines consumed so far. -/
  used : Nat
  deriving DecidableEq, Repr

/-- A logical quire: everything a retirement carries to the spare (R516). -/
structure Quire where
  /-- Role code 0 IDLE, 1 SERVE, 2 POLY, 3 AGG and role epoch (R193, R194). -/
  role : Nat := 0
  reject : Bool := false
  epoch : Nat := 0
  /-- QRE_STR_CTL.HOLD. -/
  hold : Nat := 0
  streams : Tab Stream := []
  /-- Scratchpad bytes that are not zero (2 MiB, R25). -/
  spad : Tab Byte := []
  /-- Scratchpad 8-byte words held poisoned (R493). -/
  spadPoison : List Nat := []
  handles : Tab Handle := []
  tiles : List Tile := []
  /-- Instructions in flight, in issue order. -/
  flights : List Flight := []
  /-- Pipes whose occupancy of more than one cycle has not ended: FP, MOD, TRN, XBAR as bits 0–3. -/
  pipeBusy : Nat := 0
  /-- The stream a sheet served last (R49). -/
  lastServed : Tab Nat := []
  arrivals : List Msg := []
  returns : List Msg := []
  bounced : Nat := 0
  dropped : Nat := 0
  prefetch : Tab Prefetch := []
  /-- Upset cells not yet read (R493). -/
  upsets : List StoreUpset := []
  /-- Upsets of paths not yet met. -/
  strikes : List PathUpset := []
  /-- The P.BOOT that holds the quire's polynomial engine: its quire, stream and program order (R263). -/
  polyHeld : Option (Nat × Nat × Nat) := none
  deriving DecidableEq, Repr

/-- A message in the mesh (R189–R195): forward to its destination, or a return to its sender. -/
structure MeshMsg where
  /-- The sender and the quire the message names, also for a return. -/
  src : Nat
  dst : Nat
  /-- Refused and waiting 64 FCLK cycles before it is sent again. -/
  refused : Bool := false
  isReturn : Bool := false
  msg : Msg
  deriving DecidableEq, Repr

/-- A wait held at a home slice (R186, R187): the stream, the counter or GEN word, its condition, and the value that met it. -/
structure Wait where
  quire : Nat
  stream : Nat
  seq : Nat
  dpa : Nat
  /-- Bytes of the word watched. -/
  width : Nat := 8
  /-- X.BAR: wait for a value other than `target`; X.WAIT: `cmpEq` picks equality over unsigned at-least. -/
  isBar : Bool
  cmpEq : Bool
  target : Nat
  last : Nat
  met : Option Nat := none
  deriving DecidableEq, Repr

end Sys2Proof.Machine
end

