-- ==== Sys2Proof/Machine/DeviceState.lean ====
section
/-! DEFINITION. The state outside the quires: memory and translation, work rings and DMA, deckles and keys, entropy and DRBGs,
events, clocks. -/

namespace Sys2Proof.Machine

/-! ### Memory system -/

/-- What a protected range protects (R317): the declaring rule's own kind. -/
inductive ProtKind where
  | program
  | pool
  | basis
  | key
  | session
  | inbox
  | aggResult
  | xlt
  deriving DecidableEq, Repr

/-- A protection-table entry: a range of deckle addresses. -/
structure Prot where
  kind : ProtKind
  /-- A deckle address; for the translation area, whose frames need no mapping, a DPA. -/
  base : Nat
  len : Nat
  /-- The inbox of an RLWE session (R304). -/
  rlwe : Bool := false
  deriving DecidableEq, Repr

/-- Who makes an access (R170, R316). -/
inductive Agent where
  /-- X. atomics and D.PREF of a stream. -/
  | stream
  /-- S.LD and S.ST, through the L1 data cache of a physical quire. -/
  | l1 (p : Nat)
  /-- The device-memory side of D.COPY. -/
  | dcopy
  /-- The device-memory side of D.MLOAD. -/
  | mload
  /-- Instruction fetch, through the L1 data cache of a physical quire. -/
  | fetch (p : Nat)
  /-- Tagged P. instructions and their requests. -/
  | poly
  /-- A. instructions. -/
  | agg
  /-- C. instructions and the context-table agent. -/
  | ctx
  /-- Host DMA: LOAD, DMA, MLOAD, SUBMIT and MODEL_LOAD. -/
  | hostDma
  | bar2
  | izkai
  /-- The swap engine (R221). -/
  | swap
  /-- The device's own tables; no range forbids it. -/
  | engine
  deriving DecidableEq, Repr

/-- A line of a Stock cache slice (R321): its home follows from its address (R311).  The L1 data caches hold nothing that their slice does
not. -/
structure CacheLine where
  /-- DPA of the 128-byte line. -/
  base : Nat
  /-- In SEALED mode a line of H0 is held for one deckle, this one plus 1 (R324); 0 otherwise. -/
  dk : Nat
  way : Nat
  dirty : Bool
  /-- The physical quires whose L1 holds the line, and the one that holds it modified (R323). -/
  l1 : List Nat := []
  l1Mod : Option Nat := none
  deriving DecidableEq, Repr

/-- Device memory: bytes that are not zero, poisoned code words, byte errors waiting in code words, frame map (R309). -/
structure Dram where
  data : Tab Byte := []
  /-- Base DPA of every poisoned code word (R332). -/
  poison : List Nat := []
  /-- Errors that the next read of a code word meets: (position, XOR value) pairs (R342). -/
  errors : Tab (List (Nat × Nat)) := []
  /-- The lines that the Stock cache holds; `data` and `poison` are what every agent sees (R171). -/
  cache : List CacheLine := []
  /-- What DRAM holds for a code word of a clean line where that is not what the line holds. -/
  under : Tab (List Byte) := []
  /-- The 15 tree bits of the sets that have been used, by slice × 1,536 + set. -/
  plru : Tab Nat := []
  /-- Upset cells of the caches, their tags, check lines, flits and handlers' state, not yet read (R493, R510). -/
  upsets : List CellUpset := []
  /-- FRESH frames as ranges of frame numbers (first, count). -/
  fresh : List (Nat × Nat) := []
  /-- MAPPED frames as ranges of frame numbers. -/
  mapped : List (Nat × Nat) := []
  /-- Owner of each granule as deckle + 1 (MEM_GOWN index), 0 where it is free. -/
  owner : Tab Nat := []
  deriving DecidableEq, Repr

/-- Leaky bucket of one frame at a controller (R514). -/
structure FrameBucket where
  frame : Nat
  level : Nat
  deriving DecidableEq, Repr

/-- A memory controller: next scrub word, pending repairs, frame buckets. -/
structure Controller where
  /-- The next code word of the patrol scrub, in controller-local order (R338). -/
  scrubPos : Nat := 0
  /-- Passes completed. -/
  passes : Nat := 0
  pprSoft : Option Nat := none
  pendingHard : List Nat := []
  buckets : List FrameBucket := []
  /-- The check lines in the buffer of an LPDDR5X controller, oldest first (Table 11.6). -/
  checkBuf : List Nat := []
  deriving DecidableEq, Repr

/-- A zero request (R320): a zero engine carries it, or it waits for one under a key of 8 or more; its DPA ranges. -/
structure ZeroReq where
  ranges : List (Nat × Nat)
  /-- Why: 1 session release, 2 A.OPEN (each with the session in `arg`), 3 RECLAIM, 4 the erase of a deckle's whole memory (each with
  the deckle in `arg`). -/
  why : Nat
  arg : Nat
  deriving DecidableEq, Repr

/-! ### Host interface -/

/-- Ring states (Table 12.4). -/
inductive RingState where
  | disabled
  | active
  | draining
  | halted
  deriving DecidableEq, Repr

/-- A tracked descriptor (R357): its 64 bytes, the deckle it acts for, and how far it has come. -/
structure Desc where
  id : Nat
  bytes : List Byte
  deckle : Nat
  version : Nat
  started : Bool := false
  /-- The order in which the device's descriptors started (R366). -/
  order : Nat := 0
  /-- Started and taken by its engine: it ends by a later command. -/
  busy : Bool := false
  /-- The DPA ranges that an XLT_UNMAP has removed and whose accesses it still waits for (R315). -/
  drain : List (Nat × Nat) := []
  /-- A DISPATCH cancelled by tenant removal or reset: its record is not written by the stream. -/
  dropped : Bool := false
  deriving DecidableEq, Repr

/-- A work ring and its completion ring (Tables 12.4, 12.10). -/
structure Ring where
  state : RingState := .disabled
  reason : Nat := 0
  vsel : Nat := 0
  pi : Nat := 0
  ci : Nat := 0
  cqPi : Nat := 0
  cqHead : Nat := 0
  /-- Completion slots reserved for tracked descriptors. -/
  tracked : List Desc := []
  /-- Records written since the ring last signalled (R365). -/
  unsignalled : Nat := 0
  deriving DecidableEq, Repr

/-- A record with no reserved slot waiting in the device-wide record queue (R360). -/
structure QueuedRec where
  ring : Nat
  body : List Byte
  deriving DecidableEq, Repr

/-- An open measured object (R368, R160): its ring, or the stream side with `none`. -/
structure Measured where
  deckle : Nat
  obj : Nat
  ring : Option Nat
  bytes : List Byte
  deriving DecidableEq, Repr

/-- TDI states (R372). -/
inductive Tdi where
  | unlocked
  | locked
  | run
  | error
  deriving DecidableEq, Repr

/-- One PCIe function: TDI, MSI-X state, host channels. -/
structure Function where
  tdi : Tdi := .unlocked
  msixEnable : Bool := false
  /-- Vectors whose mask bit is clear: a reset masks every vector (PRESUMED, PCIe; log entry 23). -/
  unmasked : List Nat := []
  pendingVec : List Nat := []
  busMaster : Bool := false
  ats : Bool := false
  /-- The halves of BAR0 and BAR2 (0–3), and at 8 above those of the PF's SR-IOV capability. -/
  bars : Tab Nat := []
  /-- Device Control: Relaxed Ordering enabled, 128-byte payloads, 512-byte reads (PRESUMED, PCIe). -/
  devCtl : Nat := 0x2010
  d3hot : Bool := false
  /-- AER uncorrectable error status (PRESUMED, PCIe's bit numbers). -/
  aer : Nat := 0
  deriving DecidableEq, Repr

/-- An SPDM session (R369): the exchange has been answered, it is finished, its keys. -/
structure SpdmSession where
  answered : Bool := false
  finished : Bool := false
  reqKey : List Byte := []
  rspKey : List Byte := []
  deriving DecidableEq, Repr

/-- The capabilities of Table 12.9. -/
inductive SpdmCap where
  | pskWithContext
  | measNoSignature
  | encrypt
  | mac
  | keyUpdate
  | heartbeat
  | chunk
  deriving DecidableEq, Repr

/-- ERROR responses: those the manual names, and one whose code it does not give. -/
inductive SpdmErr where
  | invalidRequest
  | unsupportedRequest
  | sessionLimitExceeded
  | unspecified
  /-- The response is too large for the DOE transfer and is fetched by CHUNK_GET under this handle. -/
  | largeResponse (handle : Nat)
  | other (code : Nat)
  deriving DecidableEq, Repr

/-- TDISP errors. -/
inductive TdispErr where
  | invalidDeviceConfiguration
  | invalidInterface
  | invalidInterfaceState
  deriving DecidableEq, Repr

/-- SPDM responses, IDE_KM and TDISP responses among them. -/
inductive SpdmRsp where
  | error (e : SpdmErr)
  | version (versions : List Nat)
  | capabilities (caps : List SpdmCap)
  | algorithms
  | pskExchange (sess : Nat) (context : List Byte)
  | pskFinish (sess : Nat)
  | heartbeat (sess : Nat)
  | keyUpdate (sess : Nat)
  | endSession (sess : Nat)
  /-- How many measurement blocks there are. -/
  | blockCount (sess n : Nat)
  /-- The Watermark report. -/
  | report (sess : Nat) (data : List Byte)
  | chunkSendAck (handle seq : Nat)
  | chunk (handle seq : Nat) (last : Bool) (data : List Byte)
  | keyProg (stream keySet : Nat)
  | kSetGo (stream keySet : Nat)
  | kSetStop (stream keySet : Nat)
  /-- Streams with their secure state and key set in use. -/
  | ideQuery (streams : List (Nat × Bool × Nat))
  | tdispVersion (version : Nat)
  | tdispCapabilities (caps : Nat)
  | tdispLocked (vf : Nat) (nonce : List Byte)
  /-- BAR numbers that are TEE ranges, whole. -/
  | tdispReport (vf : Nat) (teeBars : List Nat)
  | tdispState (vf : Nat) (tdi : Nat)
  | tdispStarted (vf : Nat)
  | tdispStopped (vf : Nat)
  | tdispError (vf : Nat) (e : TdispErr)
  deriving DecidableEq, Repr

/-- An IDE stream (R371): keys of the two key sets, whether a set is in use, the function it carries. -/
structure IdeStream where
  fn : Nat
  keys : Tab (List Byte) := []
  secure : Bool := false
  keySet : Nat := 0
  deriving DecidableEq, Repr

/-! ### Deckles -/

/-- Phases of a deckle (Table 16.11). -/
inductive DeckPhase where
  | none
  | active
  | draining
  | scrubbing
  | erasing
  | creating
  deriving DecidableEq, Repr

/-- A loaded program (R133, R140). -/
structure Program where
  gen : Nat
  live : Bool
  base : Nat := 0
  size : Nat := 0
  codeOff : Nat := 0
  codeSize : Nat := 0
  constOff : Nat := 0
  constSize : Nat := 0
  features : Nat := 0
  vminor : Nat := 0
  streams : Nat := 0
  spadBytes : Nat := 0
  entries : List Nat := []
  digest : List Byte := []
  deriving DecidableEq, Repr

/-- An entry of the measurement list (R472): kind 1 program, 2 model, 3 object, 4 session; its number and its bytes in the
report. -/
structure Measure where
  kind : Nat
  num : Nat
  body : List Byte
  deriving DecidableEq, Repr

/-- A partition transport key slot: the key and its send counter of each port (R464, R388). -/
structure KeySlot where
  key : List Byte
  ctrs : Tab Nat := []
  deriving DecidableEq, Repr

/-- A deckle (R28, R475–R480). -/
structure Deckle where
  phase : DeckPhase := .none
  lastOp : Nat := 0
  result : Nat := 0
  groups : Nat := 0
  ways : Nat := 0
  erase : Nat := 0
  memgen : Nat := 0
  mek : Option (List Byte) := none
  ptkWords : Tab Word32 := []
  ptk : Tab KeySlot := []
  programs : Tab Program := []
  measures : List Measure := []
  prot : List Prot := []
  /-- Allocated table units of the translation area: (DPA, bytes). -/
  tables : List (Nat × Nat) := []
  /-- The removal in progress began at this TSC. -/
  t0 : Nat := 0
  /-- When PTK_AUTH was last raised (R388). -/
  authAt : Option Nat := none
  deriving DecidableEq, Repr

/-! ### Entropy and DRBGs -/

/-- Source states (Table 15.2). -/
inductive SrcState where
  | startup
  | operating
  | disabled
  deriving DecidableEq, Repr

/-- A noise source with its health tests and conditioner (R430–R435). -/
structure Source where
  state : SrcState := .startup
  startFails : Nat := 0
  /-- Samples passed since STARTUP began. -/
  passed : Nat := 0
  /-- Repetition count: last sample and its run length. -/
  last : Nat := 0
  run : Nat := 0
  /-- Adaptive proportion window: first sample, samples seen, matches. -/
  winFirst : Nat := 0
  winLen : Nat := 0
  winHits : Nat := 0
  /-- The partly filled conditioning block, oldest sample first. -/
  block : List Nat := []
  /-- Source blocks held until their window passes. -/
  held : List (List Byte) := []
  /-- Vouched source blocks not yet combined. -/
  vouched : List (List Byte) := []
  /-- An injected adaptive proportion failure runs in the present window (R449). -/
  forced : Bool := false
  deriving DecidableEq, Repr

/-- Kinds of noise source (Table 15.1); `none` is code 3. -/
inductive Kind where
  | t
  | o
  | m
  | none
  deriving DecidableEq, Repr

/-- A consumer group (R436–R439). -/
structure Group where
  ka : Kind
  kb : Kind
  sb : Kind
  borrow : Option Nat := none
  /-- Which O source supplies the next block. -/
  oNext : Nat := 0
  /-- Whose turn a combined block of this lender is (R439). -/
  turn : Nat := 0
  /-- Kinds that have been usable since the reset, and kinds that have since stopped being usable, T, O, M as bits 0–2. -/
  seen : Nat := 0
  lost : Nat := 0
  deriving DecidableEq, Repr

/-- Who asked a DRBG instance for a block (R445). -/
inductive Consumer where
  | stream (q st seq : Nat)
  | window (fn : Nat)
  | agent (tag arg : Nat)
  deriving DecidableEq, Repr

/-- What an edge agent does with the block it asked for. -/
inductive RngUse where
  | none
  /-- MR_REG of deckle d (R397). -/
  | mrKey (d : Nat)
  /-- A Pliac HELLO in session slot (R549). -/
  | hello (slot : Nat)
  /-- A PSK exchange (R369). -/
  | psk
  deriving DecidableEq, Repr

/-- A standing request for one 64-byte block. -/
structure RngReq where
  who : Consumer
  use : RngUse := .none
  deriving DecidableEq, Repr

/-- A CTR_DRBG instance (R441–R443). -/
structure Drbg where
  ready : Bool := false
  stopped : Bool := false
  key : List Byte := []
  v : Nat := 0
  count : Nat := 0
  /-- Combined blocks, oldest first, at most four (R437). -/
  seeds : List (List Byte) := []
  /-- Requests for one block each, in the order of their turns (R445). -/
  queue : List RngReq := []
  deriving DecidableEq, Repr

/-! ### Events and outputs -/

/-- An event on its way to, or held in, the collector (Table 17.4). -/
structure Event where
  sev : Nat
  block : Nat
  inst : Nat
  code : Nat
  dk : Option Nat := none
  nested : Bool := false
  escalated : Bool := false
  addr : Option Nat := none
  /-- ADDR is an index rather than a DPA. -/
  addrIx : Bool := false
  info : Nat := 0
  /-- The bits of INFO that no copy shows in SEALED mode (R501). -/
  hide : Nat := 0
  time : Nat := 0
  seq : Nat := 0
  /-- It wrote QRE_ERR_NEXT of its instance, which takes its number (R506). -/
  toNext : Bool := false
  /-- Destinations still to serve: 0 the PF, n VF n. -/
  dests : List Nat := []
  deriving DecidableEq, Repr

/-- Something the block sends to the outside. -/
inductive Output where
  | msix (fn vector : Nat)
  /-- A completion of a read: data, or poisoned data. -/
  | readData (fn : Nat) (data : List Byte) (poisoned : Bool)
  /-- A configuration completion: data, or Retry Status. -/
  | config (fn : Nat) (data : Option Nat)
  | spdm (r : SpdmRsp)
  | frame (port : Nat) (data : List Byte)
  | pfc (port : Nat) (classes : Nat) (quanta : Nat)
  | datagram (dstMac dstIp dstPort : Nat) (data : List Byte)
  /-- An ICMPv6 reply. -/
  | icmp (dstMac dstIp : Nat) (type : Nat) (data : List Byte)
  | smbus (data : List Byte)
  | smbusNack
  | tap (data : List Byte)
  deriving DecidableEq, Repr

/-- The profile a pending half of a log clear carries (R59): register address, half, function. -/
structure HalfClear where
  addr : Nat
  upper : Bool
  fn : Nat
  deriving DecidableEq, Repr

/-- An upper half latched by a read of the lower (R593). -/
structure Latch where
  addr : Nat
  fn : Nat
  value : Word32
  deriving DecidableEq, Repr

/-- The PLLs of a main domain (R412–R415). -/
structure Domain where
  onStandby : Bool := false
  primLocked : Bool := true
  stbyLocked : Bool := true
  deriving DecidableEq, Repr

/-- A physical quire (R23, R516–R520). -/
structure Phys where
  /-- Logical number, if it holds one. -/
  logical : Option Nat := none
  retired : Bool := false
  fenced : Bool := false
  partner : Nat := 0xFF
  busy : Bool := false
  result : Nat := 0
  /-- The handling window is open (R506). -/
  winOpen : Bool := false
  /-- Spare lines used per bank (R520). -/
  sparedLines : Tab Nat := []
  /-- SPD_SPARE_OUT has been raised for these banks. -/
  spareOut : List Nat := []
  /-- ACLK doubling under a droop (R533). -/
  droop : Bool := false
  /-- ACLK cycles not yet counted in RUNCYC, in 1/200 of a cycle (R597). -/
  cycles : Nat := 0
  deriving DecidableEq, Repr

end Sys2Proof.Machine
end

