-- ==== Sys2Proof/Machine/EdgeState.lean ====
section
/-! DEFINITION. The state of the edge agents: Izkai ports and queue pairs, the Pliac management agent, power and thermal control,
pins, clocks, boot and flash, aggregation sessions. -/

namespace Sys2Proof.Machine

/-! ### Izkai -/

/-- An Izkai packet: the header of Table 13.3 and its payload. -/
structure Pkt where
  ver : Nat := 3
  op : Nat := 0
  flags : Nat := 0
  path : Nat := 0
  dqpn : Nat := 0
  psn : Nat := 0
  msn : Nat := 0
  rkey : Nat := 0
  rsn : Nat := 0
  va : Nat := 0
  offset : Nat := 0
  mlen : Nat := 0
  imm : Nat := 0
  payload : List Byte := []
  /-- Bytes of the frame that carried it. -/
  size : Nat := 0
  /-- The priority its port classified that frame into (R380). -/
  prio : Nat := 0
  deriving DecidableEq, Repr

/-- A packet that its port cannot send now: the queue pair's deckle, SNODE and path entry as the packet was made. -/
structure TxPkt where
  deckle : Option Nat
  snode : Nat
  entry : List Byte
  pkt : Pkt
  /-- The queue pair that sends it, where one does. -/
  qp : Option Nat := none
  deriving DecidableEq, Repr

/-- A link key slot (R387): transmit and receive keys, salt, next PN to send, and the highest PN accepted plus one. -/
structure LinkKey where
  tx : List Byte
  rx : List Byte
  salt : List Byte
  pn : Nat := 0
  seen : Nat := 0
  deriving DecidableEq, Repr

/-- Port states (Table 13.1). -/
inductive PortSt where
  | disabled
  | training
  | negotiate
  | up
  deriving DecidableEq, Repr

/-- An Izkai port. -/
structure Port where
  state : PortSt := .disabled
  /-- 0 eight lanes, 1 four, 2 two. -/
  width : Nat := 0
  lanes : Nat := 0
  /-- Lanes excluded by retraining (R379). -/
  excluded : Nat := 0
  vsel : Nat := 0
  keys : Tab LinkKey := []
  /-- Priorities paused by the peer (R380). -/
  paused : Nat := 0
  helloSent : Bool := false
  /-- Versions the peer's HELLO offered, bits 0 and 1 for 2 and 3. -/
  helloSeen : Option Nat := none
  /-- The port has been UP since ENABLE was last written 1, so `width` is a width to degrade from. -/
  wasUp : Bool := false
  /-- The port left UP and LINK_HOLD runs (R379). -/
  holding : Bool := false
  /-- A training has ended on less than eight lanes since ENABLE was last written 1 (R379). -/
  narrowed : Bool := false
  /-- Priorities whose present pause has raised PFC_STORM. -/
  stormed : Nat := 0
  /-- XOFF has been sent and no XON since. -/
  xoff : Bool := false
  /-- Times of the latest LAUTH failures, newest first, since LINK_AUTH was last raised; at most 1,024. -/
  authTimes : List Nat := []
  /-- Packets that wait for the port, a priority or a key, oldest first. -/
  txq : List TxPkt := []
  /-- Received packets that passed R385 and wait for their own step. -/
  inbox : List Pkt := []
  /-- Free-running start of the round-robin of credit service (R399). -/
  creditTurn : Nat := 0
  deriving DecidableEq, Repr

/-- One path of a queue pair (R401): both directions. -/
structure Path where
  nextPsn : Nat := 0
  unacked : List Pkt := []
  retries : Nat := 0
  /-- The path waits RNR_DELAY (R403). -/
  rnrWait : Bool := false
  expect : Nat := 0
  /-- The PSN that is missing, where a NAK SEQ has been sent for its gap. -/
  gap : Option Nat := none
  /-- Packets taken since the last ACK. -/
  sinceAck : Nat := 0
  deriving DecidableEq, Repr

/-- An admitted inbound message (R398), or a READ response being received. -/
structure MsgCtx where
  msn : Nat
  op : Nat
  /-- Registration index it was admitted under. -/
  mr : Nat
  /-- Deckle address of its byte 0. -/
  base : Nat
  mlen : Nat
  placed : Nat := 0
  /-- The LAST packet has arrived: IMM and RSN it carried. -/
  last : Option (Nat × Nat) := none
  rsn : Nat := 0
  /-- Every byte is placed and only earlier messages hold it back (R396). -/
  whole : Bool := false
  deriving DecidableEq, Repr

/-- A started send queue entry (R394). -/
structure SendEnt where
  index : Nat
  entry : List Byte
  msn : Nat
  /-- Packets not yet transmitted. -/
  unsent : List Pkt := []
  /-- READ: bytes performed locally, and whether a response packet has come. -/
  placed : Nat := 0
  answered : Bool := false
  /-- Registration of its LKEY. -/
  mr : Nat
  rnr : Nat := 0
  deriving DecidableEq, Repr

/-- A READ response being sent by the responder. -/
structure ReadOut where
  msn : Nat
  mr : Nat
  unsent : List Pkt
  deriving DecidableEq, Repr

/-- Queue-pair states (Table 13.7). -/
inductive QpSt where
  | free
  | reset
  | init
  | rtr
  | rts
  | error
  deriving DecidableEq, Repr

/-- The fields of a context block (Table 13.6). -/
structure QpCtx where
  port : Nat := 0
  npaths : Nat := 1
  logmtu : Nat := 10
  peer : Nat := 0
  sq : Nat := 0
  sqLog : Nat := 4
  rqLog : Nat := 0
  scq : Nat := 0
  rcq : Nat := 0
  rq : Nat := 0
  db : Nat := 0
  rxCtr : Nat := 0
  initCredit : Nat := 1
  snode : Nat := 0
  paths : List (List Byte) := []
  deriving DecidableEq, Repr

/-- A queue pair (R389–R407). -/
structure Qp where
  state : QpSt := .free
  gen : Nat := 0
  deckle : Nat := 0
  ctx : QpCtx := {}
  flushed : Bool := false
  cause : Nat := 0
  sqPi : Nat := 0
  sqCi : Nat := 0
  /-- The next send queue entry to start. -/
  sqNext : Nat := 0
  rqPi : Nat := 0
  rqCi : Nat := 0
  paths : Tab Path := []
  /-- Next path of the round-robin (R404). -/
  turn : Nat := 0
  sent : Nat := 0
  /-- CL received from the peer and CL granted to it, modulo 2²⁴. -/
  limit : Nat := 0
  granted : Nat := 0
  /-- Data packets received since RTR. -/
  got : Nat := 0
  /-- Packets the peer asked credit for. -/
  wanted : Nat := 0
  txMsn : Nat := 0
  txRsn : Nat := 0
  /-- Oldest incomplete inbound MSN and the next RSN to complete. -/
  rxMsn : Nat := 0
  rxRsn : Nat := 0
  started : List SendEnt := []
  msgs : List MsgCtx := []
  reads : List ReadOut := []
  /-- When CREDIT_REQ was last sent. -/
  askedAt : Option Nat := none
  /-- Status of the next entry that is flushed, where a TERMINATE found none (R407). -/
  owes : Nat := 0
  /-- Receive records of complete messages that wait for their RSN's turn (R396). -/
  recvDone : List (Nat × List Byte) := []
  deriving DecidableEq, Repr

/-- A completion queue (R395). -/
structure Cq where
  deckle : Nat
  base : Nat
  log : Nat
  head : Nat
  ctr : Nat
  irqen : Bool
  vector : Nat
  pi : Nat := 0
  /-- The head index as last read. -/
  seen : Nat := 0
  overrun : Bool := false
  deriving DecidableEq, Repr

/-- A memory registration (R397). -/
structure Mr where
  deckle : Nat
  base : Nat
  len : Nat
  rights : Nat
  gen : Nat
  rand : Nat
  revoked : Bool := false
  live : Bool := true
  /-- Its 8 random bits have been drawn. -/
  ready : Bool := false
  deriving DecidableEq, Repr

/-! ### Aggregation -/

/-- Session states (Table 10.3); `opening` is A.OPEN waiting for its log key (R282), and reads as FREE. -/
inductive SesSt where
  | opening
  | opn
  | finalising
  | broken
  | releasing
  deriving DecidableEq, Repr

/-- A transaction slot (R297): its identifier, and its list of identities and partial sum lie in the STAGE part of the area. -/
structure TxSlot where
  ident : Nat
  count : Nat := 0
  /-- Largest NOISE and whether any contribution was EXHAUSTED (R299). -/
  noise : Nat := 0
  exhausted : Bool := false
  deriving DecidableEq, Repr

/-- A session (R279–R303). -/
structure Session where
  state : SesSt
  deckle : Nat
  typ : Nat := 0
  noise : Bool := false
  expose : Bool := false
  txslots : Nat := 0
  elements : Nat := 0
  maxid : Nat := 0
  txids : Nat := 0
  mincount : Nat := 0
  nonce : List Byte := []
  q : Nat := 0
  basis : Nat := 0
  level : Nat := 0
  scale : Nat := 0
  keyset : Nat := 0
  snum : Nat := 0
  sden : Nat := 0
  area : Nat := 0
  areaSize : Nat := 0
  inbox : Nat := 0
  inboxSize : Nat := 0
  logKey : List Byte := []
  count : Nat := 0
  retracted : Nat := 0
  maxNoise : Nat := 0
  exhausted : Bool := false
  slots : Tab TxSlot := []
  /-- Destination of the A.FINAL in progress. -/
  dst : Nat := 0
  /-- RLWE: the moduli, LOGN and ciphertext kind of the basis as A.OPEN found it. -/
  mods : List Nat := []
  logn : Nat := 0
  ckind : Nat := 0
  deriving DecidableEq, Repr

/-! ### Pliac -/

/-- A Pliac request being executed: its source, its header's SEQ and VER, its command and body. -/
structure PReq where
  srcMac : Nat
  srcIp : Nat
  srcPort : Nat
  ver : Nat
  cmd : Nat
  seq : Nat
  body : List Byte
  /-- The request has begun and ends by another command. -/
  begun : Bool := false
  deriving DecidableEq, Repr

/-- An event subscription (R557). -/
structure Subscr where
  mask : Nat
  /-- Records not yet sent, oldest first. -/
  buffer : List (List Byte) := []
  /-- Messages sent and not acknowledged: SEQ and body. -/
  sent : List (Nat × List Byte) := []
  /-- Records held by the messages of `sent`. -/
  heldRecs : Nat := 0
  next : Nat := 1
  lost : Nat := 0
  deriving DecidableEq, Repr

/-- A Pliac session of a credential slot (R549): role 0–3 and index give the slot number 4 × role + index, 12 the transport key. -/
structure PSession where
  sid : List Byte
  key : List Byte
  ver : Nat
  seq : Nat := 0
  cached : List Byte := []
  exec : Option PReq := none
  /-- The report held (R555): nonce and bytes. -/
  report : Option (List Byte × List Byte) := none
  sub : Option Subscr := none
  srcMac : Nat := 0
  srcIp : Nat := 0
  srcPort : Nat := 0
  deriving DecidableEq, Repr

/-- Staging states (Table 19.5). -/
inductive StageSt where
  | idle
  | erasing
  | opn
  | verifying
  | live
  | pend
  | failed
  deriving DecidableEq, Repr

/-- Image staging (R556). -/
structure Staging where
  state : StageSt := .idle
  holder : Nat := 0
  size : Nat := 0
  written : Nat := 0
  data : Tab Byte := []
  deriving DecidableEq, Repr

/-- The management agent. -/
structure Mgt where
  link : Bool := false
  sessions : Tab PSession := []
  /-- A HELLO waiting for its draw, by slot, with the credential key it is answered under. -/
  hellos : Tab PReq := []
  staging : Staging := {}
  deriving DecidableEq, Repr

/-! ### Flash and boot -/

/-- What the device keeps of a device image (Table 16.5). -/
structure ImageInfo where
  size : Nat := 4096
  seq : Nat := 0
  svn : Nat := 0
  vkey : Nat := 0
  /-- SHA-256 of VPUB. -/
  vpubDigest : List Byte := []
  /-- Digests of the VOLTAGE, SERDES, PLYLIB and PLIAC sections. -/
  digests : List (List Byte) := []
  digest : List Byte := []
  /-- Fields, sections and signature are as R466 requires, apart from the fuses' part. -/
  sound : Bool := true
  deriving DecidableEq, Repr

/-- A boot record (R462) or a credential record (R547) that its check accepts. -/
structure BootRec where
  count : Nat
  bootcnt : Nat
  active : Nat
  deriving DecidableEq, Repr

/-- The credential record: COUNT and the filled slots. -/
structure CredRec where
  count : Nat
  slots : Tab (List Byte)
  deriving DecidableEq, Repr

/-- A flash bank. -/
structure Bank where
  image : Option ImageInfo := none
  boot : Option BootRec := none
  creds : Option CredRec := none
  deriving DecidableEq, Repr

/-! ### Platform -/

/-- An input filter (R583–R585). Levels are "asserted", or high for a strap. -/
structure Pin where
  /-- The raw level. -/
  raw : Bool := false
  /-- The level the glitch filter holds. -/
  out : Bool := false
  /-- Times of the raw edges of the last 100 µs. -/
  edges : List Nat := []
  /-- The toggle force holds. -/
  forced : Bool := false
  /-- PIN_HELD has been raised for the present assertion. -/
  held : Bool := false
  deriving DecidableEq, Repr

/-- The filter's output: asserted while forced (R584). -/
def Pin.asserted (x : Pin) : Bool := x.forced || x.out

/-- Power and thermal control. -/
structure Power where
  /-- The input is within its range (R525). -/
  input : Bool := true
  /-- The rails are on. -/
  rails : Bool := true
  /-- SHUTDN_N has been asserted and the rails go off at SHUTDOWN_RAILS_OFF. -/
  stopping : Bool := false
  /-- THERMTRIP_N latched (R537). -/
  tripped : Bool := false
  l : Nat := 0
  /-- The temperature limit's present position. -/
  lTemp : Nat := 43
  tableMax : Nat := 0
  calstep : Nat := 36
  /-- Input power samples in mW, newest first, at most 100,000. -/
  samples : List Nat := []
  /-- INPUT_SAMPLE steps since reset. -/
  ticks : Nat := 0
  /-- SENSOR_READ steps since reset. -/
  reads : Nat := 0
  /-- VIN_RANGE holds. -/
  vinOdd : Bool := false
  /-- A guarded excursion or a peak is in progress. -/
  excursion : Bool := false
  peak : Bool := false
  /-- The cap loop asked for its last reduction and has not yet allowed a rise. -/
  capped : Bool := false
  /-- Doubled ACLK cycles not yet counted in STRETCH, in 1/200 of a cycle (R533). -/
  stretch : Nat := 0
  temps : List Nat := []
  /-- Classes (die, HBM3E, LPDDR5X, SerDes, regulators as bits) above WARN and CRIT. -/
  warned : Nat := 0
  crit : Nat := 0
  deriving DecidableEq, Repr

/-- Clocks: main domains 0–11, references present, TSC fraction. -/
structure Clk where
  domains : Tab Domain := []
  /-- References lost: 0 PCIE, 1 CORE, 2 SYS, 3 MGMT. -/
  lost : List Nat := []
  frac : Nat := 0
  /-- Step of ACLK in force (R417). -/
  aclk : Nat := 0
  deriving DecidableEq, Repr

/-- Boot: straps as sampled, how far the boot came. -/
structure Boot where
  /-- PERST_N holds the device, or the rails are off. -/
  held : Bool := true
  ready : Bool := false
  step : Nat := 0
  stopped : Nat := 0
  mgmtEn : Bool := false
  jtagEn : Bool := false
  pcieUp : Bool := false
  /-- PCIe lanes that have failed, and the width the link runs at (R521). -/
  badLanes : Nat := 0
  width : Nat := 16
  /-- Fuses have been read by the boot ROM (R559). -/
  fusesRead : Bool := false
  running : Option ImageInfo := none
  bank : Nat := 0
  bootcnt : Nat := 0
  wmkPub : List Byte := []
  idkPub : List Byte := []
  /-- Controllers that did not train. -/
  untrained : List Nat := []
  endorse : List Byte := []
  deriving DecidableEq, Repr

/-- A Watermark report being signed or queued (R474): who asked, and the unsigned bytes of its snapshot. -/
inductive ReportFor where
  | spdm (sess : Nat)
  | pliac (slot : Nat) (nonce : List Byte)
  deriving DecidableEq, Repr

/-- A report in the signing queue. -/
structure ReportJob where
  who : ReportFor
  body : List Byte
  deriving DecidableEq, Repr

end Sys2Proof.Machine
end

