-- ==== Sys2Proof/Machine/RegMap.lean ====
section
/-! DEFINITION. The register map (Table 22.7): every BAR0 register with its address, its instances, its width and its fields
with their access types (Table 00.4) and reset values, from the register table of its home chapter. -/

namespace Sys2Proof.Machine

/-- Access types (Table 00.4). -/
inductive Acc where
  | ro
  | rw
  | wo
  | w1c
  | w1s
  | ros
  | rws
  | rwl
  deriving DecidableEq, Repr

/-- A field: bits `[hi:lo]`, access type, reset value. -/
structure Fld where
  hi : Nat
  lo : Nat
  acc : Acc
  rst : Nat
  deriving DecidableEq, Repr

/-- The registers by name; indexed families are one name. -/
inductive Reg where
  /-- IDN_ID. -/
  | idnId
  /-- IDN_SERIAL0. -/
  | idnSerial0
  /-- IDN_SERIAL1. -/
  | idnSerial1
  /-- IDN_VER. -/
  | idnVer
  /-- IDN_CAP. -/
  | idnCap
  /-- GCT_STS. -/
  | gctSts
  /-- GCT_SCRATCH. -/
  | gctScratch
  /-- GCT_RESET. -/
  | gctReset
  /-- GCT_BOOT. -/
  | gctBoot
  /-- GCT_PRF. -/
  | gctPrf
  /-- GCT_MGT_CFG. -/
  | gctMgtCfg
  /-- GCT_MGT_MAC. -/
  | gctMgtMac
  /-- GCT_MGT_IPH. -/
  | gctMgtIph
  /-- GCT_MGT_IPL. -/
  | gctMgtIpl
  /-- GCT_MGT_STS. -/
  | gctMgtSts
  /-- GCT_MGT_CNT. -/
  | gctMgtCnt
  /-- GCT_PIN_STS. -/
  | gctPinSts
  /-- GCT_ALERT. -/
  | gctAlert
  /-- EVT_RING_BASE. -/
  | evtRingBase
  /-- EVT_RING_CFG. -/
  | evtRingCfg
  /-- EVT_RING_HEAD. -/
  | evtRingHead
  /-- EVT_RING_STS. -/
  | evtRingSts
  /-- EVT_STS. -/
  | evtSts
  /-- EVT_LOSS. -/
  | evtLoss
  /-- EVT_FATAL. -/
  | evtFatal
  /-- EVT_FATAL_NEXT. -/
  | evtFatalNext
  /-- HQI_RING_BASE. -/
  | hqiRingBase
  /-- HQI_RING_CFG. -/
  | hqiRingCfg
  /-- HQI_RING_DB. -/
  | hqiRingDb
  /-- HQI_RING_STS. -/
  | hqiRingSts
  /-- HQI_CQ_BASE. -/
  | hqiCqBase
  /-- HQI_CQ_CFG. -/
  | hqiCqCfg
  /-- HQI_CQ_DB. -/
  | hqiCqDb
  /-- HQI_CQ_STS. -/
  | hqiCqSts
  /-- HQI_FN_B2WIN. -/
  | hqiFnB2win
  /-- HQI_FN_STS. -/
  | hqiFnSts
  /-- HQI_GSTS. -/
  | hqiGsts
  /-- PRT_CMD. -/
  | prtCmd
  /-- PRT_CMD2. -/
  | prtCmd2
  /-- PRT_RES. -/
  | prtRes
  /-- PRT_DSTS. -/
  | prtDsts
  /-- PRT_GSTS. -/
  | prtGsts
  /-- SEC_STS. -/
  | secSts
  /-- SEC_MODE. -/
  | secMode
  /-- SEC_IMG_SEQ. -/
  | secImgSeq
  /-- SEC_BOOTCNT. -/
  | secBootcnt
  /-- SEC_IMG_DIG. -/
  | secImgDig
  /-- SEC_WMK_PUB. -/
  | secWmkPub
  /-- SEC_IDK_PUB. -/
  | secIdkPub
  /-- SEC_PTK_KEY. -/
  | secPtkKey
  /-- SEC_PTK_CTL. -/
  | secPtkCtl
  /-- SEC_DK_STS. -/
  | secDkSts
  /-- RNG_STS. -/
  | rngSts
  /-- RNG_SRC_STS. -/
  | rngSrcSts
  /-- RNG_GRP_STS. -/
  | rngGrpSts
  /-- RNG_INST_CNT. -/
  | rngInstCnt
  /-- RNG_HT_CNT. -/
  | rngHtCnt
  /-- RNG_HT_LOG. -/
  | rngHtLog
  /-- RNG_CUT. -/
  | rngCut
  /-- RNG_HT_INJ. -/
  | rngHtInj
  /-- RNG_RD. -/
  | rngRd
  /-- MEM_CSTS. -/
  | memCsts
  /-- MEM_ECC_CNT. -/
  | memEccCnt
  /-- MEM_ECC_LOG. -/
  | memEccLog
  /-- MEM_FLIP_POS. -/
  | memFlipPos
  /-- MEM_FLIP_VAL. -/
  | memFlipVal
  /-- MEM_FLIP_ADDR. -/
  | memFlipAddr
  /-- MEM_PPR_CMD. -/
  | memPprCmd
  /-- MEM_PPR_STS. -/
  | memPprSts
  /-- MEM_SCRUB_CTL. -/
  | memScrubCtl
  /-- MEM_SCRUB_STS. -/
  | memScrubSts
  /-- MEM_RETIRE_STS. -/
  | memRetireSts
  /-- MEM_CEB_CFG. -/
  | memCebCfg
  /-- MEM_RETIRE_ENT. -/
  | memRetireEnt
  /-- MEM_XLT_BASE. -/
  | memXltBase
  /-- MEM_XLT_SIZE. -/
  | memXltSize
  /-- MEM_DCTL. -/
  | memDctl
  /-- MEM_SC_WAYS. -/
  | memScWays
  /-- MEM_PROT_STS. -/
  | memProtSts
  /-- MEM_GOWN. -/
  | memGown
  /-- IZK_PORT_CFG. -/
  | izkPortCfg
  /-- IZK_PORT_MAC. -/
  | izkPortMac
  /-- IZK_PORT_IPH. -/
  | izkPortIph
  /-- IZK_PORT_IPL. -/
  | izkPortIpl
  /-- IZK_PORT_L3. -/
  | izkPortL3
  /-- IZK_PORT_TMR. -/
  | izkPortTmr
  /-- IZK_PORT_GRANT. -/
  | izkPortGrant
  /-- IZK_PORT_STS. -/
  | izkPortSts
  /-- IZK_PORT_CNT. -/
  | izkPortCnt
  /-- IZK_PORT_CNT2. -/
  | izkPortCnt2
  /-- IZK_GSTS. -/
  | izkGsts
  /-- IZK_DK_CMD. -/
  | izkDkCmd
  /-- IZK_DK_ARG. -/
  | izkDkArg
  /-- IZK_DK_RES. -/
  | izkDkRes
  /-- IZK_DK_CNT. -/
  | izkDkCnt
  /-- IZK_QP_STS. -/
  | izkQpSts
  /-- PWR_CAP. -/
  | pwrCap
  /-- PWR_CTL. -/
  | pwrCtl
  /-- PWR_STS. -/
  | pwrSts
  /-- PWR_TEL. -/
  | pwrTel
  /-- PWR_TEMP_THR. -/
  | pwrTempThr
  /-- PWR_CNT. -/
  | pwrCnt
  /-- PWR_SENS. -/
  | pwrSens
  /-- PWR_RAIL. -/
  | pwrRail
  /-- CLK_STS. -/
  | clkSts
  /-- CLK_ACLK. -/
  | clkAclk
  /-- CLK_SWBACK. -/
  | clkSwback
  /-- CLK_TSC. -/
  | clkTsc
  /-- CLK_CDC_STS. -/
  | clkCdcSts
  /-- CLK_FAIL_CNT. -/
  | clkFailCnt
  /-- QRE_SHT_RESLOG. -/
  | qreShtReslog
  /-- QRE_SHT_INJ. -/
  | qreShtInj
  /-- QRE_SHT_RESCNT. -/
  | qreShtRescnt
  /-- QRE_VAT_LOG. -/
  | qreVatLog
  /-- QRE_VAT_CECNT. -/
  | qreVatCecnt
  /-- QRE_BTR_LOG. -/
  | qreBtrLog
  /-- QRE_BTR_CECNT. -/
  | qreBtrCecnt
  /-- QRE_BTR_INJ. -/
  | qreBtrInj
  /-- QRE_BTR_STS. -/
  | qreBtrSts
  /-- QRE_STR_STATE. -/
  | qreStrState
  /-- QRE_STR_CTL. -/
  | qreStrCtl
  /-- QRE_ROLE. -/
  | qreRole
  /-- QRE_MBX_STS. -/
  | qreMbxSts
  /-- QRE_MBX_CNT. -/
  | qreMbxCnt
  /-- QRE_ERR_CTL. -/
  | qreErrCtl
  /-- QRE_ERR_STS. -/
  | qreErrSts
  /-- QRE_ERR_NEXT. -/
  | qreErrNext
  /-- QRE_CEB. -/
  | qreCeb
  /-- QRE_SPD_STS. -/
  | qreSpdSts
  /-- QRE_RST. -/
  | qreRst
  /-- QRE_STR_FLT. -/
  | qreStrFlt
  /-- QRE_PRF. -/
  | qrePrf
  /-- CTX_ENT. -/
  | ctxEnt
  /-- CTX_MODEL. -/
  | ctxModel
  /-- CTX_HPOOL_BASE. -/
  | ctxHpoolBase
  /-- CTX_HPOOL_CNT. -/
  | ctxHpoolCnt
  /-- CTX_LPOOL_BASE. -/
  | ctxLpoolBase
  /-- CTX_LPOOL_CNT. -/
  | ctxLpoolCnt
  /-- CTX_TPOOL_BASE. -/
  | ctxTpoolBase
  /-- CTX_TPOOL_CNT. -/
  | ctxTpoolCnt
  /-- CTX_MAP_BASE. -/
  | ctxMapBase
  /-- CTX_POOL_CTL. -/
  | ctxPoolCtl
  /-- CTX_SWP_CTL. -/
  | ctxSwpCtl
  /-- CTX_POOL_FREE. -/
  | ctxPoolFree
  /-- CTX_PRT_CNT. -/
  | ctxPrtCnt
  /-- CTX_GSTS. -/
  | ctxGsts
  /-- CTX_SWP_BW. -/
  | ctxSwpBw
  /-- AGG_SES_STS. -/
  | aggSesSts
  /-- AGG_SES_CNT. -/
  | aggSesCnt
  /-- AGG_SES_REJ. -/
  | aggSesRej
  /-- AGG_SES_ELEM. -/
  | aggSesElem
  /-- AGG_GSTS. -/
  | aggGsts
  /-- PLY_BAS_MAP. -/
  | plyBasMap
  /-- PLY_KEY_STS. -/
  | plyKeySts
  /-- PLY_FLT_CNT. -/
  | plyFltCnt
  /-- PLY_DUAL_CNT. -/
  | plyDualCnt
  /-- PLY_LIB. -/
  | plyLib
  /-- PLY_LIBENT. -/
  | plyLibent
  /-- PLY_BAS. -/
  | plyBas
  deriving DecidableEq, Repr

/-- A row of the map: instance `k` and sub-instance `j` lie at `base + stride * k + stride2 * j`; `width` is in bits, and the
fields not listed are reserved (R8). -/
structure RegRow where
  reg : Reg
  base : Nat
  stride : Nat
  count : Nat
  stride2 : Nat
  count2 : Nat
  width : Nat
  fields : List Fld
  deriving DecidableEq, Repr

/-- The IDN block. -/
def regsIdn : List RegRow := [
  ⟨.idnId, 0x0, 0x0, 1, 0x0, 1, 64,
    [⟨15, 0, .ro, 7996⟩, ⟨31, 16, .ro, 30208⟩, ⟨39, 32, .ro, 176⟩]⟩,
  ⟨.idnSerial0, 0x8, 0x0, 1, 0x0, 1, 64,
    [⟨63, 0, .ro, 0⟩]⟩,
  ⟨.idnSerial1, 0x10, 0x0, 1, 0x0, 1, 64,
    [⟨63, 0, .ro, 0⟩]⟩,
  ⟨.idnVer, 0x18, 0x0, 1, 0x0, 1, 64,
    [⟨7, 0, .ro, 3⟩, ⟨15, 8, .ro, 1⟩, ⟨17, 16, .ro, 3⟩, ⟨19, 18, .ro, 3⟩, ⟨21, 20, .ro, 3⟩, ⟨31, 24, .ro, 2⟩, ⟨39, 32, .ro, 19⟩, ⟨43, 40, .ro, 7⟩]⟩,
  ⟨.idnCap, 0x20, 0x0, 1, 0x0, 1, 64,
    [⟨7, 0, .ro, 68⟩, ⟨15, 8, .ro, 0⟩, ⟨23, 16, .ro, 16⟩, ⟨31, 24, .ro, 64⟩, ⟨47, 32, .ro, 4096⟩, ⟨63, 48, .ro, 8192⟩]⟩]

/-- The GCT block. -/
def regsGct : List RegRow := [
  ⟨.gctSts, 0x10000, 0x0, 1, 0x0, 1, 64,
    [⟨0, 0, .ro, 0⟩, ⟨1, 1, .ro, 0⟩, ⟨2, 2, .ro, 0⟩, ⟨3, 3, .ro, 0⟩, ⟨4, 4, .ro, 0⟩]⟩,
  ⟨.gctScratch, 0x10008, 0x0, 1, 0x0, 1, 64,
    [⟨63, 0, .rws, 0⟩]⟩,
  ⟨.gctReset, 0x10010, 0x0, 1, 0x0, 1, 32,
    [⟨15, 0, .wo, 0⟩]⟩,
  ⟨.gctBoot, 0x10018, 0x0, 1, 0x0, 1, 64,
    [⟨3, 0, .ro, 0⟩, ⟨4, 4, .ro, 0⟩, ⟨7, 5, .ro, 0⟩, ⟨31, 16, .ro, 0⟩, ⟨39, 32, .rws, 0⟩]⟩,
  ⟨.gctPrf, 0x10100, 0x8, 4, 0x0, 1, 64,
    [⟨63, 0, .rw, 0⟩]⟩,
  ⟨.gctMgtCfg, 0x10400, 0x0, 1, 0x0, 1, 32,
    [⟨15, 0, .rwl, 0⟩, ⟨16, 16, .rwl, 0⟩, ⟨17, 17, .rwl, 0⟩, ⟨31, 31, .w1s, 0⟩]⟩,
  ⟨.gctMgtMac, 0x10408, 0x0, 1, 0x0, 1, 64,
    [⟨47, 0, .rwl, 0⟩]⟩,
  ⟨.gctMgtIph, 0x10410, 0x0, 1, 0x0, 1, 64,
    [⟨63, 0, .rwl, 0⟩]⟩,
  ⟨.gctMgtIpl, 0x10418, 0x0, 1, 0x0, 1, 64,
    [⟨63, 0, .rwl, 0⟩]⟩,
  ⟨.gctMgtSts, 0x10420, 0x0, 1, 0x0, 1, 64,
    [⟨0, 0, .ro, 0⟩, ⟨1, 1, .ro, 0⟩, ⟨2, 2, .ro, 0⟩, ⟨3, 3, .ro, 0⟩, ⟨7, 4, .ro, 0⟩, ⟨19, 8, .ro, 0⟩]⟩,
  ⟨.gctMgtCnt, 0x10428, 0x0, 1, 0x0, 1, 64,
    [⟨15, 0, .rw, 0⟩, ⟨31, 16, .rw, 0⟩, ⟨47, 32, .rw, 0⟩, ⟨63, 48, .rw, 0⟩]⟩,
  ⟨.gctPinSts, 0x10500, 0x0, 1, 0x0, 1, 64,
    [⟨3, 0, .ro, 0⟩, ⟨7, 4, .ro, 0⟩, ⟨11, 8, .ros, 0⟩, ⟨12, 12, .ros, 0⟩, ⟨13, 13, .ros, 0⟩, ⟨16, 16, .ro, 0⟩, ⟨17, 17, .ro, 0⟩, ⟨18, 18, .ro, 0⟩, ⟨19, 19, .ro, 0⟩, ⟨20, 20, .ro, 0⟩]⟩,
  ⟨.gctAlert, 0x10508, 0x0, 1, 0x0, 1, 32,
    [⟨0, 0, .w1c, 0⟩, ⟨1, 1, .w1c, 0⟩, ⟨2, 2, .w1c, 0⟩, ⟨10, 8, .rw, 7⟩]⟩]

/-- The EVT block. -/
def regsEvt : List RegRow := [
  ⟨.evtRingBase, 0x20000, 0x40, 17, 0x0, 1, 64,
    [⟨63, 12, .rwl, 0⟩]⟩,
  ⟨.evtRingCfg, 0x20008, 0x40, 17, 0x0, 1, 32,
    [⟨0, 0, .rw, 0⟩, ⟨1, 1, .ro, 0⟩, ⟨11, 8, .rwl, 4⟩, ⟨19, 16, .rw, 12⟩]⟩,
  ⟨.evtRingHead, 0x20010, 0x40, 17, 0x0, 1, 32,
    [⟨31, 0, .wo, 0⟩]⟩,
  ⟨.evtRingSts, 0x20018, 0x40, 17, 0x0, 1, 64,
    [⟨31, 0, .ro, 0⟩, ⟨47, 32, .rw, 0⟩, ⟨48, 48, .ros, 0⟩]⟩,
  ⟨.evtSts, 0x21000, 0x0, 1, 0x0, 1, 64,
    [⟨9, 0, .ro, 0⟩, ⟨63, 32, .ro, 0⟩]⟩,
  ⟨.evtLoss, 0x21008, 0x0, 1, 0x0, 1, 64,
    [⟨15, 0, .rw, 0⟩, ⟨31, 16, .rw, 0⟩, ⟨47, 32, .rw, 0⟩, ⟨63, 48, .rw, 0⟩]⟩,
  ⟨.evtFatal, 0x21010, 0x8, 4, 0x0, 1, 64,
    [⟨63, 0, .ros, 0⟩]⟩,
  ⟨.evtFatalNext, 0x21030, 0x0, 1, 0x0, 1, 64,
    [⟨0, 0, .ros, 0⟩, ⟨1, 1, .ros, 0⟩, ⟨3, 2, .ros, 0⟩, ⟨15, 8, .ros, 0⟩, ⟨23, 16, .ros, 0⟩, ⟨63, 32, .ros, 0⟩]⟩]

/-- The HQI block. -/
def regsHqi : List RegRow := [
  ⟨.hqiRingBase, 0x40000, 0x40, 256, 0x0, 1, 64,
    [⟨63, 12, .rwl, 0⟩]⟩,
  ⟨.hqiRingCfg, 0x40008, 0x40, 256, 0x0, 1, 64,
    [⟨0, 0, .rw, 0⟩, ⟨1, 1, .rwl, 0⟩, ⟨2, 2, .rwl, 0⟩, ⟨4, 3, .ro, 0⟩, ⟨11, 8, .rwl, 4⟩, ⟨20, 16, .rwl, 0⟩, ⟨44, 32, .rwl, 1024⟩]⟩,
  ⟨.hqiRingDb, 0x40010, 0x40, 256, 0x0, 1, 32,
    [⟨31, 0, .wo, 0⟩]⟩,
  ⟨.hqiRingSts, 0x40018, 0x40, 256, 0x0, 1, 64,
    [⟨1, 0, .ro, 0⟩, ⟨4, 2, .ro, 0⟩, ⟨28, 16, .ro, 0⟩, ⟨63, 32, .ro, 0⟩]⟩,
  ⟨.hqiCqBase, 0x40020, 0x40, 256, 0x0, 1, 64,
    [⟨63, 12, .rwl, 0⟩]⟩,
  ⟨.hqiCqCfg, 0x40028, 0x40, 256, 0x0, 1, 64,
    [⟨0, 0, .rw, 0⟩, ⟨8, 4, .rw, 0⟩, ⟨23, 16, .rw, 1⟩, ⟨41, 32, .rw, 0⟩, ⟨51, 48, .rwl, 4⟩]⟩,
  ⟨.hqiCqDb, 0x40030, 0x40, 256, 0x0, 1, 32,
    [⟨31, 0, .wo, 0⟩]⟩,
  ⟨.hqiCqSts, 0x40038, 0x40, 256, 0x0, 1, 64,
    [⟨31, 0, .ro, 0⟩, ⟨47, 32, .rw, 0⟩, ⟨48, 48, .ros, 0⟩, ⟨49, 49, .ros, 0⟩]⟩,
  ⟨.hqiFnB2win, 0x50000, 0x40, 17, 0x0, 1, 64,
    [⟨63, 16, .rw, 0⟩]⟩,
  ⟨.hqiFnSts, 0x50008, 0x40, 17, 0x0, 1, 64,
    [⟨0, 0, .w1c, 0⟩, ⟨1, 1, .w1c, 0⟩, ⟨9, 8, .ro, 0⟩, ⟨63, 32, .rw, 0⟩]⟩,
  ⟨.hqiGsts, 0x51000, 0x0, 1, 0x0, 1, 64,
    [⟨15, 0, .ro, 0⟩, ⟨28, 16, .ro, 0⟩, ⟨36, 32, .ro, 0⟩, ⟨39, 37, .ro, 0⟩]⟩]

/-- The PRT block. -/
def regsPrt : List RegRow := [
  ⟨.prtCmd, 0x80000, 0x0, 1, 0x0, 1, 64,
    [⟨3, 0, .rw, 0⟩, ⟨7, 4, .rw, 0⟩, ⟨8, 8, .rw, 0⟩, ⟨9, 9, .rw, 0⟩, ⟨10, 10, .rw, 0⟩, ⟨31, 16, .rw, 0⟩, ⟨47, 32, .rw, 0⟩, ⟨56, 48, .rw, 0⟩]⟩,
  ⟨.prtCmd2, 0x80008, 0x0, 1, 0x0, 1, 32,
    [⟨8, 0, .rw, 0⟩, ⟨31, 31, .w1s, 0⟩]⟩,
  ⟨.prtRes, 0x80010, 0x0, 1, 0x0, 1, 32,
    [⟨7, 0, .ro, 0⟩]⟩,
  ⟨.prtDsts, 0x80100, 0x10, 16, 0x0, 1, 64,
    [⟨2, 0, .ro, 0⟩, ⟨7, 4, .ro, 0⟩, ⟨15, 8, .ro, 0⟩, ⟨31, 16, .ro, 0⟩, ⟨47, 32, .ro, 0⟩, ⟨48, 48, .ro, 0⟩]⟩,
  ⟨.prtGsts, 0x80200, 0x0, 1, 0x0, 1, 32,
    [⟨15, 0, .ro, 0⟩, ⟨31, 16, .ro, 0⟩]⟩]

/-- The SEC block. -/
def regsSec : List RegRow := [
  ⟨.secSts, 0xC0000, 0x0, 1, 0x0, 1, 64,
    [⟨2, 0, .ro, 0⟩, ⟨3, 3, .ro, 0⟩, ⟨4, 4, .ro, 0⟩, ⟨5, 5, .ro, 1⟩, ⟨6, 6, .ro, 0⟩, ⟨7, 7, .ro, 0⟩, ⟨8, 8, .ro, 0⟩, ⟨9, 9, .ro, 0⟩, ⟨10, 10, .ro, 0⟩, ⟨11, 11, .ro, 0⟩, ⟨23, 16, .ro, 0⟩, ⟨31, 24, .ro, 0⟩]⟩,
  ⟨.secMode, 0xC0008, 0x0, 1, 0x0, 1, 32,
    [⟨0, 0, .w1s, 0⟩, ⟨1, 1, .ro, 0⟩]⟩,
  ⟨.secImgSeq, 0xC0010, 0x0, 1, 0x0, 1, 64,
    [⟨63, 0, .ro, 0⟩]⟩,
  ⟨.secBootcnt, 0xC0018, 0x0, 1, 0x0, 1, 64,
    [⟨63, 0, .ro, 0⟩]⟩,
  ⟨.secImgDig, 0xC0020, 0x8, 4, 0x0, 1, 64,
    [⟨63, 0, .ro, 0⟩]⟩,
  ⟨.secWmkPub, 0xC0040, 0x8, 4, 0x0, 1, 64,
    [⟨63, 0, .ro, 0⟩]⟩,
  ⟨.secIdkPub, 0xC0060, 0x8, 4, 0x0, 1, 64,
    [⟨63, 0, .ro, 0⟩]⟩,
  ⟨.secPtkKey, 0xC8000, 0x100, 16, 0x4, 8, 32,
    [⟨31, 0, .wo, 0⟩]⟩,
  ⟨.secPtkCtl, 0xC8020, 0x100, 16, 0x0, 1, 32,
    [⟨0, 0, .rw, 0⟩, ⟨1, 1, .w1s, 0⟩, ⟨2, 2, .rw, 0⟩, ⟨3, 3, .w1s, 0⟩, ⟨5, 4, .ro, 0⟩, ⟨6, 6, .ro, 0⟩]⟩,
  ⟨.secDkSts, 0xC8028, 0x100, 16, 0x0, 1, 32,
    [⟨31, 0, .ro, 0⟩]⟩]

/-- The RNG block. -/
def regsRng : List RegRow := [
  ⟨.rngSts, 0xE0000, 0x0, 1, 0x0, 1, 64,
    [⟨1, 0, .ro, 0⟩, ⟨2, 2, .ros, 0⟩, ⟨7, 4, .ro, 0⟩, ⟨11, 8, .ro, 0⟩]⟩,
  ⟨.rngSrcSts, 0xE0008, 0x0, 1, 0x0, 1, 32,
    [⟨31, 0, .ro, 0⟩]⟩,
  ⟨.rngGrpSts, 0xE0010, 0x0, 1, 0x0, 1, 64,
    [⟨31, 0, .ro, 0⟩]⟩,
  ⟨.rngInstCnt, 0xE0020, 0x8, 4, 0x0, 1, 64,
    [⟨31, 0, .rw, 0⟩, ⟨63, 32, .rw, 0⟩]⟩,
  ⟨.rngHtCnt, 0xE0040, 0x0, 1, 0x0, 1, 64,
    [⟨15, 0, .rw, 0⟩, ⟨31, 16, .rw, 0⟩, ⟨47, 32, .rw, 0⟩, ⟨63, 48, .rw, 0⟩]⟩,
  ⟨.rngHtLog, 0xE0048, 0x0, 1, 0x0, 1, 64,
    [⟨0, 0, .ros, 0⟩, ⟨1, 1, .ros, 0⟩, ⟨2, 2, .ros, 0⟩, ⟨3, 3, .ros, 0⟩, ⟨7, 4, .ros, 0⟩, ⟨63, 16, .ros, 0⟩]⟩,
  ⟨.rngCut, 0xE0050, 0x0, 1, 0x0, 1, 32,
    [⟨7, 0, .ro, 41⟩, ⟨26, 16, .ro, 625⟩]⟩,
  ⟨.rngHtInj, 0xE0058, 0x0, 1, 0x0, 1, 32,
    [⟨3, 0, .rwl, 0⟩, ⟨4, 4, .rwl, 0⟩, ⟨8, 8, .w1s, 0⟩]⟩,
  ⟨.rngRd, 0xE1000, 0x40, 17, 0x0, 1, 64,
    [⟨31, 0, .ro, 0⟩, ⟨35, 32, .ro, 0⟩]⟩]

/-- The MEM block. -/
def regsMem : List RegRow := [
  ⟨.memCsts, 0x100000, 0x4000, 24, 0x0, 1, 32,
    [⟨0, 0, .ro, 0⟩, ⟨1, 1, .ro, 0⟩]⟩,
  ⟨.memEccCnt, 0x100008, 0x4000, 24, 0x0, 1, 64,
    [⟨31, 0, .rw, 0⟩, ⟨47, 32, .rw, 0⟩, ⟨63, 48, .rw, 0⟩]⟩,
  ⟨.memEccLog, 0x100010, 0x4000, 24, 0x0, 1, 64,
    [⟨0, 0, .ros, 0⟩, ⟨1, 1, .ros, 0⟩, ⟨4, 2, .ros, 0⟩, ⟨7, 5, .ros, 0⟩, ⟨11, 8, .ros, 0⟩, ⟨12, 12, .ros, 0⟩, ⟨49, 16, .ros, 0⟩]⟩,
  ⟨.memFlipPos, 0x100020, 0x4000, 24, 0x0, 1, 64,
    [⟨47, 0, .rwl, 0⟩, ⟨50, 48, .rwl, 0⟩, ⟨56, 56, .w1s, 0⟩]⟩,
  ⟨.memFlipVal, 0x100028, 0x4000, 24, 0x0, 1, 64,
    [⟨47, 0, .rwl, 0⟩]⟩,
  ⟨.memFlipAddr, 0x100030, 0x4000, 24, 0x0, 1, 64,
    [⟨33, 0, .ro, 0⟩, ⟨63, 63, .ro, 0⟩]⟩,
  ⟨.memPprCmd, 0x100040, 0x4000, 24, 0x0, 1, 64,
    [⟨33, 0, .rw, 0⟩, ⟨60, 60, .rw, 0⟩, ⟨63, 63, .w1s, 0⟩]⟩,
  ⟨.memPprSts, 0x100048, 0x4000, 24, 0x0, 1, 32,
    [⟨0, 0, .ro, 0⟩, ⟨2, 1, .ro, 0⟩, ⟨11, 4, .ro, 0⟩]⟩,
  ⟨.memScrubCtl, 0x160000, 0x0, 1, 0x0, 1, 32,
    [⟨0, 0, .rw, 1⟩, ⟨15, 8, .rw, 24⟩]⟩,
  ⟨.memScrubSts, 0x160008, 0x0, 1, 0x0, 1, 64,
    [⟨31, 0, .ro, 0⟩, ⟨41, 32, .ro, 0⟩]⟩,
  ⟨.memRetireSts, 0x160010, 0x0, 1, 0x0, 1, 32,
    [⟨8, 0, .ro, 0⟩, ⟨9, 9, .ros, 0⟩]⟩,
  ⟨.memCebCfg, 0x160018, 0x0, 1, 0x0, 1, 32,
    [⟨7, 0, .rw, 4⟩, ⟨31, 16, .rw, 24⟩]⟩,
  ⟨.memRetireEnt, 0x161000, 0x8, 256, 0x0, 1, 64,
    [⟨0, 0, .w1c, 0⟩, ⟨2, 1, .ro, 0⟩, ⟨3, 3, .ro, 0⟩, ⟨39, 16, .ro, 0⟩]⟩,
  ⟨.memXltBase, 0x168000, 0x100, 16, 0x0, 1, 64,
    [⟨63, 16, .rwl, 0⟩]⟩,
  ⟨.memXltSize, 0x168008, 0x100, 16, 0x0, 1, 32,
    [⟨31, 0, .rwl, 0⟩]⟩,
  ⟨.memDctl, 0x168010, 0x100, 16, 0x0, 1, 32,
    [⟨0, 0, .rw, 0⟩, ⟨1, 1, .rw, 0⟩, ⟨2, 2, .ro, 0⟩]⟩,
  ⟨.memScWays, 0x168018, 0x100, 16, 0x0, 1, 32,
    [⟨15, 0, .ro, 0⟩]⟩,
  ⟨.memProtSts, 0x168020, 0x100, 16, 0x0, 1, 32,
    [⟨10, 0, .ro, 0⟩]⟩,
  ⟨.memGown, 0x170000, 0x8, 128, 0x0, 1, 64,
    [⟨63, 0, .ro, 0⟩]⟩]

/-- The IZK block. -/
def regsIzk : List RegRow := [
  ⟨.izkPortCfg, 0x180000, 0x1000, 4, 0x0, 1, 64,
    [⟨0, 0, .rw, 0⟩, ⟨1, 1, .rwl, 0⟩, ⟨2, 2, .rwl, 0⟩, ⟨3, 3, .rwl, 0⟩, ⟨5, 4, .rwl, 0⟩, ⟨6, 6, .rwl, 0⟩, ⟨7, 7, .rw, 0⟩, ⟨15, 8, .rwl, 0⟩, ⟨18, 16, .rwl, 0⟩, ⟨21, 19, .rwl, 0⟩, ⟨22, 22, .ro, 0⟩, ⟨47, 32, .rwl, 0⟩, ⟨63, 48, .rwl, 0⟩]⟩,
  ⟨.izkPortMac, 0x180008, 0x1000, 4, 0x0, 1, 64,
    [⟨47, 0, .rwl, 0⟩]⟩,
  ⟨.izkPortIph, 0x180010, 0x1000, 4, 0x0, 1, 64,
    [⟨63, 0, .rwl, 0⟩]⟩,
  ⟨.izkPortIpl, 0x180018, 0x1000, 4, 0x0, 1, 64,
    [⟨63, 0, .rwl, 0⟩]⟩,
  ⟨.izkPortL3, 0x180020, 0x1000, 4, 0x0, 1, 64,
    [⟨5, 0, .rwl, 0⟩, ⟨13, 8, .rwl, 0⟩, ⟨23, 16, .rwl, 64⟩, ⟨47, 32, .rwl, 0⟩]⟩,
  ⟨.izkPortTmr, 0x180028, 0x1000, 4, 0x0, 1, 64,
    [⟨9, 0, .rw, 64⟩, ⟨13, 10, .rw, 7⟩, ⟨21, 14, .rw, 16⟩, ⟨29, 22, .rw, 7⟩, ⟨39, 30, .rw, 50⟩, ⟨49, 40, .rw, 10⟩, ⟨61, 50, .rw, 1000⟩]⟩,
  ⟨.izkPortGrant, 0x180030, 0x1000, 4, 0x0, 1, 32,
    [⟨15, 0, .rw, 512⟩]⟩,
  ⟨.izkPortSts, 0x180038, 0x1000, 4, 0x0, 1, 64,
    [⟨2, 0, .ro, 0⟩, ⟨4, 3, .ro, 0⟩, ⟨15, 8, .ro, 0⟩, ⟨17, 16, .ro, 0⟩, ⟨19, 18, .ro, 0⟩, ⟨27, 20, .ro, 0⟩]⟩,
  ⟨.izkPortCnt, 0x180040, 0x1000, 4, 0x0, 1, 64,
    [⟨15, 0, .rw, 0⟩, ⟨31, 16, .rw, 0⟩, ⟨47, 32, .rw, 0⟩, ⟨63, 48, .rw, 0⟩]⟩,
  ⟨.izkPortCnt2, 0x180048, 0x1000, 4, 0x0, 1, 64,
    [⟨31, 0, .rw, 0⟩, ⟨47, 32, .rw, 0⟩, ⟨63, 48, .rw, 0⟩]⟩,
  ⟨.izkGsts, 0x184000, 0x0, 1, 0x0, 1, 64,
    [⟨13, 0, .ro, 0⟩, ⟨27, 14, .ro, 0⟩, ⟨44, 28, .ro, 0⟩]⟩,
  ⟨.izkDkCmd, 0x188000, 0x100, 16, 0x0, 1, 32,
    [⟨3, 0, .rw, 0⟩, ⟨31, 31, .w1s, 0⟩]⟩,
  ⟨.izkDkArg, 0x188008, 0x100, 16, 0x8, 5, 64,
    [⟨63, 0, .rw, 0⟩]⟩,
  ⟨.izkDkRes, 0x188038, 0x100, 16, 0x0, 1, 64,
    [⟨7, 0, .ro, 0⟩, ⟨8, 8, .ro, 0⟩, ⟨63, 32, .ro, 0⟩]⟩,
  ⟨.izkDkCnt, 0x188040, 0x100, 16, 0x0, 1, 64,
    [⟨31, 0, .rw, 0⟩, ⟨63, 32, .rw, 0⟩]⟩,
  ⟨.izkQpSts, 0x190000, 0x10, 8192, 0x0, 1, 64,
    [⟨2, 0, .ro, 0⟩, ⟨3, 3, .ro, 0⟩, ⟨5, 4, .ro, 0⟩, ⟨9, 6, .ro, 0⟩, ⟨20, 10, .ro, 0⟩, ⟨31, 24, .ro, 0⟩, ⟨63, 32, .ro, 0⟩]⟩]

/-- The PWR block. -/
def regsPwr : List RegRow := [
  ⟨.pwrCap, 0x1C0000, 0x0, 1, 0x0, 1, 32,
    [⟨10, 0, .rw, 1400⟩]⟩,
  ⟨.pwrCtl, 0x1C0008, 0x0, 1, 0x0, 1, 32,
    [⟨5, 0, .rw, 21⟩, ⟨13, 8, .rw, 0⟩]⟩,
  ⟨.pwrSts, 0x1C0010, 0x0, 1, 0x0, 1, 64,
    [⟨5, 0, .ro, 0⟩, ⟨13, 8, .ro, 0⟩, ⟨22, 16, .ro, 0⟩, ⟨29, 24, .ro, 36⟩, ⟨37, 32, .ro, 0⟩]⟩,
  ⟨.pwrTel, 0x1C0018, 0x0, 1, 0x0, 1, 64,
    [⟨15, 0, .ro, 0⟩, ⟨27, 16, .ro, 0⟩, ⟨63, 32, .ro, 0⟩]⟩,
  ⟨.pwrTempThr, 0x1C0020, 0x0, 1, 0x0, 1, 32,
    [⟨7, 0, .rw, 95⟩, ⟨15, 8, .rw, 105⟩, ⟨23, 16, .rw, 115⟩, ⟨31, 31, .ro, 0⟩]⟩,
  ⟨.pwrCnt, 0x1C0028, 0x0, 1, 0x0, 1, 64,
    [⟨31, 0, .rw, 0⟩, ⟨47, 32, .rw, 0⟩, ⟨63, 48, .rw, 0⟩]⟩,
  ⟨.pwrSens, 0x1C0100, 0x4, 136, 0x0, 1, 32,
    [⟨11, 0, .ro, 0⟩]⟩,
  ⟨.pwrRail, 0x1C0400, 0x8, 8, 0x0, 1, 64,
    [⟨15, 0, .ro, 0⟩, ⟨31, 16, .ro, 0⟩]⟩]

/-- The CLK block. -/
def regsClk : List RegRow := [
  ⟨.clkSts, 0x1E0000, 0x0, 1, 0x0, 1, 64,
    [⟨11, 0, .ro, 0⟩, ⟨27, 16, .ro, 0⟩, ⟨43, 32, .ro, 0⟩, ⟨51, 48, .ro, 0⟩, ⟨52, 52, .ro, 0⟩]⟩,
  ⟨.clkAclk, 0x1E0008, 0x0, 1, 0x0, 1, 32,
    [⟨5, 0, .rw, 36⟩, ⟨13, 8, .ro, 0⟩, ⟨21, 16, .ro, 36⟩]⟩,
  ⟨.clkSwback, 0x1E0010, 0x0, 1, 0x0, 1, 32,
    [⟨11, 0, .wo, 0⟩]⟩,
  ⟨.clkTsc, 0x1E0018, 0x0, 1, 0x0, 1, 64,
    [⟨63, 0, .ro, 0⟩]⟩,
  ⟨.clkCdcSts, 0x1E0020, 0x0, 1, 0x0, 1, 64,
    [⟨7, 0, .ros, 0⟩, ⟨15, 8, .ros, 0⟩, ⟨63, 32, .rw, 0⟩]⟩,
  ⟨.clkFailCnt, 0x1E0028, 0x0, 1, 0x0, 1, 32,
    [⟨15, 0, .rws, 0⟩, ⟨31, 16, .rws, 0⟩]⟩]

/-- The QRE block. -/
def regsQre : List RegRow := [
  ⟨.qreShtReslog, 0x208000, 0x10000, 68, 0x0, 1, 64,
    [⟨0, 0, .ros, 0⟩, ⟨1, 1, .ros, 0⟩, ⟨2, 2, .ros, 0⟩, ⟨12, 8, .ros, 0⟩, ⟨15, 13, .ros, 0⟩, ⟨19, 16, .ros, 0⟩, ⟨20, 20, .ros, 0⟩, ⟨30, 24, .ros, 0⟩, ⟨38, 32, .ros, 0⟩, ⟨55, 40, .ros, 0⟩]⟩,
  ⟨.qreShtInj, 0x208008, 0x10000, 68, 0x0, 1, 32,
    [⟨4, 0, .rwl, 0⟩, ⟨5, 5, .rwl, 0⟩, ⟨8, 8, .w1s, 0⟩]⟩,
  ⟨.qreShtRescnt, 0x208010, 0x10000, 68, 0x0, 1, 32,
    [⟨31, 0, .rw, 0⟩]⟩,
  ⟨.qreVatLog, 0x208020, 0x10000, 68, 0x0, 1, 64,
    [⟨0, 0, .ros, 0⟩, ⟨1, 1, .ros, 0⟩, ⟨3, 2, .ros, 0⟩, ⟨12, 8, .ros, 0⟩, ⟨15, 13, .ros, 0⟩, ⟨20, 16, .ros, 0⟩, ⟨22, 21, .ros, 0⟩, ⟨30, 24, .ros, 0⟩, ⟨38, 32, .ros, 0⟩, ⟨52, 40, .ros, 0⟩]⟩,
  ⟨.qreVatCecnt, 0x208028, 0x10000, 68, 0x0, 1, 32,
    [⟨31, 0, .rw, 0⟩]⟩,
  ⟨.qreBtrLog, 0x208030, 0x10000, 68, 0x0, 1, 64,
    [⟨0, 0, .ros, 0⟩, ⟨1, 1, .ros, 0⟩, ⟨2, 2, .ros, 0⟩, ⟨3, 3, .ros, 0⟩, ⟨5, 4, .ros, 0⟩, ⟨10, 8, .ros, 0⟩, ⟨15, 11, .ros, 0⟩, ⟨24, 16, .ros, 0⟩, ⟨38, 32, .ros, 0⟩, ⟨46, 40, .ros, 0⟩]⟩,
  ⟨.qreBtrCecnt, 0x208038, 0x10000, 68, 0x0, 1, 32,
    [⟨31, 0, .rw, 0⟩]⟩,
  ⟨.qreBtrInj, 0x20803C, 0x10000, 68, 0x0, 1, 32,
    [⟨1, 0, .rwl, 0⟩, ⟨2, 2, .rwl, 0⟩, ⟨8, 8, .w1s, 0⟩]⟩,
  ⟨.qreBtrSts, 0x208040, 0x10000, 68, 0x0, 1, 32,
    [⟨7, 0, .ros, 0⟩]⟩,
  ⟨.qreStrState, 0x208140, 0x10000, 68, 0x0, 1, 32,
    [⟨15, 0, .ro, 0⟩]⟩,
  ⟨.qreStrCtl, 0x208144, 0x10000, 68, 0x0, 1, 32,
    [⟨7, 0, .rw, 0⟩, ⟨15, 8, .wo, 0⟩]⟩,
  ⟨.qreRole, 0x208200, 0x10000, 68, 0x0, 1, 64,
    [⟨1, 0, .rw, 0⟩, ⟨2, 2, .ro, 0⟩, ⟨63, 32, .ro, 0⟩]⟩,
  ⟨.qreMbxSts, 0x208208, 0x10000, 68, 0x0, 1, 32,
    [⟨5, 0, .ro, 0⟩, ⟨11, 8, .ro, 0⟩, ⟨15, 12, .ro, 0⟩]⟩,
  ⟨.qreMbxCnt, 0x208210, 0x10000, 68, 0x0, 1, 64,
    [⟨31, 0, .rw, 0⟩, ⟨63, 32, .rw, 0⟩]⟩,
  ⟨.qreErrCtl, 0x208300, 0x10000, 68, 0x0, 1, 32,
    [⟨15, 0, .rw, 100⟩, ⟨16, 16, .rw, 1⟩, ⟨17, 17, .wo, 0⟩, ⟨18, 18, .wo, 0⟩]⟩,
  ⟨.qreErrSts, 0x208308, 0x10000, 68, 0x0, 1, 64,
    [⟨0, 0, .ro, 0⟩, ⟨1, 1, .ro, 0⟩, ⟨2, 2, .ro, 0⟩, ⟨3, 3, .ro, 0⟩, ⟨4, 4, .ro, 0⟩, ⟨15, 8, .ro, 255⟩, ⟨21, 16, .ro, 0⟩, ⟨26, 24, .ro, 0⟩, ⟨33, 32, .ro, 0⟩]⟩,
  ⟨.qreErrNext, 0x208310, 0x10000, 68, 0x0, 1, 64,
    [⟨0, 0, .ros, 0⟩, ⟨1, 1, .ros, 0⟩, ⟨3, 2, .ros, 0⟩, ⟨11, 4, .ros, 0⟩, ⟨47, 16, .ros, 0⟩, ⟨48, 48, .ros, 0⟩]⟩,
  ⟨.qreCeb, 0x208318, 0x10000, 68, 0x0, 1, 64,
    [⟨15, 0, .ro, 0⟩, ⟨31, 16, .rw, 16⟩, ⟨47, 32, .rw, 1000⟩]⟩,
  ⟨.qreSpdSts, 0x208320, 0x10000, 68, 0x0, 1, 32,
    [⟨8, 0, .ro, 0⟩, ⟨9, 9, .ros, 0⟩]⟩,
  ⟨.qreRst, 0x208400, 0x10000, 68, 0x0, 1, 32,
    [⟨0, 0, .w1s, 0⟩, ⟨1, 1, .ro, 0⟩, ⟨3, 2, .ro, 0⟩]⟩,
  ⟨.qreStrFlt, 0x208100, 0x10000, 68, 0x8, 8, 64,
    [⟨7, 0, .ro, 0⟩, ⟨8, 8, .ro, 0⟩, ⟨9, 9, .ro, 0⟩, ⟨10, 10, .ro, 0⟩, ⟨21, 16, .ro, 0⟩, ⟨26, 22, .ro, 0⟩, ⟨63, 32, .ro, 0⟩]⟩,
  ⟨.qrePrf, 0x208500, 0x10000, 68, 0x8, 4, 64,
    [⟨63, 0, .rw, 0⟩]⟩]

/-- The CTX block. -/
def regsCtx : List RegRow := [
  ⟨.ctxEnt, 0x800000, 0x80, 4096, 0x0, 1, 1024,
    []⟩,
  ⟨.ctxModel, 0x884000, 0x400, 16, 0x40, 16, 512,
    []⟩,
  ⟨.ctxHpoolBase, 0x880000, 0x100, 16, 0x0, 1, 64,
    [⟨63, 0, .rwl, 0⟩]⟩,
  ⟨.ctxHpoolCnt, 0x880008, 0x100, 16, 0x0, 1, 32,
    [⟨31, 0, .rwl, 0⟩]⟩,
  ⟨.ctxLpoolBase, 0x880010, 0x100, 16, 0x0, 1, 64,
    [⟨63, 0, .rwl, 0⟩]⟩,
  ⟨.ctxLpoolCnt, 0x880018, 0x100, 16, 0x0, 1, 32,
    [⟨31, 0, .rwl, 0⟩]⟩,
  ⟨.ctxTpoolBase, 0x880020, 0x100, 16, 0x0, 1, 64,
    [⟨63, 0, .rwl, 0⟩]⟩,
  ⟨.ctxTpoolCnt, 0x880028, 0x100, 16, 0x0, 1, 32,
    [⟨31, 0, .rwl, 0⟩]⟩,
  ⟨.ctxMapBase, 0x880030, 0x100, 16, 0x0, 1, 64,
    [⟨63, 0, .rwl, 0⟩]⟩,
  ⟨.ctxPoolCtl, 0x880038, 0x100, 16, 0x0, 1, 32,
    [⟨0, 0, .rw, 0⟩, ⟨1, 1, .ro, 0⟩]⟩,
  ⟨.ctxSwpCtl, 0x880040, 0x100, 16, 0x0, 1, 64,
    [⟨0, 0, .rw, 0⟩, ⟨1, 1, .rw, 0⟩, ⟨30, 8, .rw, 0⟩, ⟨54, 32, .rw, 0⟩]⟩,
  ⟨.ctxPoolFree, 0x880048, 0x100, 16, 0x0, 1, 64,
    [⟨23, 0, .ro, 0⟩, ⟨47, 24, .ro, 0⟩, ⟨63, 48, .ro, 0⟩]⟩,
  ⟨.ctxPrtCnt, 0x880050, 0x100, 16, 0x0, 1, 64,
    [⟨31, 0, .rw, 0⟩, ⟨63, 32, .rw, 0⟩]⟩,
  ⟨.ctxGsts, 0x888000, 0x0, 1, 0x0, 1, 64,
    [⟨10, 0, .ro, 0⟩, ⟨63, 32, .ro, 0⟩]⟩,
  ⟨.ctxSwpBw, 0x888008, 0x0, 1, 0x0, 1, 32,
    [⟨5, 0, .rw, 16⟩]⟩]

/-- The AGG block. -/
def regsAgg : List RegRow := [
  ⟨.aggSesSts, 0xA00000, 0x40, 64, 0x0, 1, 64,
    [⟨2, 0, .ro, 0⟩, ⟨3, 3, .ro, 0⟩, ⟨4, 4, .ro, 0⟩, ⟨6, 5, .ro, 0⟩, ⟨11, 8, .ro, 0⟩, ⟨16, 12, .ro, 0⟩, ⟨63, 32, .ro, 0⟩]⟩,
  ⟨.aggSesCnt, 0xA00008, 0x40, 64, 0x0, 1, 64,
    [⟨31, 0, .ro, 0⟩, ⟨63, 32, .ro, 0⟩]⟩,
  ⟨.aggSesRej, 0xA00010, 0x40, 64, 0x0, 1, 64,
    [⟨31, 0, .rw, 0⟩, ⟨55, 32, .rw, 0⟩, ⟨63, 56, .ro, 0⟩]⟩,
  ⟨.aggSesElem, 0xA00018, 0x40, 64, 0x0, 1, 64,
    [⟨34, 0, .ro, 0⟩]⟩,
  ⟨.aggGsts, 0xA01000, 0x0, 1, 0x0, 1, 32,
    [⟨6, 0, .ro, 0⟩]⟩]

/-- The PLY block. -/
def regsPly : List RegRow := [
  ⟨.plyBasMap, 0xC00000, 0x100, 16, 0x0, 1, 64,
    [⟨63, 0, .ro, 0⟩]⟩,
  ⟨.plyKeySts, 0xC00008, 0x100, 16, 0x0, 1, 32,
    [⟨8, 0, .ro, 0⟩, ⟨9, 9, .ro, 0⟩]⟩,
  ⟨.plyFltCnt, 0xC00010, 0x100, 16, 0x0, 1, 64,
    [⟨15, 0, .rw, 0⟩, ⟨31, 16, .rw, 0⟩, ⟨47, 32, .rw, 0⟩, ⟨63, 48, .rw, 0⟩]⟩,
  ⟨.plyDualCnt, 0xC00018, 0x100, 16, 0x0, 1, 32,
    [⟨31, 0, .rw, 0⟩]⟩,
  ⟨.plyLib, 0xC08000, 0x0, 1, 0x0, 1, 32,
    [⟨7, 0, .ro, 0⟩, ⟨31, 16, .ro, 0⟩]⟩,
  ⟨.plyLibent, 0xC09000, 0x40, 256, 0x0, 1, 512,
    []⟩,
  ⟨.plyBas, 0xC10000, 0x1000, 16, 0x40, 64, 512,
    []⟩]

/-- Every register of the device (R600). -/
def regTable : List RegRow :=
  regsIdn ++ regsGct ++ regsEvt ++ regsHqi ++ regsPrt ++ regsSec ++ regsRng ++ regsMem ++ regsIzk ++ regsPwr ++ regsClk ++ regsQre ++ regsCtx ++ regsAgg ++ regsPly

/-- The row of a register. -/
def regRow (r : Reg) : RegRow :=
  match regTable.find? (fun x => x.reg == r) with
  | some x => x
  | none => ⟨r, 0, 0, 0, 0, 0, 0, []⟩

/-- The address of instance `k`, sub-instance `j`. -/
def regAddr (r : Reg) (k : Nat := 0) (j : Nat := 0) : Nat :=
  let x := regRow r
  x.base + x.stride * k + x.stride2 * j

/-- The instance and sub-instance of a row that an address names by its first byte, or by any byte when `any`. -/
def rowAt (x : RegRow) (a : Nat) : Option (Nat × Nat × Nat) :=
  if a < x.base then none else
  let o := a - x.base
  let k := if x.stride = 0 then 0 else min (o / x.stride) (x.count - 1)
  let o1 := o - x.stride * k
  let j := if x.stride2 = 0 then 0 else min (o1 / x.stride2) (x.count2 - 1)
  let o2 := o1 - x.stride2 * j
  if k < x.count && o2 < x.width / 8 then some (k, j, o2) else none

/-- A register access resolved: its row, instance, sub-instance and the byte within the register. -/
structure RegHit where
  row : RegRow
  k : Nat
  j : Nat
  off : Nat
  deriving DecidableEq, Repr

/-- R600: the register an address lies in; `none` at a reserved address. -/
def regAt (a : Nat) : Option RegHit :=
  regTable.findSome? (fun x => (rowAt x a).map (fun t => ⟨x, t.1, t.2.1, t.2.2⟩))

/-- The reset value of a register as a whole. -/
def resetOf (x : RegRow) : Nat := x.fields.foldl (fun v f => v + f.rst * 2 ^ f.lo) 0

/-- The value at an address of the register table after COLD. -/
def resetAt (a : Nat) : Nat :=
  match regAt a with
  | some h => resetOf h.row
  | none => 0

/-- The mask of the implemented (not reserved) bits of a register. -/
def fieldMask (x : RegRow) : Nat := x.fields.foldl (fun v f => v + (2 ^ (f.hi + 1 - f.lo) - 1) * 2 ^ f.lo) 0

/-- The mask of the sticky bits (ROS and RWS) of a register (R10). -/
def stickyMask (x : RegRow) : Nat :=
  x.fields.foldl (fun v f => if f.acc = .ros || f.acc = .rws then v + (2 ^ (f.hi + 1 - f.lo) - 1) * 2 ^ f.lo else v) 0

end Sys2Proof.Machine
end

