-- ==== Sys2Proof/Machine/ServeState.lean ====
section
/-! DEFINITION. Serving contexts and models (Tables 07.1, 07.9). -/

namespace Sys2Proof.Machine

/-- Context states (R201). -/
inductive CtxSt where
  | idle
  | resident
  | active
  | swapped
  deriving DecidableEq, Repr

/-- A context table entry (Table 07.1). -/
structure Ctx where
  state : CtxSt := .idle
  instep : Bool := false
  moving : Bool := false
  sampled : Bool := false
  sampling : Bool := false
  deckle : Nat := 0
  model : Nat := 0
  compring : Nat := 0
  tokcap : Nat := 0
  generated : Nat := 0
  position : Nat := 0
  dir : Nat := 0
  tokbuf : Nat := 0
  pendingIn : Nat := 0
  genLimit : Nat := 0
  /-- MODE: 0 greedy, 1 sampling. -/
  mode : Nat := 0
  temp : Nat := 0
  topp : Nat := 0
  topk : Nat := 0
  chunk : Nat := 0
  nextToken : Nat := 0
  folios : Nat := 0
  lastStep : Nat := 0
  stops : List Nat := []
  readySeq : Nat := 0
  /-- CANCELs that wait for the step close (Table 07.2): ring and descriptor. -/
  cancelLater : List (Nat × Nat) := []
  /-- DETACHes that wait for the step or the move: ring and descriptor. -/
  detachLater : List (Nat × Nat) := []
  /-- A CANCEL or DETACH arrived during the open step (R215 step 2). -/
  stepStopped : Bool := false
  /-- The move in progress goes to HBM3E. -/
  moveIn : Bool := false
  /-- The C.SWAP that asked for the move: quire, stream, program order. -/
  mover : Option (Nat × Nat × Nat) := none
  /-- Destination units reserved for the move, in ascending folio index (R221). -/
  reserved : List Nat := []
  deriving DecidableEq, Repr

/-- Model record states (R223). -/
inductive ModelSt where
  | free
  | loading
  | loaded
  | unloading
  deriving DecidableEq, Repr

/-- A segment of a placement table (Table 07.6) with its assigned address. -/
structure Seg where
  obj : Nat
  src : Nat
  bytes : Nat
  tier : Nat
  rank : Nat
  addr : Nat := 0
  digest : List Byte := []
  deriving DecidableEq, Repr

/-- A model record (Table 07.9) with the load in progress. -/
structure Model where
  state : ModelSt := .free
  binds : Nat := 0
  kvb : Nat := 0
  hbytes : Nat := 0
  lbytes : Nat := 0
  ptable : Nat := 0
  segs : List Seg := []
  /-- HBM and LPDDR ranges: base and bytes. -/
  hbase : Nat := 0
  hsize : Nat := 0
  lbase : Nat := 0
  lsize : Nat := 0
  ring : Nat := 0
  desc : Nat := 0
  sspace : Nat := 0
  deriving DecidableEq, Repr

/-! ### Polynomial engine -/

/-- A registered key object (R258, R268): its address, size, kind, key set, basis and, for a gate key, LQ (R270). -/
structure PolyKey where
  addr : Nat
  size : Nat
  kind : Nat
  keyset : Nat
  basis : Nat
  lq : Nat := 0
  deriving DecidableEq, Repr

/-- A release that waits for the P. instructions before it (R260): ring, descriptor, and the ranges that return to ordinary use. -/
structure PolyRelease where
  ring : Nat
  desc : Nat
  ranges : List Nat
  deriving DecidableEq, Repr

/-- A registered basis with its slot (R231–R233). -/
structure BasisSlot where
  current : Bool := false
  gen : Nat := 0
  logn : Nat := 0
  l : Nat := 0
  k : Nat := 0
  alpha : Nat := 0
  scheme : Nat := 0
  t : Nat := 0
  mods : List Nat := []
  psis : List Nat := []
  area : Nat := 0
  areaSize : Nat := 0
  deriving DecidableEq, Repr

/-- The polynomial engine's state for one deckle. -/
structure Poly where
  bases : Tab BasisSlot := []
  keys : List PolyKey := []
  releases : List PolyRelease := []
  deriving DecidableEq, Repr

end Sys2Proof.Machine
end

