-- ==== Sys2Proof/Machine/State.lean ====
section
/-! DEFINITION. The whole state of the block, the reasons a command can stop, and the state right after a COLD reset. -/

namespace Sys2Proof.Machine

/-- No command of this block faults: every meaning answers a next state. -/
inductive Fault where
  /-- Raised by no meaning; safe. -/
  | unreachable
  deriving DecidableEq, Repr

/-- Why a command has no meaning. -/
inductive Refusal where
  /-- The command is not modelled yet, named by its mnemonic; raised by `exec`; safe. -/
  | notModelled (mnemonic : String)
  deriving DecidableEq, Repr

/-- The fuses (Table 16.3) and the spare quires they name (R23). -/
structure Fuses where
  drs : List Byte := []
  idseed : List Byte := []
  spdmPsk : List Byte := []
  pliacTk : List Byte := []
  kek : List Byte := []
  arb : Nat := 0
  lc : Nat := 2
  sealOnly : Bool := false
  vkeys : List (List Byte) := []
  vrev : List Bool := []
  serial : List Byte := []
  spares : List Nat := [17, 34, 51, 67]
  deriving DecidableEq, Repr

/-- An event ring of a function (R598): producer and head index. -/
structure EvRing where
  pi : Nat := 0
  head : Nat := 0
  deriving DecidableEq, Repr

/-- Event delivery and error collection. -/
structure Events where
  /-- Events raised and on their way to the collector, oldest first. -/
  pending : List Event := []
  /-- The collector's queue (R423), in sequence order. -/
  queue : List Event := []
  nextSeq : Nat := 0
  rings : Tab EvRing := []
  /-- Events that wait for the device to become ready (R586). -/
  deferred : List Event := []
  deriving DecidableEq, Repr

/-- The entropy complex. -/
structure Rng where
  failed : Bool := false
  /-- The boot sequence has started the sources (R448). -/
  started : Bool := false
  sources : Tab Source := []
  groups : Tab Group := []
  drbgs : Tab Drbg := []
  /-- Words of its block that each function's window still holds (R447). -/
  windows : Tab (List Nat) := []
  deriving DecidableEq, Repr

/-- The SPDM responder: sessions, IDE streams, a large request being received (handle, next number, bytes), a large response held
(handle, next number, bytes left), the next handle. -/
structure Spdm where
  sessions : Tab SpdmSession := []
  ide : Tab IdeStream := []
  chunkIn : Option (Nat × Nat × List Byte) := none
  chunkOut : Option (Nat × Nat × List Byte) := none
  nextHandle : Nat := 0
  deriving DecidableEq, Repr

/-- Serving contexts (R200, R223). -/
structure Serving where
  ctxs : Tab Ctx := []
  /-- Model records by 16 × deckle + number. -/
  models : Tab Model := []
  /-- Next READY_SEQ (R203), under key 0. -/
  readySeq : Tab Nat := []
  /-- Deckles whose automatic swap-out runs until HIGH is reached (R222). -/
  autoOut : List Nat := []
  deriving DecidableEq, Repr

/-- Work rings, functions and what the host side holds. -/
structure HostSide where
  rings : Tab Ring := []
  recQueue : List QueuedRec := []
  fns : Tab Function := []
  /-- VF Enable of the physical function. -/
  vfOn : Bool := false
  /-- Next tracking id. -/
  nextId : Nat := 0
  /-- Descriptors started (R366). -/
  starts : Nat := 0
  /-- The ring whose turn it is and the descriptors it may still fetch in it (R357). -/
  turn : Nat × Nat := (255, 0)
  /-- Host memory bytes that are not zero. -/
  mem : Tab Byte := []
  measured : List Measured := []
  deriving DecidableEq, Repr

/-- Izkai ports and the device-wide pools. -/
structure Izk where
  ports : Tab Port := []
  qps : Tab Qp := []
  cqs : Tab Cq := []
  mrs : Tab Mr := []
  /-- MR_DEREG of a deckle that drains, with its registration. -/
  drains : Tab Nat := []
  deriving DecidableEq, Repr

/-- The machine. -/
structure State where
  /-- Commands waiting, first in, first out. -/
  pending : List Instr := []
  /-- Model time in units of 100 ps: what an idle step advances. -/
  now : Nat := 0
  /-- CLK_TSC (R426). -/
  tsc : Nat := 0
  /-- Registers whose value differs from the reset value, by BAR0 address. -/
  regs : Tab Nat := []
  halfClears : List HalfClear := []
  latches : List Latch := []
  /-- What the block has sent to the outside, oldest first. -/
  out : List Output := []
  /-- How many free values have been taken. -/
  freeCount : Nat := 0
  /-- Mode SEALED (R455). -/
  sealed : Bool := false
  /-- The FE state (R505). -/
  fe : Bool := false
  fuses : Fuses := {}
  banks : Tab Bank := []
  boot : Boot := {}
  power : Power := {}
  pins : Tab Pin := []
  clk : Clk := {}
  /-- Logical quires (R23), by logical number. -/
  quires : Tab Quire := []
  /-- Physical quires, by physical number. -/
  phys : Tab Phys := []
  retireQueue : List Nat := []
  mesh : List MeshMsg := []
  waits : List Wait := []
  dram : Dram := {}
  ctls : Tab Controller := []
  zeros : Tab ZeroReq := []
  host : HostSide := {}
  spdm : Spdm := {}
  reports : List ReportJob := []
  deckles : Tab Deckle := []
  serving : Serving := {}
  poly : Tab Poly := []
  /-- Next SERIAL of a tag (R236). -/
  tagSerial : Nat := 1
  sessions : Tab Session := []
  rng : Rng := {}
  ev : Events := {}
  izk : Izk := {}
  mgt : Mgt := {}
  deriving DecidableEq, Repr

/-- Table 15.3: the groups at each reset. -/
def groupsAtReset : Tab Group :=
  [(0, { ka := .t, kb := .o, sb := .m }), (1, { ka := .o, kb := .m, sb := .t }),
   (2, { ka := .m, kb := .t, sb := .o }), (3, { ka := .t, kb := .o, sb := .m })]

/-- The image both flash banks hold in `State.reset` (DESIGN CHOICE, log entry 6): a sound image of sequence number 1. -/
def factoryImage : ImageInfo :=
  { size := 16777216, seq := 1, svn := 0, vkey := 0, vpubDigest := zeros 32,
    digests := [zeros 32, zeros 32, zeros 32, zeros 32], digest := zeros 32, sound := true }

/-- The fuses of `State.reset` (DESIGN CHOICE, log entry 6): DEPLOYED, every secret and the serial number zero. -/
def factoryFuses : Fuses :=
  { drs := zeros 32, idseed := zeros 48, spdmPsk := zeros 32, pliacTk := zeros 32, kek := zeros 32,
    vkeys := [zeros 32, zeros 32, zeros 32], vrev := [false, false, false], serial := zeros 16 }

/-- The machine right after a COLD reset (Table 20.1): the rails are up, PERST_N is asserted and the boot sequence has not
started. -/
def State.reset : State :=
  { fuses := factoryFuses
    banks := [(0, { image := some factoryImage }), (1, { image := some factoryImage })]
    pins := [(0, { raw := true, out := true })]
    rng := { groups := groupsAtReset } }

end Sys2Proof.Machine
end

