-- ==== Sys2Proof/Machine/Ops.lean ====
section
/-! DEFINITION. The named operations every family shares: registers, free values, outputs, host memory, completion records,
events, the FE state. -/

namespace Sys2Proof.Machine

/-- The outcome of a command. -/
abbrev Res := Host.Outcome State Fault Refusal

/-! ### Registers -/

/-- The value a register's table holds. -/
def rget (s : State) (r : Reg) (k : Nat := 0) (j : Nat := 0) : Nat := tget (resetOf (regRow r)) s.regs (regAddr r k j)

/-- Store a register's value. -/
def rset (s : State) (r : Reg) (v : Nat) (k : Nat := 0) (j : Nat := 0) : State :=
  { s with regs := tset (resetOf (regRow r)) s.regs (regAddr r k j) v }

/-- Field `[hi:lo]` of a register. -/
def fget (s : State) (r : Reg) (hi lo : Nat) (k : Nat := 0) (j : Nat := 0) : Nat := bits (rget s r k j) hi lo

/-- Store field `[hi:lo]` of a register. -/
def fset (s : State) (r : Reg) (hi lo v : Nat) (k : Nat := 0) (j : Nat := 0) : State :=
  rset s r (setBits (rget s r k j) hi lo v) k j

/-- Add to a counter field, which holds at its maximum. -/
def fadd (s : State) (r : Reg) (hi lo n : Nat) (k : Nat := 0) (j : Nat := 0) : State :=
  fset s r hi lo (satInc (hi + 1 - lo) (fget s r hi lo k j) n) k j

/-- A log record (R59, R502): stored whole where its VALID bit 0 is clear; otherwise LOST, at bit `lost`, is set. -/
def logRecord (s : State) (r : Reg) (k lost v : Nat) : State :=
  if fget s r 0 0 k = 1 then fset s r lost lost 1 k else rset s r v k

/-! ### Free values, time, outputs -/

/-- Take the next free value. -/
def takeFree (s : State) : Nat × State := (Config.free s.freeCount, { s with freeCount := s.freeCount + 1 })

/-- Send something to the outside. -/
def emit (s : State) (o : Output) : State := { s with out := s.out ++ [o] }

/-- A microsecond in TSC units. -/
def tscUs : Nat := 100

/-! ### Lookups -/

/-- Logical quire `q`. -/
def quire (s : State) (q : Nat) : Quire := tget {} s.quires q
/-- Store logical quire `q`. -/
def setQuire (s : State) (q : Nat) (x : Quire) : State := { s with quires := tset {} s.quires q x }
/-- Stream `st` of a quire. -/
def Quire.stream (x : Quire) (st : Nat) : Stream := tget {} x.streams st
/-- Store stream `st` of a quire. -/
def Quire.setStream (x : Quire) (st : Nat) (v : Stream) : Quire := { x with streams := tset {} x.streams st v }
/-- Stream `st` of logical quire `q`. -/
def stream (s : State) (q st : Nat) : Stream := (quire s q).stream st
/-- Store stream `st` of logical quire `q`. -/
def setStream (s : State) (q st : Nat) (v : Stream) : State := setQuire s q ((quire s q).setStream st v)
/-- Physical quire `p`. -/
def phys (s : State) (p : Nat) : Phys := tget {} s.phys p
/-- Store physical quire `p`. -/
def setPhys (s : State) (p : Nat) (x : Phys) : State := { s with phys := tset {} s.phys p x }
/-- The physical quire that holds logical number `q` (R23). -/
def physOf (s : State) (q : Nat) : Option Nat := (List.range 68).find? (fun p => decide ((phys s p).logical = some q))
/-- Deckle `d`. -/
def deckle (s : State) (d : Nat) : Deckle := tget {} s.deckles d
/-- Store deckle `d`. -/
def setDeckle (s : State) (d : Nat) (x : Deckle) : State := { s with deckles := tset {} s.deckles d x }
/-- Deckle `d` exists (R475): its PHASE is not NONE. -/
def deckleExists (s : State) (d : Nat) : Bool := decide ((deckle s d).phase ≠ .none)
/-- Some deckle exists. -/
def anyDeckle (s : State) : Bool := (List.range 16).any (deckleExists s)
/-- The deckle whose groups hold logical quire `q`: group `q / 4` (R28). -/
def deckleOfQuire (s : State) (q : Nat) : Option Nat :=
  (List.range 16).find? (fun d => deckleExists s d && bit (deckle s d).groups (q / 4))
/-- The logical quires of deckle `d`. -/
def quiresOf (s : State) (d : Nat) : List Nat := (List.range 64).filter (fun q => bit (deckle s d).groups (q / 4))
/-- Work ring `r`. -/
def ring (s : State) (r : Nat) : Ring := tget {} s.host.rings r
/-- Store work ring `r`. -/
def setRing (s : State) (r : Nat) (x : Ring) : State := { s with host.rings := tset {} s.host.rings r x }
/-- The function that owns ring `r`. -/
def ringFn (s : State) (r : Nat) : Nat := fget s .hqiRingCfg 20 16 r
/-- Function `f`. -/
def func (s : State) (f : Nat) : Function := tget {} s.host.fns f
/-- Store function `f`. -/
def setFunc (s : State) (f : Nat) (x : Function) : State := { s with host.fns := tset {} s.host.fns f x }
/-- Polynomial state of deckle `d`. -/
def polyOf (s : State) (d : Nat) : Poly := tget {} s.poly d
/-- Store it. -/
def setPoly (s : State) (d : Nat) (x : Poly) : State := { s with poly := tset {} s.poly d x }
/-- Memory controller `c`. -/
def ctl (s : State) (c : Nat) : Controller := tget {} s.ctls c
/-- Store it. -/
def setCtl (s : State) (c : Nat) (x : Controller) : State := { s with ctls := tset {} s.ctls c x }
/-- Izkai port `p`. -/
def port (s : State) (p : Nat) : Port := tget {} s.izk.ports p
/-- Store it. -/
def setPort (s : State) (p : Nat) (x : Port) : State := { s with izk.ports := tset {} s.izk.ports p x }
/-- Input filter `i`: 0 PERST_N, 1 PWRBRK_N, 2 THROT_N, 3 SHUTDN_N, 4 MGMT_EN, 5 JTAG_EN. -/
def pin (s : State) (i : Nat) : Pin := tget {} s.pins i
/-- Store it. -/
def setPin (s : State) (i : Nat) (x : Pin) : State := { s with pins := tset {} s.pins i x }

/-! ### Host memory -/

/-- Read host memory. -/
def hostRead (s : State) (a n : Nat) : List Byte := tslice blankByte s.host.mem a n
/-- Write host memory. -/
def hostWrite (s : State) (a : Nat) (bs : List Byte) : State := { s with host.mem := tputs blankByte s.host.mem a bs }

/-! ### MSI-X (R365) -/

/-- Table size of a function's MSI-X table (Table 12.1). -/
def msixSize (fn : Nat) : Nat := if fn = 0 then 32 else 30

/-- Send a vector; a masked, disabled or missing one sets its Pending Bit. -/
def sendMsix (s : State) (fn vec : Nat) : State :=
  let f := func s fn
  if f.msixEnable && !f.d3hot && decide (vec < msixSize fn) && f.unmasked.contains vec then emit s (.msix fn vec)
  else if f.pendingVec.contains vec then s
  else setFunc s fn { f with pendingVec := f.pendingVec ++ [vec] }

/-! ### Completion rings (R359–R365) -/

/-- Entries of completion ring `r`. -/
def cqSize (s : State) (r : Nat) : Nat := 2 ^ fget s .hqiCqCfg 51 48 r

/-- Free slots of completion ring `r` that no tracked descriptor has reserved. -/
def cqFree (s : State) (r : Nat) : Nat :=
  let x := ring s r
  cqSize s r - subMod (2 ^ 32) x.cqPi x.cqHead - x.tracked.length

/-- Signal completion ring `r` where IRQEN is 1: its vector, and every record becomes signalled. -/
def cqSignal (s : State) (r : Nat) : State :=
  if fget s .hqiCqCfg 0 0 r = 1 then
    sendMsix (setRing s r { ring s r with unsignalled := 0 }) (ringFn s r) (fget s .hqiCqCfg 8 4 r)
  else s

/-- Write one record: entry PI mod size, PHASE 1 on the first pass, then PI increments; MCOUNT and IRQ signal (R365). -/
def cqWrite (s : State) (r : Nat) (body : List Byte) (irq : Bool) : State :=
  let x := ring s r
  let n := cqSize s r
  let phase := b2n ((x.cqPi / n) % 2 == 0)
  let b := setNth body 0x0B (BitVec.ofNat 8 (phase + (fieldAt body 0x0B 1 / 2) * 2))
  let s1 := hostWrite s (fget s .hqiCqBase 63 12 r * 4096 + 32 * (x.cqPi % n)) b
  let s2 := setRing s1 r { x with cqPi := (x.cqPi + 1) % 2 ^ 32, unsignalled := x.unsignalled + 1 }
  if irq || x.unsignalled + 1 ≥ max 1 (fget s .hqiCqCfg 23 16 r) then cqSignal s2 r else s2

/-- R360: drop a record that has no place. -/
def cqLose (s : State) (r : Nat) : State := fset (fadd s .hqiCqSts 47 32 1 r) .hqiCqSts 49 49 1 r

/-- The records of the device-wide queue that still wait for ring `r` (R360), written while an unreserved slot is free. -/
def drainQueue : Nat → State → Nat → State
  | 0, s, _ => s
  | n + 1, s, r =>
    match findIx (fun q => q.ring == r) s.host.recQueue with
    | none => s
    | some i =>
      if (ring s r).state = .disabled then s
      else if cqFree s r = 0 then s
      else
        let q := nth ⟨r, []⟩ s.host.recQueue i
        drainQueue n (cqWrite { s with host.recQueue := dropNth s.host.recQueue i } r q.body false) r

/-- The queued records of a ring that becomes DISABLED are dropped (R360). -/
def dropQueued (s : State) (r : Nat) : State :=
  (s.host.recQueue.filter (fun q => q.ring == r)).foldl (fun s _ => cqLose s r)
    { s with host.recQueue := s.host.recQueue.filter (fun q => q.ring != r) }

/-- R360: write an unreserved record to ring `r`, queue it, or drop it. -/
def cqUnreserved (s : State) (r : Nat) (fn : Nat) (body : List Byte) : State :=
  if (ring s r).state = .disabled || ringFn s r != fn then cqLose s r
  else if cqFree s r > 0 && !s.host.recQueue.any (fun q => q.ring == r) then cqWrite s r body false
  else if s.host.recQueue.length < 4096 then { s with host.recQueue := s.host.recQueue ++ [⟨r, body⟩] }
  else cqLose s r

/-- Table 12.7, KIND 0: a request's record without PHASE. -/
def requestRecord (r : Nat) (d : Desc) (status fault value aux : Nat) : List Byte :=
  leBytes 8 (if d.version = 1 then fieldAt d.bytes 8 4 else fieldAt d.bytes 8 8)
    ++ leBytes 1 status ++ leBytes 1 fault ++ leBytes 1 0 ++ leBytes 1 0 ++ leBytes 2 r ++ leBytes 2 0
    ++ leBytes 8 value ++ leBytes 4 aux ++ leBytes 4 0

/-- The tracked descriptor `id` of ring `r`. -/
def findDesc (s : State) (r id : Nat) : Option Desc := (ring s r).tracked.find? (fun d => d.id == id)

/-- Table 12.4: a DRAINING or HALTED ring whose last tracked descriptor has completed becomes DISABLED while ENABLE is 0. -/
def ringSettle (s : State) (r : Nat) : State :=
  let x := ring s r
  if (x.state = .draining || x.state = .halted) && x.tracked.isEmpty && fget s .hqiRingCfg 0 0 r = 0 then
    dropQueued (setRing s r { x with state := .disabled }) r
  else s

/-- Complete descriptor `id` of ring `r`: its record (R359, R361), its tracking entry, and what its slot frees. -/
def complete (s : State) (r id status fault value : Nat) (aux : Nat := 0) : State :=
  match findDesc s r id with
  | none => s
  | some d =>
    let x := ring s r
    let s1 := setRing s r { x with tracked := x.tracked.filter (fun e => e.id != id) }
    let flags := fieldAt d.bytes 1 1
    let silent := d.version = 2 && bit flags 2 && status = 0 && fault = 0
    let s2 :=
      if d.dropped || x.state = .disabled then s1
      else if silent then drainQueue 4096 s1 r
      else cqWrite s1 r (requestRecord r d status fault value aux) (bit flags 0)
    ringSettle s2 r

/-- A descriptor has started; a DISPATCH starts when its stream does and waits until then (R358, R363). -/
def hasStarted (d : Desc) : Bool := d.started && (d.busy || fieldAt d.bytes 0 1 != 1)

/-- Fetched descriptors of a ring that have not started complete with a status (Table 12.4). -/
def flushUnstarted (s : State) (r status : Nat) : State :=
  ((ring s r).tracked.filter (fun d => !hasStarted d)).foldl (fun s d => complete s r d.id status 0 0) s

/-- An ACTIVE ring becomes HALTED (Table 12.4). -/
def haltRing (s : State) (r reason : Nat) : State :=
  let x := ring s r
  if x.state = .active then
    ringSettle (flushUnstarted (setRing s r { x with state := .halted, reason := reason }) r 1) r
  else s

/-! ### Measured objects (R368, R472) -/

/-- A failed load discards its object. -/
def dropObj (s : State) (d obj : Nat) (side : Option Nat) : State :=
  { s with host.measured := s.host.measured.filter (fun m => !(m.deckle == d && m.obj == obj && m.ring == side)) }

/-! ### Events (R494–R505) -/

/-- Build an event (Table 17.4). -/
def mkEvent (sev block inst code : Nat) (dk : Option Nat := none) (info : Nat := 0) : Event :=
  { sev := sev, block := block, inst := inst, code := code, dk := dk, info := info }

/-- The 32 bytes of a record for a destination: `pf` selects the PF copy of R501. -/
def recordBytes (e : Event) (pf sealed : Bool) (phase : Nat) : List Byte :=
  let hideAll := pf && sealed && e.dk.isSome
  let addr := if hideAll then none else e.addr
  let info := if hideAll then 0 else if sealed then e.info - (e.info &&& e.hide) else e.info
  leBytes 4 e.seq
    ++ leBytes 1 (e.sev + 4 * b2n e.dk.isSome + 8 * b2n e.nested + 16 * b2n e.escalated + 32 * b2n addr.isSome
        + 64 * b2n (e.addrIx && !hideAll) + 128 * phase)
    ++ leBytes 1 e.block ++ leBytes 2 e.inst ++ leBytes 1 e.code ++ leBytes 1 (e.dk.getD 0) ++ leBytes 6 e.time
    ++ leBytes 8 (addr.getD 0) ++ leBytes 4 info ++ leBytes 4 0

/-- Whether KCLK, and with it the collector and the management agent, runs (R416). -/
def kclkRuns (s : State) : Bool := !s.clk.lost.contains 3

/-- Main domain `d`: 0 ACLK, 1 FCLK, 2 SCLK, 3–10 HCLK0–7, 11 LCLK. -/
def domain (s : State) (d : Nat) : Domain := tget {} s.clk.domains d
/-- Store it. -/
def setDomain (s : State) (d : Nat) (x : Domain) : State := { s with clk.domains := tset {} s.clk.domains d x }
/-- A main domain receives its clock: it stops where both of its PLLs are unlocked (Table 14.2). -/
def domainRuns (s : State) (d : Nat) : Bool := (domain s d).primLocked || (domain s d).stbyLocked
/-- Reference `r` is present: 0 PCIE_REFCLK, 1 CORE_REFCLK, 2 SYS_REFCLK, 3 MGMT_REFCLK. -/
def refUp (s : State) (r : Nat) : Bool := !s.clk.lost.contains r

/-- R505 steps 3–6: issue stops and transmitters go idle while `fe` holds; rings halt; every key is zeroised. -/
def enterFE (s : State) : State :=
  if s.fe then s else
  let s1 := (List.range 256).foldl (fun s r => haltRing s r 0) { s with fe := true }
  { s1 with
    deckles := s1.deckles.map (fun p => (p.1, { p.2 with mek := none, ptk := [] }))
    izk.ports := s1.izk.ports.map (fun p => (p.1, { p.2 with keys := [] }))
    sessions := s1.sessions.map (fun p => (p.1, { p.2 with logKey := [] })) }

/-- R424: the order of delivery: higher severity first, then lower sequence number. -/
def evBefore (a b : Event) : Bool := decide (a.sev > b.sev) || (a.sev == b.sev && decide (a.seq < b.seq))

/-- Count a dropped record (R425). -/
def evLoss (s : State) (sev : Nat) : State := fadd s .evtLoss (16 * sev + 15) (16 * sev) 1

/-- The held record of the lowest severity that has the highest sequence number (R425). -/
def evVictim (q : List Event) : Option Event :=
  q.foldl (fun a e => match a with
    | none => some e
    | some b => if evBefore b e then some e else some b) none

/-- R425: insert an event into the collector's queue of 512 records. -/
def evInsert (s : State) (e : Event) : State :=
  if s.ev.queue.length < 512 then { s with ev.queue := s.ev.queue ++ [e] }
  else match evVictim s.ev.queue with
    | some v =>
      if v.sev < e.sev then
        evLoss { s with ev.queue := s.ev.queue.filter (fun x => x.seq != v.seq) ++ [e] } v.sev
      else evLoss s e.sev
    | none => evLoss s e.sev

/-- R599: the first-fatal record and its next-error field. -/
def evFatal (s : State) (e : Event) (fatal : Bool) : State :=
  if e.sev = 3 && fget s .evtFatal 33 32 0 = 0 then
    let b := recordBytes e true s.sealed 0
    (List.range 4).foldl (fun s k => rset s .evtFatal (fieldAt b (8 * k) 8) k) s
  else if e.sev = 3 || fatal then
    if fget s .evtFatalNext 0 0 = 1 then fset s .evtFatalNext 1 1 1
    else rset s .evtFatalNext (1 + 4 * e.sev + 2 ^ 8 * e.block + 2 ^ 16 * e.code + 2 ^ 32 * e.seq)
  else s

/-- R557: copy a record into the buffer of each subscription whose MASK has its severity. -/
def evSubscribe (s : State) (e : Event) : State :=
  let body := recordBytes e true s.sealed 0
  s.mgt.sessions.foldl (fun s p => match p.2.sub with
    | none => s
    | some b =>
      if !bit b.mask e.sev then s
      else if b.buffer.length + b.heldRecs < 256 then
        { s with mgt.sessions := tupd s.mgt.sessions p.1 { p.2 with sub := some { b with buffer := b.buffer ++ [body] } } }
      else
        fadd { s with mgt.sessions := tupd s.mgt.sessions p.1 { p.2 with sub := some { b with lost := b.lost + 1 } } }
          .gctMgtCnt 63 48 1) s

/-- R423: a record enters the collector: it is numbered, seen by QRE_ERR_NEXT, GCT_ALERT, the first-fatal record and the
subscriptions, and queued or dropped. -/
def evEnter (s : State) (e0 : Event) : State :=
  let e := { e0 with seq := s.ev.nextSeq, dests := 0 :: (match e0.dk with | some d => [d + 1] | none => []) }
  let s1 := { s with ev.nextSeq := (s.ev.nextSeq + 1) % 2 ^ 32 }
  let s2 := if e.toNext && fget s1 .qreErrNext 0 0 e.inst = 1 then fset (fset s1 .qreErrNext 47 16 e.seq e.inst) .qreErrNext 48 48 1 e.inst else s1
  let s3 := if e.sev ≥ 2 then fset s2 .gctAlert 2 2 1 else s2
  evInsert (evSubscribe (evFatal s3 e s.fe) e) e

/-- R491: raise an event: it takes its timestamp and goes to the collector's queues; an FE event is recorded at once and the
device enters the FE state (R505). -/
def raise (s : State) (e0 : Event) : State :=
  let e := { e0 with time := s.tsc % 2 ^ 48 }
  if e.sev = 3 then enterFE (if kclkRuns s then evEnter s e else evFatal s e s.fe)
  else if kclkRuns s then { s with ev.pending := s.ev.pending ++ [e] } else s

/-- R337: the consumption event of `block`, naming the DPA. -/
def raisePoison (s : State) (block inst : Nat) (dk : Option Nat) (dpa : Nat) : State :=
  raise s { mkEvent 2 block inst 0x30 dk with addr := some dpa }

end Sys2Proof.Machine
end

