-- ==== Sys2Proof/Machine/QreErr.lean ====
section
/-! DEFINITION. Error reports of the quires and requests for their retirement (R506–R515). -/

namespace Sys2Proof.Machine

/-- The deckle of logical quire `q`; 16, which no deckle is, where it has none. -/
def dkOf (s : State) (q : Nat) : Nat := (deckleOfQuire s q).getD 16

/-- A request to retire physical quire `p` (R515): refused for a spare, a retired or a fenced quire; ignored where one is
queued. -/
def requestRetire (s : State) (p : Nat) : State :=
  let x := phys s p
  if x.logical.isNone || x.retired || x.fenced then setPhys s p { x with result := 3 }
  else if s.retireQueue.contains p then s
  else { setPhys s p { x with busy := true } with retireQueue := s.retireQueue ++ [p] }

/-- R507: the retirement-class codes. -/
def retireClass (code info : Nat) : Bool := [2, 6, 8, 10, 11, 12].contains code || (code == 4 && !bit info 0)

/-- R506: an event of physical quire `p` while its window is open is nested and goes to QRE_ERR_NEXT. -/
def nestEvent (s : State) (p : Nat) (e : Event) : State × Event :=
  if !(phys s p).winOpen then (s, e)
  else if fget s .qreErrNext 0 0 p = 1 then (fset s .qreErrNext 1 1 1 p, { e with nested := true })
  else (rset s .qreErrNext (1 + 4 * e.sev + 16 * e.code) p, { e with nested := true, toNext := true })

/-- Raise an event of physical quire `p`. -/
def qreRaise (s : State) (p : Nat) (e : Event) : State :=
  let (s1, e1) := nestEvent s p e
  raise s1 e1

/-- R337: quire `p` has consumed a poisoned code word at a DPA. -/
def qrePoison (s : State) (p : Nat) (dk : Option Nat) (dpa : Nat) : State :=
  qreRaise s p { mkEvent 2 11 p 0x30 dk with addr := some dpa }

/-- R513: the bucket reaches LIMIT. -/
def bucketFull (s : State) (p : Nat) : State :=
  let dk := (phys s p).logical.bind (deckleOfQuire s)
  let s1 := qreRaise s p (mkEvent 2 11 p 0x10 dk (fget s .qreCeb 15 0 p))
  let s2 := fset s1 .qreCeb 15 0 0 p
  if fget s2 .qreErrCtl 16 16 p = 1 then requestRetire s2 p else s2

/-- R513: a corrected event of the quire enters its bucket. -/
def bucketAdd (s : State) (p : Nat) : State :=
  let s1 := fadd s .qreCeb 15 0 1 p
  if fget s1 .qreCeb 15 0 p ≥ max 1 (fget s1 .qreCeb 31 16 p) then bucketFull s1 p else s1

/-- R508: a retirement-class error opens the window, or, where it is open, requests retirement and closes it. -/
def windowHit (s : State) (p : Nat) : State :=
  let x := phys s p
  if x.winOpen then requestRetire (setPhys s p { x with winOpen := false }) p
  else setPhys s p { x with winOpen := true }

/-- An error of quire `p`: its event, then what its class and its bucket do. -/
def qreError (s : State) (p sev code : Nat) (info : Nat := 0) (hide : Nat := 0) (addr : Option Nat := none) : State :=
  let dk := (phys s p).logical.bind (deckleOfQuire s)
  let e := { mkEvent sev 11 p code dk info with hide := hide, addr := addr, addrIx := addr.isSome }
  let s1 := qreRaise s p e
  let s2 := if [1, 3, 5, 7, 9, 13].contains code then bucketAdd s1 p else s1
  if retireClass code info then windowHit s2 p else s2

/-- The physical quire of logical quire `q`; 68, which no quire is, where there is none. -/
def pOf (s : State) (q : Nat) : Nat := (physOf s q).getD 68

end Sys2Proof.Machine
end

