-- ==== Sys2Proof/Machine/Cells.lean ====
section
/-! DEFINITION. The cells of device memory: the physical address space, code words with their errors and poison, check lines
(R307–R311, R330–R336). -/

namespace Sys2Proof.Machine

/-! ### Physical addresses (R307–R311) -/

/-- Table 11.1: memory is present at a DPA. -/
def dpaExists (a : Nat) : Bool := decide (a < 0x4800000000) || (decide (0x8000000000 ≤ a) && decide (a < 0xFC00000000))

/-- A DPA of the LPDDR5X tier. -/
def isLp (a : Nat) : Bool := decide (0x8000000000 ≤ a)

/-- Bytes of a code word: 64 on HBM3E, 128 on LPDDR5X (R330, R331). -/
def cwSize (a : Nat) : Nat := if isLp a then 128 else 64

/-- The base of the code word that holds a DPA. -/
def cwBase (a : Nat) : Nat := a / cwSize a * cwSize a

/-- R310: the home controller of a DPA; 0–7 HBM3E stacks, 8–23 LPDDR5X controllers. -/
def ctlOf (a : Nat) : Nat :=
  if isLp a then
    let o := a - 0x8000000000
    8 + ((bits o 10 7 ^^^ bits o 22 19) ^^^ bits o 34 31)
  else (bits a 9 7 ^^^ bits a 20 18) ^^^ bits a 31 29

/-- R310 inverted: the DPA of code word `i` of a controller, in controller-local order. -/
def scrubDpa (c i : Nat) : Nat :=
  if c < 8 then
    let l := 64 * i
    let hi := l / 128
    hi * 1024 + (c ^^^ bits hi 10 8 ^^^ bits hi 21 19) * 128 + l % 128
  else
    let hi := i
    0x8000000000 + hi * 2048 + ((c - 8) ^^^ bits hi 11 8 ^^^ bits hi 23 20) * 128

/-- R310: the index of an LPDDR5X code word among those of its controller. -/
def localCw (a : Nat) : Nat := (a - 0x8000000000) / 2048

/-- R311: the home slice of a DPA. -/
def sliceOf (a : Nat) : Nat :=
  let c := ctlOf a
  let e := if c < 4 || (8 ≤ c && c < 16) then 0 else 1
  16 * e + (List.range 9).foldl (fun h k => h ^^^ bits a (4 * k + 10) (4 * k + 7)) 0

/-- The index of a granule in MEM_GOWN (Table 11.11). -/
def granuleOf (a : Nat) : Nat := if isLp a then 512 + (a - 0x8000000000) / 2 ^ 30 else a / 2 ^ 30

/-- The deckle that owns a DPA's granule. -/
def ownerOf (s : State) (a : Nat) : Option Nat :=
  match tget 0 s.dram.owner (granuleOf a) with
  | 0 => none
  | n + 1 => some n

/-! ### Ranges of frames -/

/-- A frame lies in one of the ranges. -/
def inRanges (l : List (Nat × Nat)) (f : Nat) : Bool := l.any (fun r => decide (r.1 ≤ f) && decide (f < r.1 + r.2))

/-- The ranges without `[f, f + n)`. -/
def delRange (l : List (Nat × Nat)) (f n : Nat) : List (Nat × Nat) :=
  l.flatMap (fun r =>
    let lo := min (r.1 + r.2) f
    let hi := max r.1 (f + n)
    (if r.1 < lo then [(r.1, lo - r.1)] else []) ++ (if hi < r.1 + r.2 then [(hi, r.1 + r.2 - hi)] else []))

/-- The ranges with `[f, f + n)`. -/
def addRange (l : List (Nat × Nat)) (f n : Nat) : List (Nat × Nat) := if n = 0 then l else delRange l f n ++ [(f, n)]

/-! ### Errors of code words (R330–R336, R341, R342) -/

/-- R341: list a frame as a retire candidate. -/
def retireAdd (s : State) (a reason : Nat) : State :=
  let f := a / 65536
  let used := (List.range 256).map (fun i => (fget s .memRetireEnt 0 0 i, fget s .memRetireEnt 39 16 i))
  if used.contains (1, f) then s
  else match findIx (fun u => u.1 == 0) used with
    | some i => rset s .memRetireEnt (1 + 2 * reason + 8 * b2n (isLp a) + 65536 * f) i
    | none => raise (fset s .memRetireSts 9 9 1) { mkEvent 0 7 (ctlOf a) 0x05 (ownerOf s a) with addr := some (f * 65536) }

/-- Record an error of a code word in MEM_ECC_LOG. -/
def eccLog (s : State) (cw kind nbytes : Nat) : State :=
  let o := ownerOf s cw
  logRecord s .memEccLog (ctlOf cw) 1
    (1 + 4 * kind + 32 * nbytes + 256 * o.getD 0 + 4096 * b2n o.isSome + 65536 * (cw / 64 % 2 ^ 34))

/-- R514: the leaky bucket of a frame. -/
def frameBucket (s : State) (a : Nat) : State :=
  let c := ctlOf a
  let f := a / 65536
  let x := ctl s c
  let level := match x.buckets.find? (fun b => b.frame == f) with
    | some b => b.level + 1
    | none => 1
  let rest := if x.buckets.any (fun b => b.frame == f) then x.buckets.map (fun b => if b.frame == f then ⟨f, level⟩ else b)
    else if x.buckets.length < 64 then x.buckets ++ [⟨f, level⟩]
    else
      let low := x.buckets.foldl (fun m b => min m b.level) (2 ^ 64)
      match findIx (fun (b : FrameBucket) => b.level == low) x.buckets with
      | some i => setNth x.buckets i ⟨f, level⟩
      | none => x.buckets
  if level ≥ max 1 (fget s .memCebCfg 7 0) then
    let s1 := setCtl s c { x with buckets := rest.filter (fun b => b.frame != f) }
    raise (retireAdd s1 a 2) { mkEvent 0 7 c 0x04 (ownerOf s a) with addr := some (f * 65536) }
  else setCtl s c { x with buckets := rest }

/-- The line of a code word is held in the Stock cache. -/
def lineHeld (s : State) (cw : Nat) : Bool := s.dram.cache.any (fun l => l.base == cw / 128 * 128)

/-- What DRAM holds for a code word comes to light as its line goes. -/
def surface (s : State) (cw : Nat) : State :=
  match tfind s.dram.under cw with
  | none => s
  | some bs => { s with dram.data := tputs blankByte s.dram.data cw bs, dram.under := tdel s.dram.under cw }

/-- The flip mask of R342 strikes the write of a code word if its controller is armed. -/
def flipAt (s : State) (cw : Nat) : State :=
  let c := ctlOf cw
  if fget s .memFlipPos 56 56 c = 0 then s else
  let n := min 6 (fget s .memFlipPos 50 48 c)
  let m := if isLp cw then 132 else 72
  let errs := (List.range n).foldl (fun (t : Tab Nat) k =>
    let p := fget s .memFlipPos (8 * k + 7) (8 * k) c % m
    tset 0 t p (tget 0 t p ^^^ fget s .memFlipVal (8 * k + 7) (8 * k) c)) (tget [] s.dram.errors cw)
  let s1 := { s with dram.errors := tset [] s.dram.errors cw errs }
  rset (fset s1 .memFlipPos 56 56 0 c) .memFlipAddr (cw / 64 % 2 ^ 34 + 2 ^ 63) c

/-- A code word holds poison (R332). -/
def isPoison (s : State) (cw : Nat) : Bool := s.dram.poison.contains cw

/-- Write a code word as poison. -/
def addPoison (s : State) (cw : Nat) : State :=
  if isPoison s cw then s else { s with dram.poison := s.dram.poison ++ [cw] }

/-- What a read of a code word finds. -/
inductive Decoded where
  | clean
  | corrected (n : Nat)
  | poisoned
  | uncorrectable
  | wild
  deriving DecidableEq, Repr

/-- The bytes of a code word in error when its check bytes are also XORed with the poison pattern (R332). -/
def poisonWeight (cw : Nat) (errs : Tab Nat) : Nat :=
  let (lo, n, pat) := if isLp cw then (128, 4, 0x5A) else (64, 8, 0xA5)
  let flipped := (List.range n).foldl (fun (t : Tab Nat) i => tset 0 t (lo + i) (tget 0 t (lo + i) % 256 ^^^ pat)) errs
  (flipped.filter (fun p => p.2 % 256 != 0)).length

/-- R330, R331, R332: decode the errors of a code word.  Its distance from a sound word and from a poisoned one decide, whichever of the
two was written. -/
def decodeCw (s : State) (cw : Nat) : Decoded :=
  let errs := tget [] s.dram.errors cw
  let n := (errs.filter (fun p => p.2 % 256 != 0)).length
  let m := poisonWeight cw errs
  if n = 0 then .clean
  else
    -- distances from a sound word and from poison
    let (sound, poison) := if isPoison s cw then (m, n) else (n, m)
    if isLp cw then
      if sound = 0 then .corrected 0 else if poison = 0 then .poisoned
      else if sound ≤ 1 then .corrected sound else if isPoison s cw || sound ≤ 3 then .uncorrectable else .wild
    else if poison ≤ 2 then .poisoned
    else if sound ≤ 3 then .corrected sound
    else if isPoison s cw || sound ≤ 5 then .uncorrectable else .wild

/-- The check bytes of poison (R332), as errors of a sound word. -/
def poisonErrs (cw : Nat) : Tab Nat :=
  let (lo, n, pat) := if isLp cw then (128, 4, 0x5A) else (64, 8, 0xA5)
  (List.range n).map (fun i => (lo + i, pat))

/-- The errors of a code word are gone: it has been written, or corrected. -/
def clearErrors (s : State) (cw : Nat) : State := { s with dram.errors := tset [] s.dram.errors cw [] }

/-- R597: `n` bytes of the tier of a DPA have been read: HBMRD or LPRD. -/
def dramRead (s : State) (a n : Nat) : State := fadd s .gctPrf 63 0 n (if isLp a then 3 else 2)

/-- An LPDDR5X code word's check line is in its controller's buffer of 64, or is read into it, the oldest leaving (Table 11.6). -/
def checkBuffer (s : State) (cw : Nat) : State :=
  if !isLp cw then s else
  let c := ctlOf cw
  let k := localCw cw / 16
  let x := ctl s c
  if x.checkBuf.contains k then s
  else setCtl (dramRead s cw 64) c { x with checkBuf := (if x.checkBuf.length < 64 then x.checkBuf else x.checkBuf.drop 1) ++ [k] }

/-- A code word is written to DRAM, whole or merged: its errors are gone, POISONED counts one written as poison, and an armed flip
mask strikes it (R342). -/
def writeCw (s : State) (cw : Nat) : State :=
  let s0 := clearErrors (checkBuffer s cw) cw
  let s1 := { s0 with dram.under := tdel s0.dram.under cw }
  flipAt (if isPoison s1 cw then fadd s1 .memEccCnt 63 48 1 (ctlOf cw) else s1) cw

/-- A code word is written as poison: under a line that the Stock cache holds only DRAM's copy of it is. -/
def putPoison (s : State) (cw : Nat) (under : Bool) : State :=
  if under then flipAt (fadd { s with dram.errors := tset [] s.dram.errors cw (poisonErrs cw) } .memEccCnt 63 48 1 (ctlOf cw)) cw
  else writeCw (addPoison s cw) cw

/-- R333, R339: a correctable error: written back, counted, logged, raised, and taken by the frame's bucket. -/
def eccCe (s : State) (cw kind n : Nat) (scrub : Bool) : State :=
  let c := ctlOf cw
  -- what the decoder corrects to is a sound word
  let s1 := clearErrors { s with dram.poison := s.dram.poison.filter (· != cw) } cw
  let s2 := if scrub then s1 else flipAt s1 cw
  let s3 := if n = 0 then s2 else eccLog (fadd s2 .memEccCnt 31 0 1 c) cw kind n
  if n = 0 then s3 else
  frameBucket (raise s3 { mkEvent 0 7 c 0x01 (ownerOf s cw) kind with addr := some cw }) cw

/-- R334, R339: an uncorrectable error: poisoned, counted, logged, listed. -/
def eccUc (s : State) (cw kind reason : Nat) (under : Bool := false) : State :=
  let c := ctlOf cw
  let s2 := putPoison s cw under
  retireAdd (eccLog (fadd s2 .memEccCnt 47 32 1 c) cw kind 0) cw reason

/-- A word decoded as poison though it was not written so is poison from then on. -/
def foundPoison (s : State) (cw : Nat) : State := clearErrors (addPoison s cw) cw

/-- A read of a code word whose errors no code promises to detect (R330, R331): a free value picks detection or a wrong
correction to free bytes, of as many bytes as the code corrects. -/
def eccWild (s : State) (cw kind reason : Nat) : State :=
  let (f, s1) := takeFree s
  if f % 2 = 0 then eccUc s1 cw kind reason
  else
    let (v, s2) := takeFree s1
    let s3 := { s2 with dram.data := tputs blankByte s2.dram.data cw (leBytes (cwSize cw) v) }
    eccCe s3 cw 0 (if isLp cw then 1 else 1 + f / 2 % 3) false

/-! ### Handlers' own state (R510) -/

/-- The inverted bits of the worst word of a cell array. -/
def worstWord (s : State) (c : Cell) : Nat :=
  let us := s.dram.upsets.filter (fun u => u.cell == c)
  us.foldl (fun (m : Nat) u => max m ((us.filter (fun v => v.word == u.word)).foldl (fun (a : Nat) v => a + v.bits) 0)) 0

/-- The upsets of a cell array are gone. -/
def dropCell (s : State) (c : Cell) : State := { s with dram.upsets := s.dram.upsets.filter (fun u => u.cell != c) }

/-- A handler relies on its state: an uncorrectable error in it escalates to FE, as HANDLER_FATAL naming the block and code of the event
being handled. -/
def handlerUse (s : State) (h : Handler) (block code : Nat) : State :=
  if s.dram.upsets.isEmpty then s else
  let s1 := dropCell s (.handler h)
  if worstWord s (.handler h) ≥ 2 then raise s1 { mkEvent 3 2 0 0x01 none (block + 256 * code) with escalated := true } else s1

/-- Upsets of a check line that its controller now reads: one bit is corrected, and an uncorrectable line makes its sixteen code words
poison (Table 17.6, CHECK_UC). -/
def checkLine (s : State) (cw : Nat) : State :=
  if !isLp cw || s.dram.upsets.isEmpty then s else
  let c := ctlOf cw
  let k := localCw cw / 16
  let n : Nat := s.dram.upsets.foldl (fun a u => if u.cell == .check c k then a + u.bits else a) 0
  if n = 0 || (ctl s c).checkBuf.contains k then s
  else
    let s1 := { s with dram.upsets := s.dram.upsets.filter (fun u => u.cell != .check c k) }
    if n = 1 then
      raise (eccLog (fadd s1 .memEccCnt 31 0 1 c) cw 5 1) { mkEvent 0 7 c 0x01 (ownerOf s cw) 5 with addr := some cw }
    else
      let s2 := (List.range 16).foldl (fun s i =>
        let w := scrubDpa c (16 * k + i)
        putPoison s w (lineHeld s w && w != cw)) s1
      raise (eccLog (fadd s2 .memEccCnt 47 32 1 c) cw 5 0) { mkEvent 2 7 c 0x03 (ownerOf s cw) with addr := some cw }

/-- A read of one code word in DRAM (R333, R334). -/
def touchCw (s0 : State) (cw : Nat) : State :=
  let s := dramRead (checkBuffer (checkLine s0 cw) cw) cw (cwSize cw)
  match decodeCw s cw with
  | .clean => s
  | .poisoned => foundPoison s cw
  | .corrected n => eccCe s cw 0 n false
  | .uncorrectable => eccUc s cw 1 1
  | .wild => eccWild s cw 1 1

/-- The first poisoned code word of a DPA range. -/
def poisonIn (s : State) (a n : Nat) : Option Nat :=
  (s.dram.poison.filter (fun c => overlaps (c, cwSize c) (a, n))).foldl (fun m c => match m with
    | none => some c
    | some b => some (min b c)) none

end Sys2Proof.Machine
end

