-- ==== Sys2Proof/Machine/Cache.lean ====
section
/-! DEFINITION. The Stock cache and the L1 data caches: lines, ways, replacement, write-back, the directory, their upset cells
(R321–R324, R493). -/

namespace Sys2Proof.Machine

/-- How an access reaches device memory: whether a miss allocates (Table 11.4), the deckle it is made for plus 1, and the physical quire
whose L1 data cache it goes through. -/
structure Via where
  alloc : Bool
  dk : Nat := 0
  l1 : Option Nat := none
  deriving DecidableEq, Repr

/-- The line that holds a DPA. -/
def lineOf (a : Nat) : Nat := a / 128 * 128

/-- R311: the set of a line within its slice. -/
def setOf (a : Nat) : Nat := bits a 39 11 % 1536

/-- R330, R331: the code words of a line. -/
def cwsOfLine (base : Nat) : List Nat := if isLp base then [base] else [base, base + 64]

/-- R332: the poison bits of the two halves of a line. -/
def poisonBits (s : State) (base : Nat) : Bool × Bool :=
  (isPoison s (cwBase base), isPoison s (cwBase (base + 64)))

/-- The deckle for which a line of H0 is held (R324). -/
def heldFor (s : State) (v : Via) (base : Nat) : Nat := if s.sealed && decide (base < 2 ^ 30) then v.dk else 0

/-- The line as the cache holds it. -/
def findLine (s : State) (v : Via) (base : Nat) : Option CacheLine :=
  s.dram.cache.find? (fun l => l.base == base && l.dk == heldFor s v base)

/-- R324: the ways that an access may search and fill. -/
def wayMask (s : State) (v : Via) : Nat := if s.sealed && v.dk != 0 then (deckle s (v.dk - 1)).ways % 65536 else 65535

/-- The number of a line's set among all slices'. -/
def setIx (base : Nat) : Nat := sliceOf base * 1536 + setOf base

/-! ### Tree pseudo-LRU (R321) -/

/-- The 15 bits of a set are a binary tree over its ways, node 1 its root and node n over nodes 2n and 2n + 1: a bit points to the side
to replace next, and a side without a way of the mask is passed over. -/
def plruVictim (tree mask : Nat) : Nat → Nat → Nat
  | 0, n => n - 16
  | k + 1, n =>
    let side := 2 * n + b2n (bit tree n)
    let has (m : Nat) : Bool := (List.range (2 ^ k)).any (fun i => bit mask (m * 2 ^ k + i - 16))
    plruVictim tree mask k (if has side then side else side ^^^ 1)

/-- A way has been used: the bits above it point away from it. -/
def plruUse (tree way : Nat) : Nat :=
  (List.range 4).foldl (fun t i => setBits t ((16 + way) / 2 ^ (i + 1)) ((16 + way) / 2 ^ (i + 1)) (b2n (!bit (16 + way) i))) tree

/-- A slice's use of a line. -/
def useWay (s : State) (base way : Nat) : State :=
  { s with dram.plru := tset 0 s.dram.plru (setIx base) (plruUse (tget 0 s.dram.plru (setIx base)) way) }

/-! ### Lines leave and enter -/

/-- Change a line that the cache holds. -/
def modLine (s : State) (l : CacheLine) (h : CacheLine → CacheLine) : State :=
  { s with dram.cache := s.dram.cache.map (fun x => if x.base == l.base && x.dk == l.dk then h x else x) }

/-- The line leaves without a write-back. -/
def dropLine (s : State) (l : CacheLine) : State :=
  (cwsOfLine l.base).foldl surface { s with
    dram.cache := s.dram.cache.filter (fun x => !(x.base == l.base && x.dk == l.dk))
    dram.upsets := s.dram.upsets.filter (fun u => match u.cell with
      | .slice d b => !(d == l.dk && b == l.base)
      | .tag _ d b => !(d == l.dk && b == l.base)
      | .l1 _ b => b != l.base
      | .check _ _ | .flit _ | .handler _ => true) }

/-! ### Upset cells (R493) -/

/-- The flipped bits of a word of a cell array. -/
def cellBits (s : State) (c : Cell) (word : Nat) : Nat :=
  s.dram.upsets.foldl (fun a u => if u.cell == c && u.word == word then a + u.bits else a) 0

/-- Forget the upsets of words of an array. -/
def clearCells (s : State) (c : Cell) (words : Nat → Bool) : State :=
  { s with dram.upsets := s.dram.upsets.filter (fun u => !(u.cell == c && words u.word)) }

/-- The upset words of an array that lie in bytes `[off, off + n)` of the line. -/
def cellWords (s : State) (c : Cell) (off n : Nat) : List Nat :=
  (List.range 16).filter (fun w => decide (8 * w < off + n) && decide (off < 8 * w + 8) && cellBits s c w != 0)

/-- An event of the slice of a line. -/
def sliceRaise (s : State) (sev code base : Nat) : State :=
  raise s { mkEvent sev 7 (32 + sliceOf base) code (ownerOf s base) with addr := some base }

/-- A slice looks a line up: a tag whose parity fails is rewritten from its duplicate; where both fail the device enters FE. -/
def tagRead (s : State) (l : CacheLine) : State :=
  let one := Cell.tag false l.dk l.base
  let both := Cell.tag true l.dk l.base
  if s.dram.upsets.any (fun u => u.cell == both) then
    raise (clearCells s both (fun _ => true)) (mkEvent 3 2 0 3 none (sliceOf l.base))
  else if s.dram.upsets.any (fun u => u.cell == one) then sliceRaise (clearCells s one (fun _ => true)) 0 8 l.base
  else s

/-- A slice reads a word of a line: corrected, refetched from a clean line, or its code word poisoned on a dirty one. -/
def sliceWord (l : CacheLine) (s : State) (w : Nat) : State :=
  let c := Cell.slice l.dk l.base
  if cellBits s c w = 1 then sliceRaise (clearCells s c (· == w)) 0 8 l.base
  else if l.dirty then sliceRaise (addPoison (clearCells s c (· == w)) (cwBase (l.base + 8 * w))) 1 9 l.base
  else (cwsOfLine l.base).foldl (fun s c => surface (touchCw s c) c) (sliceRaise (clearCells s c (fun _ => true)) 0 8 l.base)

/-- A line's data leaves the L1 data cache that holds it modified and merges into the slice (R321, R323, Table 17.3): its words are
decoded on the way. -/
def l1Merge (s : State) (l : CacheLine) : State :=
  match l.l1Mod with
  | none => s
  | some p =>
    let c := Cell.l1 p l.base
    let s1 := (cellWords s c 0 128).foldl (fun s w =>
      if cellBits s c w = 1 then qreError s p 0 0x0D else qreError (addPoison s (cwBase (l.base + 8 * w))) p 2 0x0B) s
    modLine (clearCells s1 c (fun _ => true)) l (fun x => { x with dirty := true, l1Mod := none })

/-- A slice reads bytes of a line it holds. -/
def sliceRead (s : State) (l : CacheLine) (off n : Nat) : State :=
  if s.dram.upsets.isEmpty then s else (cellWords s (.slice l.dk l.base) off n).foldl (sliceWord l) (tagRead s l)

/-! ### Lines leave and enter -/

/-- One full write of a line's code words to its controller. -/
def writeBack (s : State) (base : Nat) : State := (cwsOfLine base).foldl writeCw s

/-- R321: a line leaves its slice: L1 copies are invalidated, their dirty data merged first, and a dirty line leaves as one 128-byte
write. -/
def evictLine (s : State) (l : CacheLine) : State :=
  if l.dirty || l.l1Mod.isSome then dropLine (writeBack (sliceRead (l1Merge s l) { l with dirty := true } 0 128) l.base) l
  else dropLine s l

/-- A line enters the L1 data cache of a quire, which holds 2,048 lines (Table 01.3): the oldest leaves where it is full. -/
def l1Enter (s : State) (p base : Nat) : State :=
  let held := s.dram.cache.filter (fun l => l.l1.contains p)
  let s1 := if held.length < 2048 then s else match held.head? with
    | some l => modLine (if l.l1Mod = some p then l1Merge s l else s) l (fun x => { x with l1 := x.l1.filter (· != p) })
    | none => s
  { s1 with dram.cache := s1.dram.cache.map (fun l => if l.base == base && !l.l1.contains p then { l with l1 := l.l1 ++ [p] } else l) }

/-- A line enters: in the lowest allowed way that is free, else in the one replaced. -/
def fillLine (s : State) (v : Via) (base : Nat) : State :=
  let mask := wayMask s v
  if mask = 0 then s else
  let here := s.dram.cache.filter (fun l => setIx l.base == setIx base)
  let free := (List.range 16).find? (fun w => bit mask w && !here.any (fun l => l.way == w))
  let way := free.getD (plruVictim (tget 0 s.dram.plru (setIx base)) mask 4 1)
  let s1 := (here.filter (fun l => l.way == way)).foldl evictLine s
  useWay { s1 with dram.cache := s1.dram.cache ++ [{ base := base, dk := heldFor s v base, way := way, dirty := false }] } base way

/-- Every line that satisfies `p` is written back and invalidated. -/
def flushLines (s : State) (p : CacheLine → Bool) : State := (s.dram.cache.filter p).foldl evictLine s

/-- An L1 data cache is written back and invalidated. -/
def l1Flush (s : State) (p : Nat) : State :=
  let s1 := (s.dram.cache.filter (fun l => l.l1Mod == some p)).foldl l1Merge s
  { s1 with
    dram.cache := s1.dram.cache.map (fun l => { l with l1 := l.l1.filter (· != p) })
    dram.upsets := s1.dram.upsets.filter (fun u => match u.cell with
      | .l1 x _ => x != p
      | .slice _ _ | .tag _ _ _ | .check _ _ | .flit _ | .handler _ => true) }

/-! ### Accesses -/

/-- An L1 data cache reads bytes of a line it holds (Table 17.3). -/
def l1Read (s : State) (p : Nat) (l : CacheLine) (off n : Nat) : State :=
  let c := Cell.l1 p l.base
  (cellWords s c off n).foldl (fun s w =>
    if cellBits s c w = 1 then qreError (clearCells s c (· == w)) p 0 0x0D
    else if l.l1Mod = some p then l1Merge s l
    else sliceRead (qreError (clearCells s c (fun _ => true)) p 0 0x0D) l off n) s

/-- R597: an access of a slice meets its line there, or does not: SCHIT or SCMISS. -/
def sliceCount (s : State) (hit : Bool) : State := fadd s .gctPrf 63 0 1 (if hit then 0 else 1)

/-- A read of bytes `[off, off + n)` of a line: by the L1 that holds it, by the slice, or, on a miss, from DRAM. -/
def readLine (v : Via) (s : State) (base off n : Nat) : State :=
  let enter (s : State) : State := match v.l1 with
    | some p => l1Enter s p base
    | none => s
  match findLine s v base with
  | some l =>
    match v.l1.filter l.l1.contains with
    | some p => l1Read s p l off n
    | none => enter (sliceRead (useWay (l1Merge (sliceCount s true) l) base l.way) { l with dirty := l.dirty || l.l1Mod.isSome } off n)
  | none =>
    let fresh := inRanges s.dram.fresh (base / 65536)
    let s1 := sliceCount s false
    if v.alloc then enter (fillLine (if fresh then s1 else (cwsOfLine base).foldl touchCw s1) v base)
    else if fresh then s1
    else ((cwsOfLine base).filter (fun c => overlaps (c, cwSize c) (base + off, n))).foldl touchCw s1

/-- The bytes are stored: a code word that they cover whole is poison no longer (R336). -/
def storeBytes (s : State) (a : Nat) (bs : List Byte) : State :=
  { s with
    dram.data := tputs blankByte s.dram.data a bs
    dram.poison := s.dram.poison.filter (fun c => !(decide (a ≤ c) && decide (c + cwSize c ≤ a + bs.length))) }

/-- Bytes of a line that its slice, or the L1 of the writing quire, holds are replaced: words that are replaced whole need no
decoding; every other copy in an L1 is invalidated. -/
def cacheWrite (v : Via) (s : State) (l : CacheLine) (a : Nat) (bs : List Byte) : State :=
  let off := a - l.base
  let n := bs.length
  let whole (w : Nat) : Bool := decide (off ≤ 8 * w) && decide (8 * w + 8 ≤ off + n)
  let own := v.l1.filter (fun p => l.l1Mod == some p)
  let c := match own with
    | some p => Cell.l1 p l.base
    | none => Cell.slice l.dk l.base
  let s1 := if own.isSome then s else useWay (l1Merge (sliceCount s true) l) l.base l.way
  let s2 := if s1.dram.upsets.isEmpty then s1
    else
      let part := (cellWords s1 c off n).filter (fun w => !whole w)
      let l' := { l with dirty := l.dirty || l.l1Mod.isSome }
      clearCells (match own with
        | some p => part.foldl (fun s w => l1Read s p l (8 * w) 8) s1
        | none => part.foldl (sliceWord l') (tagRead s1 l)) c whole
  let s3 := match v.l1 with
    | some p => modLine (l1Enter s2 p l.base) l (fun x => { x with l1 := [p], l1Mod := some p })
    | none => modLine s2 l (fun x => { x with l1 := [], l1Mod := none, dirty := true })
  storeBytes s3 a bs

/-- Bytes inside one code word are written to its controller: directly where they are all of it, else by a read-modify-write
(R335, R336). -/
def putCw (s : State) (a : Nat) (bs : List Byte) : State :=
  let cw := cwBase a
  if bs.length = cwSize a then writeCw (storeBytes s a bs) cw
  else
    let s1 := touchCw s cw
    if !isPoison s cw && isPoison s1 cw && decodeCw s cw != .poisoned then
      -- counted in POISONED already
      flipAt (clearErrors (storeBytes (raise s1 { mkEvent 1 7 (ctlOf cw) 0x0A (ownerOf s cw) with addr := some cw }) a bs) cw) cw
    else writeCw (storeBytes s1 a bs) cw

/-- Bytes inside one line are written: in the cache where it holds the line, by filling it where the writer allocates, else at the
controller. -/
def putLine (v : Via) (s : State) (a : Nat) (bs : List Byte) : State :=
  let base := lineOf a
  match findLine s v base with
  | some l => cacheWrite v s l a bs
  | none =>
    let s0 := sliceCount s false
    let s1 := if !v.alloc then s0 else fillLine (if bs.length = 128 then s0 else (cwsOfLine base).foldl touchCw s0) v base
    match findLine s1 v base with
    | some l => cacheWrite v s1 l a bs
    | none =>
      let k := min bs.length (cwBase a + cwSize a - a)
      let s2 := putCw s1 a (bs.take k)
      if k = bs.length then s2 else putCw s2 (a + k) (bs.drop k)

end Sys2Proof.Machine
end

