-- ==== Sys2Proof/Machine/MemOps.lean ====
section
/-! DEFINITION. Device memory as the agents use it: writes, zeros, translation, access checks, zero engines (R312–R320). -/

namespace Sys2Proof.Machine

/-! ### Writes -/

/-- R186, R187: a write of a word that a waiting X.WAIT or X.BAR watches. -/
def notify (s : State) (a n : Nat) : State :=
  { s with waits := s.waits.map (fun w =>
      if overlaps (w.dpa, w.width) (a, n) then
        let v := leNat (tslice blankByte s.dram.data w.dpa w.width)
        let holds := if w.isBar then v != w.target else if w.cmpEq then v == w.target else decide (v ≥ w.target)
        { w with last := v, met := if w.met.isNone && holds then some v else w.met }
      else w) }

/-- Store bytes at consecutive DPAs, line by line. -/
def putGo (v : Via) : Nat → State → Nat → List Byte → State
  | 0, s, _, _ => s
  | _, s, _, [] => s
  | k + 1, s, a, bs =>
    let room := lineOf a + 128 - a
    putGo v k (putLine v s a (bs.take room)) (a + room) (bs.drop room)

/-- Zero a DPA range by whole code words: it clears poison and leaves no frame fresh (R320).  A line that the cache holds is zeroed
there; every other code word is written to its controller, where an armed flip mask strikes the first. -/
def memZero (s : State) (a n : Nat) : State :=
  let gone (c : Nat) : Bool := decide (a ≤ c) && decide (c < a + n)
  let held := s.dram.cache.filter (fun l => gone l.base)
  let here (c : Nat) : Bool := gone c && !held.any (fun l => l.base == lineOf c)
  let s1 := { s with
    dram.data := tclear s.dram.data a n
    dram.poison := s.dram.poison.filter (fun c => !gone c)
    dram.errors := s.dram.errors.filter (fun p => !here p.1)
    dram.fresh := delRange s.dram.fresh (a / 65536) (ceilDiv n 65536)
    dram.cache := s.dram.cache.map (fun l => if gone l.base then { l with l1 := [], l1Mod := none, dirty := true } else l)
    dram.upsets := s.dram.upsets.filter (fun u => match u.cell with
      | .slice _ b => !gone b
      | .l1 _ b => !gone b
      | .tag _ _ _ | .check _ _ | .flit _ | .handler _ => true) }
  let first := (List.range (min (32 * (held.length + 1)) (ceilDiv n 64))).map (fun i => cwBase (a + 64 * i))
  notify ((first.filter here).foldl flipAt s1) a n

/-- Write a DPA range; the first write to a fresh frame zero-fills it first (R319). -/
def memPut (s : State) (v : Via) (a : Nat) (bs : List Byte) : State :=
  if bs.isEmpty then s else
  let f := a / 65536
  let s1 := ((List.range ((a + bs.length - 1) / 65536 + 1 - f)).filter (fun i => inRanges s.dram.fresh (f + i))).foldl
    (fun s i => memZero s ((f + i) * 65536) 65536) s
  notify (putGo v (bs.length / 128 + 2) s1 a bs) a bs.length

/-- A move of poisoned data writes a code word as poison (R337): in the line that the cache holds, or at the controller. -/
def poisonWord (s : State) (v : Via) (cw : Nat) : State :=
  if isPoison s cw then s
  else
    let s1 := addPoison s cw
    match findLine s v (lineOf cw) with
    | some _ => s1
    | none => fadd s1 .memEccCnt 63 48 1 (ctlOf cw)

/-- The pieces of a DPA range, line by line: address and length. -/
def linePieces (a n : Nat) : List (Nat × Nat) :=
  if n = 0 then [] else
  (List.range ((a + n + 127) / 128 - a / 128)).map (fun i =>
    let b := max a (lineOf a + 128 * i)
    (b, min (a + n) (lineOf a + 128 * i + 128) - b))

/-- The reads of every line of a DPA range. -/
def touchRange (s : State) (v : Via) (a n : Nat) : State :=
  (linePieces a n).foldl (fun s p => readLine v s (lineOf p.1) (p.1 - lineOf p.1) p.2) s

/-- Set FRESH on every frame of a DPA range: every read returns zeros, and nothing is written (R318, R478); the cache holds none of
it. -/
def memFresh (s : State) (a n : Nat) : State :=
  let gone (c : Nat) : Bool := decide (a ≤ c) && decide (c < a + n)
  let s1 := (s.dram.cache.filter (fun l => gone l.base)).foldl dropLine s
  { s1 with
    dram.data := tclear s.dram.data a n
    dram.poison := s.dram.poison.filter (fun c => !gone c)
    dram.errors := s.dram.errors.filter (fun p => !gone p.1)
    dram.fresh := addRange s.dram.fresh (a / 65536) (n / 65536) }

/-- The pieces of a DPA range whose frames are not fresh, which a zero engine writes (R320). -/
def staleOf (s : State) (g : Nat × Nat) : List (Nat × Nat) :=
  let f := g.1 / 65536
  let left := s.dram.fresh.foldl (fun l r => l.flatMap (fun x => delRange [x] r.1 r.2)) [(f, (g.1 + g.2 + 65535) / 65536 - f)]
  left.map (fun x =>
    let a := max g.1 (x.1 * 65536)
    (a, min (g.1 + g.2) ((x.1 + x.2) * 65536) - a))

/-! ### Translation (R312–R316) -/

/-- What a walk finds. -/
inductive Walk where
  | miss
  | hit (dpa : Nat) (w : Bool)
  | poison (dpa : Nat)
  deriving DecidableEq, Repr

/-- The translation area of deckle `d`. -/
def xltBase (s : State) (d : Nat) : Nat := fget s .memXltBase 63 16 d * 65536
/-- Its size in bytes. -/
def xltSize (s : State) (d : Nat) : Nat := rget s .memXltSize d * 65536
/-- MEM_DCTL.ENABLE of deckle `d`. -/
def xltOn (s : State) (d : Nat) : Bool := fget s .memDctl 0 0 d == 1

/-- A table entry. -/
def entryAt (s : State) (a : Nat) : Nat := leNat (tslice blankByte s.dram.data a 8)

/-- DPA of the level-1 entry of a deckle address. -/
def l1At (s : State) (d va : Nat) : Nat := xltBase s d + 8 * bits va 39 30
/-- DPA of the level-2 entry, given the level-1 entry. -/
def l2At (e1 va : Nat) : Nat := e1 / 4096 * 4096 + 8 * bits va 29 21
/-- DPA of the level-3 entry, given the level-2 entry. -/
def l3At (e2 va : Nat) : Nat := e2 / 256 * 256 + 8 * bits va 20 16

/-- R312: the walk of a deckle address. -/
def walk (s : State) (d va : Nat) : Walk :=
  if va ≥ 2 ^ 40 || !xltOn s d then .miss else
  let a1 := l1At s d va
  if isPoison s (cwBase a1) then .poison (cwBase a1) else
  let e1 := entryAt s a1
  if !bit e1 0 then .miss else
  let a2 := l2At e1 va
  if isPoison s (cwBase a2) then .poison (cwBase a2) else
  let e2 := entryAt s a2
  if !bit e2 0 then .miss
  else if bit e2 1 then .hit (e2 / 2 ^ 21 * 2 ^ 21 + va % 2 ^ 21) (bit e2 2)
  else
    let a3 := l3At e2 va
    if isPoison s (cwBase a3) then .poison (cwBase a3) else
    let e3 := entryAt s a3
    if !bit e3 0 then .miss else .hit (e3 / 65536 * 65536 + va % 65536) (bit e3 2)

/-- How a walk made for deckle `d` reads the tables (Table 11.4). -/
def walkVia (d : Nat) : Via := { alloc := true, dk := d + 1 }

/-- The read of a table entry. -/
def entryRead (s : State) (d a : Nat) : State := touchRange s (walkVia d) a 8

/-- The reads of a walk. -/
def walkTouch (s : State) (d va : Nat) : State :=
  if va ≥ 2 ^ 40 || !xltOn s d then s else
  let a1 := l1At s d va
  let s1 := entryRead s d a1
  let e1 := entryAt s1 a1
  if !bit e1 0 || isPoison s1 (cwBase a1) then s1 else
  let a2 := l2At e1 va
  let s2 := entryRead s1 d a2
  let e2 := entryAt s2 a2
  if !bit e2 0 || bit e2 1 || isPoison s2 (cwBase a2) then s2 else entryRead s2 d (l3At e2 va)

/-- What the declaring rule of a protected range lets an agent do (R141, R211, R259, R304, R313). -/
def permits (p : Prot) (a : Agent) (write : Bool) : Bool :=
  a == .engine || a == .swap || match p.kind with
  | .program => !write
  | .pool => !write || a == .ctx
  | .basis => a == .poly && !write
  | .key => a == .poly && !write
  | .session => a == .agg
  | .aggResult => a == .agg
  | .inbox =>
    if write then a == .agg || a == .dcopy || a == .hostDma || a == .bar2 || a == .izkai
    else a == .agg || (a == .poly && p.rlwe)
  | .xlt => false

/-- The first deckle address of `[va, va + n)`, mapped from `dpa`, that a protected range forbids (R316 step 3). -/
def forbidden (s : State) (d : Nat) (a : Agent) (write : Bool) (va dpa n : Nat) : Option Nat :=
  ((deckle s d).prot.filter (fun p => !permits p a write
      && overlaps (p.base, p.len) (if p.kind = .xlt then (dpa, n) else (va, n)))).foldl
    (fun m p =>
      let lo := if p.kind = .xlt then va + (p.base - dpa) else max va p.base
      match m with
      | none => some lo
      | some b => some (min b lo)) none

/-- The outcome of checking an access to a range of deckle addresses: the DPA pieces it reaches, up to the first refusal, and that
refusal: its offset, its fault code and, for a walk that read poison, the DPA. -/
structure Reach where
  segs : List (Nat × Nat) := []
  bad : Option (Nat × Nat × Option Nat) := none
  deriving DecidableEq, Repr

/-- R316 over a range, page by page of 64 KiB. -/
def reachGo (s : State) (d : Nat) (a : Agent) (write : Bool) : Nat → Nat → Nat → Nat → Reach
  | 0, _, _, _ => {}
  | k + 1, va, n, off =>
    if n = 0 then {} else
    let here := min n (65536 - va % 65536)
    match walk s d va with
    | .miss => { bad := some (off, 0x04, none) }
    | .poison p => { bad := some (off, 0x30, some p) }
    | .hit dpa w =>
      if write && !w then { bad := some (off, 0x03, none) }
      else match forbidden s d a write va dpa here with
        | some f => { segs := if f = va then [] else [(dpa, f - va)], bad := some (off + (f - va), 0x03, none) }
        | none =>
          let r := reachGo s d a write k (va + here) (n - here) (off + here)
          { r with segs := (dpa, here) :: r.segs }

/-- R316: the access check of `n` bytes at a deckle address. -/
def reach (s : State) (d : Nat) (a : Agent) (write : Bool) (va n : Nat) : Reach :=
  reachGo s d a write (n / 65536 + 2) va n 0

/-- The reads of the walks of a range, page by page. -/
def reachTouch (s : State) (d va n : Nat) : State :=
  if n = 0 then s else
  (List.range ((va + n + 65535) / 65536 - va / 65536)).foldl (fun s i => walkTouch s d (va / 65536 * 65536 + 65536 * i)) s

/-- The bytes of DPA pieces. -/
def segsRead (s : State) (segs : List (Nat × Nat)) : List Byte := segs.flatMap (fun g => tslice blankByte s.dram.data g.1 g.2)

/-- The first poisoned code word of DPA pieces. -/
def segsPoison (s : State) (segs : List (Nat × Nat)) : Option Nat := segs.findSome? (fun g => poisonIn s g.1 g.2)

/-- Write DPA pieces. -/
def segsWrite (s : State) (v : Via) : List (Nat × Nat) → List Byte → State
  | [], _ => s
  | g :: gs, bs => segsWrite (memPut s v g.1 (bs.take g.2)) v gs (bs.drop g.2)

/-- The reads of DPA pieces. -/
def segsTouch (s : State) (v : Via) (segs : List (Nat × Nat)) : State := segs.foldl (fun s g => touchRange s v g.1 g.2) s

/-- How an agent reaches memory for deckle `d` (Table 11.4). -/
def viaOf (d : Nat) : Agent → Via
  | .l1 p => { alloc := true, dk := d + 1, l1 := some p }
  | .fetch p => { alloc := true, dk := d + 1, l1 := some p }
  | .hostDma => { alloc := false, dk := d + 1 }
  | .bar2 => { alloc := false, dk := d + 1 }
  | .izkai => { alloc := false, dk := d + 1 }
  | .swap => { alloc := false, dk := d + 1 }
  | .stream => { alloc := true, dk := d + 1 }
  | .dcopy => { alloc := true, dk := d + 1 }
  | .mload => { alloc := true, dk := d + 1 }
  | .poly => { alloc := true, dk := d + 1 }
  | .agg => { alloc := true, dk := d + 1 }
  | .ctx => { alloc := true, dk := d + 1 }
  | .engine => { alloc := true, dk := d + 1 }

/-- What a read of an object meets: its bytes, or a fault code with the poisoned DPA where there is one. -/
inductive Rd where
  | ok (bs : List Byte)
  | bad (code : Nat) (dpa : Option Nat)
  deriving DecidableEq, Repr

/-- Read `n` bytes at a deckle address for an agent: check, demand reads, poison. -/
def dkRead (s : State) (d : Nat) (a : Agent) (va n : Nat) : State × Rd :=
  let s1 := reachTouch s d va n
  let r := reach s1 d a false va n
  match r.bad with
  | some (_, c, p) => (s1, .bad c p)
  | none =>
    let s2 := segsTouch s1 (viaOf d a) r.segs
    match segsPoison s2 r.segs with
    | some p => (s2, .bad 0x30 (some p))
    | none => (s2, .ok (segsRead s2 r.segs))

/-- Write bytes at a deckle address for an agent: nothing is written unless the whole range may be. -/
def dkWrite (s : State) (d : Nat) (a : Agent) (va : Nat) (bs : List Byte) : State × Option (Nat × Option Nat) :=
  let s1 := reachTouch s d va bs.length
  let r := reach s1 d a true va bs.length
  match r.bad with
  | some (_, c, p) => (s1, some (c, p))
  | none => (segsWrite s1 (viaOf d a) r.segs bs, none)

/-- Whether a range may be accessed, as a fault code (0 none). -/
def dkCheck (s : State) (d : Nat) (a : Agent) (write : Bool) (va n : Nat) : Nat :=
  match (reach s d a write va n).bad with
  | some (_, c, _) => c
  | none => 0

/-- The access check of a range before any of it is accessed, R316's order taken over the whole range: a fault code, with the DPA where
a walk met poison. -/
def dkProbe (s : State) (d : Nat) (a : Agent) (write : Bool) (va n : Nat) : State × Option (Nat × Option Nat) :=
  let s1 := reachTouch s d va n
  match (reach s1 d .engine false va n).bad with
  | some (_, c, p) => (s1, some (c, p))
  | none => (s1, (reach s1 d a write va n).bad.map (·.2))

/-- The access checks of several ranges, up to the first that fails. -/
def dkProbes (d : Nat) (a : Agent) (write : Bool) : List (Nat × Nat) → State → State × Option (Nat × Option Nat)
  | [], s => (s, none)
  | r :: rs, s =>
    match dkProbe s d a write r.1 r.2 with
    | (s1, none) => dkProbes d a write rs s1
    | e => e

/-- A DPA range lies wholly in granules of deckle `d`. -/
def ownsRange (s : State) (d a n : Nat) : Bool :=
  n != 0 && (List.range ((a + n - 1) / 2 ^ 30 - a / 2 ^ 30 + 1)).all (fun i =>
    let x := (a / 2 ^ 30 + i) * 2 ^ 30
    dpaExists x && decide (ownerOf s x = some d))

/-- Declare a protected range (R317). -/
def addProt (s : State) (d : Nat) (p : Prot) : State := setDeckle s d { deckle s d with prot := (deckle s d).prot ++ [p] }

/-- Remove a protected range. -/
def delProt (s : State) (d : Nat) (k : ProtKind) (base : Nat) : State :=
  setDeckle s d { deckle s d with prot := (deckle s d).prot.filter (fun p => !(p.kind == k && p.base == base)) }

/-- A range of deckle addresses meets a protected range. -/
def meetsProt (s : State) (d va n : Nat) : Bool :=
  let segs := (reach s d .engine false va n).segs
  (deckle s d).prot.any (fun p =>
    if p.kind = .xlt then segs.any (fun g => overlaps (p.base, p.len) g) else overlaps (p.base, p.len) (va, n))

/-! ### Encryption (R328, R329) -/

/-- What DRAM holds for a code word, as it decrypts under the setting in force. -/
def dramBytes (s : State) (cw : Nat) : List Byte := (tfind s.dram.under cw).getD (tslice blankByte s.dram.data cw (cwSize cw))

/-- MEM_DCTL.ENC of deckle `d` changes to `on`: what DRAM holds does not, so that its words read through the other cipher setting.  A
dirty line still leaves as it is, under the new setting. -/
def reEncrypt (d : Nat) (on : Bool) (s : State) : State :=
  match (deckle s d).mek with
  | none => s
  | some key =>
    let cws := ((s.dram.data.map (fun p => cwBase p.1) ++ s.dram.under.map (·.1)).filter (fun c => ownerOf s c == some d)).eraseDups
    cws.foldl (fun s c =>
      let bs := (chunksOf 64 (cwSize c / 64) (dramBytes s c)).zipIdx.flatMap (fun p => xts (!on) key (c / 64 + p.2) p.1)
      let held := s.dram.cache.filter (fun l => l.base == lineOf c)
      if held.any (fun l => l.dirty || l.l1Mod.isSome) then s
      else if held.isEmpty then { s with dram.data := tputs blankByte s.dram.data c bs }
      else { s with dram.under := tupd s.dram.under c bs }) s

/-! ### Zero requests (R320) -/

/-- The DPA ranges of a range of deckle addresses. -/
def dpaRanges (s : State) (d va n : Nat) : List (Nat × Nat) := (reach s d .engine false va n).segs

/-- A zero request takes the lowest free engine, or waits behind those that wait. -/
def zeroStart (s : State) (r : ZeroReq) : State :=
  match tfree s.zeros 8 with
  | some e => { s with zeros := tupd s.zeros e r }
  | none => { s with zeros := tupd s.zeros (s.zeros.foldl (fun m p => max m (p.1 + 1)) 8) r }

/-- Whether a zero request of a kind for an object still runs or waits. -/
def zeroRuns (s : State) (why arg : Nat) : Bool := s.zeros.any (fun p => p.2.why == why && p.2.arg == arg)

/-- The engine of a request is free and takes the oldest request that waits. -/
def zeroFree (s : State) (e : Nat) : State :=
  let z := tdel s.zeros e
  match z.find? (fun p => decide (8 ≤ p.1)) with
  | some w => { s with zeros := tupd (tdel z w.1) e w.2 }
  | none => { s with zeros := z }

end Sys2Proof.Machine
end

