-- ==== Sys2Proof/Machine/ServeOps.lean ====
section
/-! DEFINITION. Shared operations of serving: pools, folio tables, context transitions, the close of a decode step (ch. 07). -/

namespace Sys2Proof.Machine

/-- Context `c`. -/
def ctxOf (s : State) (c : Nat) : Ctx := tget {} s.serving.ctxs c
/-- Store context `c`. -/
def setCtx (s : State) (c : Nat) (x : Ctx) : State := { s with serving.ctxs := tset {} s.serving.ctxs c x }
/-- Model record `m` of deckle `d`. -/
def modelOf (s : State) (d m : Nat) : Model := tget {} s.serving.models (16 * d + m)
/-- Store a model record. -/
def setModel (s : State) (d m : Nat) (x : Model) : State :=
  { s with serving.models := tset {} s.serving.models (16 * d + m) x }

/-! ### Pools (R210) -/

/-- Pools: 0 HBM, 1 LPDDR, 2 table. -/
def poolBase (s : State) (d k : Nat) : Nat :=
  if k = 0 then rget s .ctxHpoolBase d else if k = 1 then rget s .ctxLpoolBase d else rget s .ctxTpoolBase d
/-- Units of a pool. -/
def poolCnt (s : State) (d k : Nat) : Nat :=
  if k = 0 then rget s .ctxHpoolCnt d else if k = 1 then rget s .ctxLpoolCnt d else rget s .ctxTpoolCnt d
/-- Bytes of a unit. -/
def poolUnit (k : Nat) : Nat := if k = 2 then 8192 else 65536
/-- Offset of a pool's bitmap in the bitmap area. -/
def mapOff (s : State) (d k : Nat) : Nat :=
  if k = 0 then 0
  else
    let h := roundUp 64 (ceilDiv (poolCnt s d 0) 8)
    if k = 1 then h else h + roundUp 64 (ceilDiv (poolCnt s d 1) 8)
/-- Bytes of the bitmap area. -/
def mapBytes (s : State) (d : Nat) : Nat := mapOff s d 2 + ceilDiv (poolCnt s d 2) 8
/-- The deckle address of the bitmap byte of unit `u`. -/
def mapAt (s : State) (d k u : Nat) : Nat := rget s .ctxMapBase d + mapOff s d k + u / 8

/-- One byte at a deckle address, zero where it does not translate. -/
def byteAt (s : State) (d va : Nat) : Nat :=
  match walk s d va with
  | .hit dpa _ => (tget blankByte s.dram.data dpa).toNat
  | _ => 0

/-- Unit `u` of a pool is allocated. -/
def unitTaken (s : State) (d k u : Nat) : Bool := bit (byteAt s d (mapAt s d k u)) (u % 8)

/-- The free-unit count in CTX_POOL_FREE. -/
def poolFree (s : State) (d k : Nat) : Nat :=
  if k = 0 then fget s .ctxPoolFree 23 0 d else if k = 1 then fget s .ctxPoolFree 47 24 d else fget s .ctxPoolFree 63 48 d
/-- Set it. -/
def setPoolFree (s : State) (d k n : Nat) : State :=
  if k = 0 then fset s .ctxPoolFree 23 0 n d else if k = 1 then fset s .ctxPoolFree 47 24 n d else fset s .ctxPoolFree 63 48 n d

/-- The device writes its own tables in a deckle's memory: the W bits of their pages do not stop it. -/
def ctxPut (s : State) (d va : Nat) (bs : List Byte) : State :=
  let s1 := reachTouch s d va bs.length
  segsWrite s1 (viaOf d .ctx) (reach s1 d .engine false va bs.length).segs bs

/-- Mark a unit allocated or free. -/
def markUnit (s : State) (d k u : Nat) (on : Bool) : State :=
  let b := setBits (byteAt s d (mapAt s d k u)) (u % 8) (u % 8) (b2n on)
  let s1 := ctxPut s d (mapAt s d k u) [BitVec.ofNat 8 b]
  setPoolFree s1 d k (if on then poolFree s1 d k - 1 else poolFree s1 d k + 1)

/-- Allocate the lowest-numbered free unit: its address. -/
def allocUnit (s : State) (d k : Nat) : Option (Nat × State) :=
  if poolFree s d k = 0 then none
  else match (List.range (poolCnt s d k)).find? (fun u => !unitTaken s d k u) with
    | none => none
    | some u => some (poolBase s d k + u * poolUnit k, markUnit s d k u true)

/-- Return the unit at an address. -/
def freeUnit (s : State) (d k a : Nat) : State := markUnit s d k ((a - poolBase s d k) / poolUnit k) false

/-! ### Folio tables (R209) -/

/-- A table entry as the context-table agent reads it, or the DPA of the poison that the read meets. -/
def tableRead (s : State) (d va : Nat) : State × (Nat ⊕ Nat) :=
  match dkRead s d .ctx va 8 with
  | (s1, .ok bs) => (s1, .inl (leNat bs))
  | (s1, .bad _ p) => (s1, .inr (p.getD 0))

/-- Write a table entry. -/
def tableWrite (s : State) (d va v : Nat) : State := ctxPut s d va (leBytes 8 v)

/-- What mapping one folio comes to. -/
inductive MapRes where
  | ok
  | full
  | poison (dpa : Nat)
  deriving DecidableEq, Repr

/-- Map folio `f` of context `c`, allocating its leaf table and the folio where they are missing (R213). -/
def mapFolio (s : State) (c f : Nat) : State × MapRes :=
  let x := ctxOf s c
  let d := x.deckle
  match tableRead s d (x.dir + 8 * (f / 1024)) with
  | (s1, .inr p) => (s1, .poison p)
  | (s1, .inl e) =>
    let withLeaf : Option (Nat × State) :=
      if bit e 0 then some (e / 8192 * 8192, s1)
      else match allocUnit s1 d 2 with
        | none => none
        | some (a, s2) =>
          let s3 := ctxPut s2 d a (zeros 8192)
          some (a, tableWrite s3 d (x.dir + 8 * (f / 1024)) (a + 1))
    match withLeaf with
    | none => (s1, .full)
    | some (leaf, s2) =>
      match tableRead s2 d (leaf + 8 * (f % 1024)) with
      | (s3, .inr p) => (s3, .poison p)
      | (s3, .inl l) =>
        if bit l 0 then (s3, .ok)
        else match allocUnit s3 d 0 with
          | none => (s3, .full)
          | some (a, s4) =>
            let s5 := tableWrite s4 d (leaf + 8 * (f % 1024)) (a + 1)
            (setCtx s5 c { ctxOf s5 c with folios := (ctxOf s5 c).folios + 1 }, .ok)

/-- Map folios in order until one cannot be. -/
def mapFolios (s : State) (c : Nat) : List Nat → State × MapRes
  | [] => (s, .ok)
  | f :: fs => match mapFolio s c f with
    | (s1, .ok) => mapFolios s1 c fs
    | r => r

/-- The mapped folios of a context: (folio index, deckle address of its leaf entry, leaf entry). -/
def foliosOf (s : State) (c : Nat) : List (Nat × Nat × Nat) :=
  let x := ctxOf s c
  let word (va : Nat) : Nat := (List.range 8).foldl (fun v i => v + byteAt s x.deckle (va + i) * 256 ^ i) 0
  (List.range 1024).flatMap (fun i =>
    let e := word (x.dir + 8 * i)
    if !bit e 0 then [] else
    (List.range 1024).filterMap (fun j =>
      let at_ := e / 8192 * 8192 + 8 * j
      let l := word at_
      if bit l 0 then some (1024 * i + j, at_, l) else none))

/-- The leaf tables of a context. -/
def leavesOf (s : State) (c : Nat) : List Nat :=
  let x := ctxOf s c
  (List.range 1024).filterMap (fun i =>
    let e := (List.range 8).foldl (fun v k => v + byteAt s x.deckle (x.dir + 8 * i + k) * 256 ^ k) 0
    if bit e 0 then some (e / 8192 * 8192) else none)

/-! ### Transitions (R202, R203) -/

/-- Take a READY_SEQ (R203). -/
def takeReady (s : State) : Nat × State :=
  let n := tget 0 s.serving.readySeq 0
  (n, { s with serving.readySeq := tset 0 s.serving.readySeq 0 ((n + 1) % 2 ^ 64) })

/-- Renew the READY_SEQ of a context. -/
def renewReady (s : State) (c : Nat) : State :=
  let (n, s1) := takeReady s
  setCtx s1 c { ctxOf s1 c with readySeq := n }

/-- DETACH: folios, leaf tables and directory return to their pools, BINDS decrements, the entry becomes IDLE. -/
def ctxIdle (s : State) (c : Nat) : State :=
  let x := ctxOf s c
  let s1 := (foliosOf s c).foldl (fun s f => freeUnit s x.deckle (if bit f.2.2 1 then 1 else 0) (f.2.2 / 65536 * 65536)) s
  let s2 := (leavesOf s c).foldl (fun s a => freeUnit s x.deckle 2 a) s1
  let s3 := freeUnit s2 x.deckle 2 x.dir
  let m := modelOf s3 x.deckle x.model
  setCtx (setModel s3 x.deckle x.model { m with binds := m.binds - 1 }) c {}

/-- Requests complete with success. -/
def completeAll (s : State) (l : List (Nat × Nat)) : State := l.foldl (fun s p => complete s p.1 p.2 0 0 0) s

/-- CANCEL takes effect (Table 07.2). -/
def ctxCancel (s : State) (c : Nat) : State :=
  let x := ctxOf s c
  let st := if x.state = .active then .resident else x.state
  completeAll (setCtx s c { x with pendingIn := 0, genLimit := 0, cancelLater := [], state := st }) x.cancelLater

/-- A DETACH that waited takes effect once no step holds the context and no move runs. -/
def ctxSettle (s : State) (c : Nat) : State :=
  let x := ctxOf s c
  if x.instep || x.moving || x.detachLater.isEmpty then s
  else completeAll (ctxIdle s c) (x.cancelLater ++ x.detachLater)

/-- A token record or a context end record (Table 12.7, KIND 1 and 2). -/
def ctxRecord (s : State) (c kind fault token : Nat) (ends : Bool) : State :=
  let x := ctxOf s c
  cqUnreserved s x.compring (x.deckle + 1)
    (leBytes 4 c ++ leBytes 4 (if kind = 1 then token else 0) ++ leBytes 1 0 ++ leBytes 1 fault ++ leBytes 1 kind
      ++ leBytes 1 (2 * b2n ends) ++ leBytes 2 0xFFFF ++ leBytes 2 0 ++ leBytes 8 x.position
      ++ leBytes 4 (if kind = 1 then x.generated else 0) ++ leBytes 4 0)

/-- The address of a token of the token buffer. -/
def tokenAt (x : Ctx) (pos : Nat) : Nat := x.tokbuf + 4 * (pos % 2 ^ x.tokcap)

/-- R215 step 2: the token drawn in the step is committed. -/
def commitToken (s : State) (c : Nat) : State :=
  let x0 := ctxOf s c
  let token := x0.nextToken
  let x := { x0 with generated := satInc 32 x0.generated 1, genLimit := x0.genLimit - 1 }
  let ends := x.stops.contains token && token != 0xFFFFFFFF || token = 0xFFFFFFFF || x.genLimit = 0
  let s1 := ctxRecord (setCtx s c x) c 1 0 token ends
  if ends then s1
  else
    let s2 := (dkWrite s1 x.deckle .ctx (tokenAt x x.position) (leBytes 4 token)).1
    setCtx s2 c { ctxOf s2 c with pendingIn := 1 }

/-- The close of a step for one context. -/
def closeEntry (commit : Bool) (stepno : Nat) (s : State) (e : StepEntry) : State :=
  let x := ctxOf s e.ctx
  if !x.instep then s else
  let s1 := fset s .ctxGsts 10 0 (fget s .ctxGsts 10 0 - 1)
  if !commit then
    ctxSettle (renewReady (setCtx s1 e.ctx
      { x with instep := false, sampled := false, stepStopped := false, lastStep := stepno }) e.ctx) e.ctx
  else
    let y := { x with position := x.position + e.inTokens, pendingIn := x.pendingIn - e.inTokens }
    let s2 := setCtx s1 e.ctx y
    let s3 := if y.sampled && y.pendingIn = 0 && !y.stepStopped then commitToken s2 e.ctx else s2
    let z := ctxOf s3 e.ctx
    let z1 := { z with instep := false, sampled := false, stepStopped := false, lastStep := stepno }
    let s4 := renewReady (setCtx s3 e.ctx { z1 with state := if z.pendingIn = 0 then .resident else .active }) e.ctx
    let s5 := if !(ctxOf s4 e.ctx).cancelLater.isEmpty then ctxCancel s4 e.ctx else s4
    ctxSettle s5 e.ctx

/-- R215, R216: the stream's open step closes, with or without commit.  A CANCEL deferred to the close of a step that closes
without commit takes effect there too. -/
def closeStep (s : State) (q st : Nat) (commit : Bool) : State :=
  match (stream s q st).step with
  | none => s
  | some es =>
    let s0 := setStream s q st { stream s q st with step := none }
    let n := (fget s0 .ctxGsts 63 32 + 1) % 2 ^ 32
    let s1 := fset s0 .ctxGsts 63 32 n
    let s2 := es.foldl (closeEntry commit n) s1
    if commit then s2
    else es.foldl (fun s e => if !(ctxOf s e.ctx).cancelLater.isEmpty then ctxCancel s e.ctx else s) s2

end Sys2Proof.Machine
end

