-- ==== Sys2Proof/Machine/QuireOps.lean ====
section
/-! DEFINITION. Shared operations of a quire: upset words, scratchpad, stream faults,
the end of streams. -/

namespace Sys2Proof.Machine

/-- R520: a line of a bank is spared after the event `code`; a bank without a free spare raises SPD_SPARE_OUT once. -/
def spareLine (s0 : State) (p bank code : Nat) : State :=
  let s := handlerUse s0 (.spareMap p) 11 code
  let x := phys s p
  let n := tget 0 x.sparedLines bank
  if n < 8 then
    fadd (setPhys s p { x with sparedLines := tset 0 x.sparedLines bank (n + 1) }) .qreSpdSts 8 0 1 p
  else if x.spareOut.contains bank then s
  else
    let s1 := fset (setPhys s p { x with spareOut := x.spareOut ++ [bank] }) .qreSpdSts 9 9 1 p
    let s2 := qreError s1 p 2 0x0C bank
    bucketFull (fset s2 .qreCeb 15 0 (max 1 (fget s2 .qreCeb 31 16 p)) p) p

/-! ### Upset words -/

/-- The flipped bits of a word of a store and whether the error is hard. -/
def upsetOf (x : Quire) (st : Store) (word : Nat) : Nat × Bool :=
  x.upsets.foldl (fun a u => if u.store == st && u.word == word then (a.1 + u.bits, a.2 || u.hard) else a) (0, false)

/-- The words of a store among `words` that have upset cells, ascending. -/
def upsetWords (x : Quire) (st : Store) (words : Nat → Bool) : List Nat :=
  (((x.upsets.filter (fun u => u.store == st && words u.word && u.bits != 0)).map (·.word)).foldl
    (fun l w => if l.contains w then l else l.filter (· < w) ++ w :: l.filter (w < ·)) [])

/-- Forget the upsets of a word. -/
def dropUpset (x : Quire) (st : Store) (word : Nat) : Quire :=
  { x with upsets := x.upsets.filter (fun u => !(u.store == st && u.word == word)) }

/-- Upsets strike stores and paths of logical quire `q`. -/
def addUpsets (s : State) (q : Nat) (us : List StoreUpset) (ps : List PathUpset) : State :=
  if us.isEmpty && ps.isEmpty then s
  else setQuire s q { quire s q with upsets := (quire s q).upsets ++ us, strikes := (quire s q).strikes ++ ps }

/-- The bits that upsets of a path invert, as (index, bit), in the first execution or in the second. -/
def strikesOf (x : Quire) (p : UPath) (again : Bool) : List (Nat × Nat) :=
  (x.strikes.filter (fun u => u.path == p && u.again == again)).map (fun u => (u.idx, u.bit))

/-- A check on a path has been made: its upsets are gone. -/
def dropStrikes (s : State) (q : Nat) (p : UPath) : State :=
  if (quire s q).strikes.isEmpty then s
  else setQuire s q { quire s q with strikes := (quire s q).strikes.filter (fun u => u.path != p) }

/-! ### Scratchpad (R25, R493) -/

/-- Bytes of a scratchpad. -/
def spadSize : Nat := 2097152

/-- R520: a read of `word` spares its line. The spare takes the corrected words, so that the line's other words keep no
correctable error; with no spare free the failed cells stay and their words are corrected in place. -/
def spareWord (s : State) (q p word code : Nat) : State :=
  let free := decide (tget 0 (phys s p).sparedLines (word / 8 % 32) < 8)
  let s1 := spareLine s p (word / 8 % 32) code
  if !free then s1 else
  let x := quire s1 q
  setQuire s1 q { x with upsets := x.upsets.filter (fun u =>
    !(u.store == .spad && (u.word == word || (u.word / 8 == word / 8 && (upsetOf x .spad u.word).1 == 1)))) }

/-- A scratchpad word is read: a correctable error is corrected and written back, an uncorrectable one found poisons it. The
cells of a hard error stay failed until the line is spared. -/
def spadDecode (s : State) (q : Nat) (word : Nat) : State :=
  let x := quire s q
  let (n, hard) := upsetOf x .spad word
  if n = 0 then s else
  let p := pOf s q
  let bank := word / 8 % 32
  let s1 := if hard then s else setQuire s q (dropUpset x .spad word)
  if n = 1 then
    let s2 := qreError s1 p 0 0x09 bank 0 (some (8 * word))
    if hard then spareWord s2 q p word 0x09 else s2
  else
    let y := quire s1 q
    if y.spadPoison.contains word then s1
    else
      let s2 := setQuire s1 q { y with spadPoison := y.spadPoison ++ [word] }
      spareWord (qreError s2 p 2 0x0A bank 0 (some (8 * word))) q p word 0x0A

/-- Every upset word of a scratchpad range is read. -/
def spadTouch (s : State) (q a n : Nat) : State :=
  if (quire s q).upsets.isEmpty then s
  else (upsetWords (quire s q) .spad (fun w => decide (8 * w < a + n) && decide (a < 8 * w + 8))).foldl
    (fun s w => spadDecode s q w) s

/-- A scratchpad range holds a poisoned word. -/
def spadBad (s : State) (q a n : Nat) : Bool :=
  (quire s q).spadPoison.any (fun w => decide (8 * w < a + n) && decide (a < 8 * w + 8))

/-- The bytes of a scratchpad range as stored. -/
def spadBytes (s : State) (q a n : Nat) : List Byte := tslice blankByte (quire s q).spad a n

/-- Read a scratchpad range; none where it meets poison. -/
def spadRead (s : State) (q a n : Nat) : State × Option (List Byte) :=
  let s1 := spadTouch s q a n
  (s1, if spadBad s1 q a n then none else some (spadBytes s1 q a n))

/-- Write a scratchpad range: whole words lose their soft upsets and their poison, a word written in part is read first. -/
def spadWrite (s : State) (q a : Nat) (bs : List Byte) : State :=
  let n := bs.length
  if n = 0 then s else
  let whole (w : Nat) : Bool := decide (a ≤ 8 * w) && decide (8 * w + 8 ≤ a + n)
  let s1 := if a % 8 = 0 && n % 8 = 0 then s else spadTouch (spadTouch s q a 1) q (a + n - 1) 1
  let x := quire s1 q
  setQuire s1 q { x with
    spad := tputs blankByte x.spad a bs
    spadPoison := x.spadPoison.filter (fun w => !whole w)
    upsets := x.upsets.filter (fun u => !(u.store == .spad && !u.hard && whole u.word)) }

/-! ### Stream registers (R101, R135, R136) -/

/-- Scalar register `i`. -/
def Stream.s (x : Stream) (i : Nat) : Nat := if i = 0 then 0 else (tget 0#64 x.sregs i).toNat
/-- Predicate register `i`. -/
def Stream.p (x : Stream) (i : Nat) : Pred := if i = 0 then BitVec.allOnes 1024 else tget 0#1024 x.pregs i
/-- Vector register `i`. -/
def Stream.v (x : Stream) (i : Nat) : VReg := tget 0#16384 x.vregs i
/-- Write scalar register `i`; s0 discards it. -/
def Stream.setS (x : Stream) (i v : Nat) : Stream :=
  if i = 0 then x else { x with sregs := tset 0#64 x.sregs i (BitVec.ofNat 64 v) }
/-- Write predicate register `i`; p0 discards it. -/
def Stream.setP (x : Stream) (i : Nat) (v : Pred) : Stream := if i = 0 then x else { x with pregs := tset 0#1024 x.pregs i v }
/-- Write vector register `i`. -/
def Stream.setV (x : Stream) (i : Nat) (v : VReg) : Stream := { x with vregs := tset 0#16384 x.vregs i v }

/-- Write scalar register `i` of stream `st`. -/
def wrS (s : State) (q st i v : Nat) : State := setStream s q st ((stream s q st).setS i v)
/-- Write vector register `i` of stream `st`. -/
def wrV (s : State) (q st i : Nat) (v : VReg) : State := setStream s q st ((stream s q st).setV i v)
/-- Write predicate register `i` of stream `st`. -/
def wrP (s : State) (q st i : Nat) (v : Pred) : State := setStream s q st ((stream s q st).setP i v)

/-- Table 05.2. -/
def startRegs (q st arg const handle : Nat) : Tab Word :=
  [(1, arg), (2, q), (3, st), (4, const), (5, handle)].foldl (fun t p => tset 0#64 t p.1 (BitVec.ofNat 64 p.2)) []

/-- Words of a predicate register have been written whole: they lose their upsets. -/
def freshPred (s : State) (q st i : Nat) (whole : Nat → Bool) : State :=
  let x := quire s q
  if x.upsets.isEmpty then s
  else setQuire s q { x with upsets := x.upsets.filter (fun u => !(u.store == .pred st i && whole u.word)) }

/-! ### Register words (R123, R124) -/

/-- Record a Beater error. -/
def btrLog (s : State) (p rep ecc pipe st vreg elem pred act : Nat) : State :=
  logRecord s .qreBtrLog p 2 (1 + 2 * rep + 8 * ecc + 16 * pipe + 256 * st + 2048 * vreg + 65536 * (elem % 512)
    + 2 ^ 32 * pred + 2 ^ 40 * act)

/-- The upset words of a register of stream `st` are read: corrected words are counted, uncorrectable ones listed as (`name`, word).
`reg` and `per`, the elements of a word, are what the log shows. -/
def readWords (q st pipe : Nat) (store : Store) (name reg per : Nat) (a : State × List (Nat × Nat)) : State × List (Nat × Nat) :=
  let p := pOf a.1 q
  (upsetWords (quire a.1 q) store (fun _ => true)).foldl (fun a w =>
    if a.2.contains (name, w) then a
    else if (upsetOf (quire a.1 q) store w).1 = 1 then
      let s1 := setQuire a.1 q (dropUpset (quire a.1 q) store w)
      let s2 := btrLog (fadd s1 .qreBtrCecnt 31 0 1 p) p 0 1 pipe st reg (per * w) 0 0
      (qreError s2 p 0 0x05 pipe, a.2)
    else (qreError (btrLog a.1 p 0 1 pipe st reg (per * w) 0 0) p 2 0x06 pipe, a.2 ++ [(name, w)])) a

/-- R123: an instruction in pipe `pipe` reads its source registers, of elements `width` bits wide, and its predicates, which are named 32
and up. -/
def readRegs (s : State) (q : Nat) (f : Flight) (pipe width : Nat) : State × List (Nat × Nat) :=
  if (quire s q).upsets.isEmpty then (s, []) else
  let a := f.vRd.foldl (fun a r => readWords q f.stream pipe (.vreg f.stream r) r r (64 / width) a) (s, [])
  f.pRd.foldl (fun a r => readWords q f.stream pipe (.pred f.stream r) (32 + r) r 64 a) a

/-! ### Flights -/

/-- The instructions in flight of a stream. -/
def flightsOf (x : Quire) (st : Nat) : List Flight := x.flights.filter (fun f => f.stream == st)

/-- The instruction of stream `st` with program order `seq` is in flight. -/
def findFlight (s : State) (q st seq : Nat) : Option Flight :=
  (quire s q).flights.find? (fun f => f.stream == st && f.seq == seq)

/-- An instruction ends: it leaves the issue window. -/
def dropFlight (s : State) (q st seq : Nat) : State :=
  let x := quire s q
  setQuire s q { x with flights := x.flights.filter (fun f => !(f.stream == st && f.seq == seq)) }

/-- Replace an instruction in flight, or add it. -/
def putFlight (s : State) (q : Nat) (f : Flight) : State :=
  let x := quire s q
  if x.flights.any (fun g => g.stream == f.stream && g.seq == f.seq) then
    setQuire s q { x with flights := x.flights.map (fun g => if g.stream == f.stream && g.seq == f.seq then f else g) }
  else setQuire s q { x with flights := x.flights ++ [f] }

/-- R446: the requests of an instruction at the DRBG instances are withdrawn. -/
def withdrawDraws (s : State) (q st : Nat) : State :=
  { s with rng.drbgs := s.rng.drbgs.map (fun p => (p.1, { p.2 with queue := p.2.queue.filter (fun r => match r.who with
      | .stream q' st' _ => !(q' == q && st' == st)
      | _ => true) })) }

/-- An X.SEND that has not been placed ends (R199): withdrawn, and DROPPED counts it. -/
def withdrawSend (s : State) (q : Nat) (f : Flight) : State :=
  let s1 := { s with mesh := s.mesh.filter (fun m => !(m.src == q && m.msg.stream == f.stream && m.msg.seq == f.seq)) }
  let x := quire s1 q
  dropFlight (setQuire s1 q { x with dropped := satInc 32 x.dropped 1 }) q f.stream f.seq

/-- A wait at a home slice ends. -/
def dropWait (s : State) (q st seq : Nat) : State :=
  { s with waits := s.waits.filter (fun w => !(w.quire == q && w.stream == st && w.seq == seq)) }

/-- A session is FREE: its ranges are no longer protected (R304). -/
def freeSession (s : State) (n : Nat) : State :=
  match tfind s.sessions n with
  | none => s
  | some x => delProt (delProt { s with sessions := tdel s.sessions n } x.deckle .session x.area) x.deckle .inbox x.inbox

/-- R282, R446: an A.OPEN that ends while it waits for its log key opens nothing, and an A.FINAL that ends while it waits for its
noise leaves its session BROKEN; a C.SAMPLE no longer draws; `f.vals` holds the session number at index 6. -/
def endDraw (s : State) (f : Flight) : State :=
  if f.maj = 0x28 then setCtx s (f.vals.headD 0) { ctxOf s (f.vals.headD 0) with sampling := false }
  else if f.maj != 0x1C then s
  else match tfind s.sessions (nth 64 f.vals 6) with
    | some x =>
      if f.sub = 0 then freeSession s (nth 64 f.vals 6)
      else if x.state = .finalising then
        delProt { s with sessions := tupd s.sessions (nth 64 f.vals 6) { x with state := .broken } } x.deckle .aggResult x.dst
      else s
    | none => s

/-- R199, R446: a waiting instruction of a stream that enters DRAINING or that a reset covers ends. -/
def endWait (q : Nat) (s : State) (f : Flight) : State :=
  if f.maj = 0x23 && f.sub = 1 then
    -- X.WAIT ends as on timeout
    let last := ((s.waits.find? (fun w => w.quire == q && w.stream == f.stream && w.seq == f.seq)).map (·.last)).getD 0
    wrS (dropWait (dropFlight s q f.stream f.seq) q f.stream f.seq) q f.stream (f.w.low.toNat / 2 ^ 29) last
  else if f.maj = 0x23 && f.sub = 3 then dropWait (dropFlight s q f.stream f.seq) q f.stream f.seq
  else if f.maj = 0x23 && f.sub = 4 then withdrawSend s q f
  else if f.maj = 0x23 && f.sub = 5 then dropFlight s q f.stream f.seq
  else match f.phase with
    | .drawing 0 _ => s
    | .drawing _ _ =>
      let s1 := dropFlight s q f.stream f.seq
      -- R90: a drain that ends without effect no longer releases its tile
      match f.tile with
      | some t =>
        let x := quire s1 q
        setQuire s1 q { x with tiles := x.tiles.map (fun u =>
          if u.sheet == t.1 && u.slot == t.2.1 && u.fmt == t.2.2 && f.maj == 0x14 && f.sub == 4 && bit f.w.low.toNat 6
          then { u with releasing := false } else u) }
      | none => endDraw s1 f
    | _ => s

/-- Every waiting instruction of a stream ends. -/
def endWaits (s : State) (q st : Nat) : State :=
  (flightsOf (quire s q) st).foldl (endWait q) (withdrawDraws s q st)

/-! ### Faults (R164, R166) -/

/-- A stream faults: it enters DRAINING, its waits end, its open step closes without commit; a further fault before FAULTED keeps
the record that is earliest in program order and sets MULTI. -/
def streamFault (s : State) (q st : Nat) (r : FaultRec) : State :=
  let x := stream s q st
  match x.state with
  | .running =>
    let s1 := setStream s q st { x with state := .draining, ending := false, fault := some r }
    closeStep (endWaits s1 q st) q st false
  | .draining =>
    match x.fault with
    | some o =>
      let n := if r.seq < o.seq then r else o
      setStream s q st { x with fault := some { n with multi := true } }
    | none => setStream s q st { x with fault := some r }
  | _ => s

/-- An instruction in flight, or one just issued, faults in execution and ends. -/
def exFault (s : State) (q : Nat) (f : Flight) (code : Nat) : State :=
  streamFault (dropFlight s q f.stream f.seq) q f.stream
    { code := code, multi := false, exec := true, maj := f.maj, sub := f.sub, pc := f.pc, seq := f.seq }

/-- An execution fault of device memory: a walk or a read that met poison raises the consumption event of R337. -/
def memFault (s : State) (q : Nat) (f : Flight) (code : Nat) (dpa : Option Nat) : State :=
  let s1 := match dpa with
    | some a => qrePoison s (pOf s q) (deckleOfQuire s q) a
    | none => s
  exFault s1 q f code

/-! ### The end of a stream (R134, R137) -/

/-- Release actions 1 and 2 and the register reset of 3 begin. -/
def beginLeave (s : State) (q st : Nat) : State :=
  let x := quire s q
  let y : Quire := { x with
    prefetch := x.prefetch.filter (fun p => p.2.stream != st)
    tiles := x.tiles.map (fun t => if t.owner == st then { t with releasing := true } else t) }
  setQuire s q (y.setStream st { y.stream st with leaving := true })

/-- A tile has an operation in flight. -/
def tileBusy (x : Quire) (t : Tile) : Bool :=
  x.flights.any (fun f => f.tile == some (t.sheet, t.slot, t.fmt))

/-- Tiles have closed: no opening waits for their release any longer (R70). -/
def forgetWait (x : Quire) (ks : List (Nat × Nat × Nat)) : Quire :=
  (List.range 8).foldl (fun y st =>
    match (y.stream st).openWait with
    | none => y
    | some (n, l) => y.setStream st { y.stream st with openWait := some (n, l.filter (fun k => !ks.contains k)) }) x

/-- The release actions go on: tiles without operations in flight close; with the last one closed the stream is IDLE. -/
def finishLeave (s : State) (q st : Nat) : State :=
  let x := quire s q
  let gone (t : Tile) : Bool := t.owner == st && !tileBusy x t
  let y := forgetWait { x with tiles := x.tiles.filter (fun t => !gone t) } ((x.tiles.filter gone).map (fun t => (t.sheet, t.slot, t.fmt)))
  if y.tiles.any (fun t => t.owner == st) then setQuire s q y
  else
    let z := y.stream st
    let regOf : Store → Bool
      | .vreg n _ => n == st
      | .pred n _ => n == st
      | _ => false
    let y := { y with upsets := y.upsets.filter (fun u => !regOf u.store) }
    setQuire s q (y.setStream st { z with
      state := .idle, ending := false, recorded := false, leaving := false, openWait := none
      sregs := startRegs q st 0 0 0, vregs := [], pregs := [], mslots := [] })

/-- A stream settles after its instructions have moved on (Table 05.1). -/
def settleStream (s : State) (q st : Nat) : State :=
  let x := stream s q st
  let busy := (quire s q).flights.any (fun f => f.stream == st)
  if x.leaving then finishLeave s q st
  else match x.state with
    | .running =>
      if x.ending && !busy then
        let s1 := complete (closeStep s q st true) x.ring x.desc 0 0 (q + 256 * st)
        finishLeave (beginLeave (setStream s1 q st { stream s1 q st with recorded := true, ending := false }) q st) q st
      else s
    | .draining =>
      if !busy then
        let f := x.fault
        let s1 := complete s x.ring x.desc 0 ((f.map (·.code)).getD 0) 0 ((f.map (·.pc)).getD 0)
        let s2 := setStream s1 q st { stream s1 q st with state := .faulted, recorded := true }
        if !s.sealed && bit (quire s q).hold st then s2 else finishLeave (beginLeave s2 q st) q st
      else s
    | _ => s

/-- Every stream of a quire settles. -/
def settleQuire (s : State) (q : Nat) : State := (List.range 8).foldl (fun s st => settleStream s q st) s

end Sys2Proof.Machine
end

