-- ==== Sys2Proof/Machine/RegOps.lean ====
section
/-! DEFINITION. BAR0: which function reaches which register (R350, R596), locks, the generic effect of a write by access types
(Table 00.4), and the log registers of R59. -/

namespace Sys2Proof.Machine

/-! ### Reach -/

/-- Whom a register instance belongs to. -/
inductive Owner where
  | anyone
  | pf
  | fn (f : Nat)
  | deckle (d : Nat)
  /-- A per-deckle instance that no deckle holds now. -/
  | nobody
  deriving DecidableEq, Repr

/-- A deckle as owner, where there is one. -/
def ownerDk : Option Nat → Owner
  | some d => .deckle d
  | none => .nobody

/-- R350: the owner of an instance of a register. -/
def ownerOfReg (s : State) (r : Reg) (k : Nat) : Owner :=
  match r with
  | .idnId | .idnSerial0 | .idnSerial1 | .idnVer | .idnCap => .anyone
  | .evtRingBase | .evtRingCfg | .evtRingHead | .evtRingSts | .hqiFnB2win | .hqiFnSts | .rngRd => .fn k
  | .hqiRingBase | .hqiRingCfg | .hqiRingDb | .hqiRingSts | .hqiCqBase | .hqiCqCfg | .hqiCqDb | .hqiCqSts => .fn (ringFn s k)
  | .prtDsts | .secPtkKey | .secPtkCtl | .secDkSts | .memXltBase | .memXltSize | .memDctl | .memScWays | .memProtSts
  | .izkDkCmd | .izkDkArg | .izkDkRes | .izkDkCnt
  | .ctxHpoolBase | .ctxHpoolCnt | .ctxLpoolBase | .ctxLpoolCnt | .ctxTpoolBase | .ctxTpoolCnt | .ctxMapBase
  | .ctxPoolCtl | .ctxSwpCtl | .ctxPoolFree | .ctxPrtCnt | .ctxModel
  | .plyBasMap | .plyKeySts | .plyFltCnt | .plyDualCnt | .plyBas => if deckleExists s k then .deckle k else .nobody
  | .qreShtReslog | .qreShtInj | .qreShtRescnt | .qreVatLog | .qreVatCecnt | .qreBtrLog | .qreBtrCecnt | .qreBtrInj
  | .qreBtrSts | .qreStrState | .qreStrCtl | .qreRole | .qreMbxSts | .qreMbxCnt | .qreErrCtl | .qreErrSts | .qreErrNext
  | .qreCeb | .qreSpdSts | .qreRst | .qreStrFlt | .qrePrf =>
    ownerDk ((phys s k).logical.bind (deckleOfQuire s))
  | .ctxEnt =>
    let c : Ctx := tget {} s.serving.ctxs k
    if c.state = .idle then .nobody else .deckle c.deckle
  | .aggSesSts | .aggSesCnt | .aggSesRej | .aggSesElem => ownerDk ((tfind s.sessions k).map (·.deckle))
  | .izkQpSts =>
    let q : Qp := tget {} s.izk.qps k
    if q.state = .free then .nobody else .deckle q.deckle
  | _ => .pf

/-- The register blocks that respond in the FE state (R505), by address. -/
def feBlock (a : Nat) : Bool :=
  decide (a < 0x40000) || (decide (0xC0000 ≤ a) && decide (a < 0xE0000)) || (decide (0x1C0000 ≤ a) && decide (a < 0x200000))

/-- BAR0 and BAR2 requests reach the device: the link is up and the device is ready or its boot has stopped (R373, R568). -/
def busUp (s : State) : Bool := s.power.rails && s.boot.pcieUp && (s.boot.ready || s.boot.stopped != 0)

/-- A deckle under removal or reset hides its VF (R479 step 1). -/
def vfHidden (s : State) (fn : Nat) : Bool :=
  fn != 0 && (let p := (deckle s (fn - 1)).phase; p = .draining || p = .scrubbing || p = .erasing)

/-- The function `fn` reaches the instance (R350), which the map has. -/
def reaches (s : State) (fn : Nat) (r : Reg) (k j : Nat) : Bool :=
  fn ≤ 16 && decide (k < (regRow r).count) && decide (j < (regRow r).count2) && busUp s && (fn == 0 || s.host.vfOn) && !(func s fn).d3hot && !vfHidden s fn && (!s.fe || feBlock (regAddr r k j))
    && match ownerOfReg s r k with
      | .anyone => true
      | .pf => fn == 0
      | .nobody => fn == 0
      | .fn f => fn == f || (fn == 0 && !(s.sealed && f != 0 && deckleExists s (f - 1)))
      | .deckle d => fn == d + 1 || (fn == 0 && !s.sealed)

/-! ### Locks (RWL) -/

/-- R523: a write to an injection register takes effect. -/
def injectionOpen (s : State) (fn : Nat) : Bool :=
  !s.sealed && fn == 0 && (s.fuses.lc == 1 || s.fuses.lc == 2 || s.fuses.lc == 3)

/-- The RWL fields of an instance are locked. -/
def locked (s : State) (r : Reg) (k : Nat) : Bool :=
  match r with
  | .gctMgtCfg | .gctMgtMac | .gctMgtIph | .gctMgtIpl => fget s .gctMgtCfg 31 31 == 1
  | .evtRingBase | .evtRingCfg => fget s .evtRingCfg 0 0 k == 1
  | .hqiRingBase | .hqiRingCfg | .hqiCqBase | .hqiCqCfg => (ring s k).state != .disabled
  | .rngHtInj => fget s .rngHtInj 8 8 == 1
  | .memFlipPos | .memFlipVal => fget s .memFlipPos 56 56 k == 1
  | .memXltBase | .memXltSize => xltOn s k
  | .izkPortCfg | .izkPortMac | .izkPortIph | .izkPortIpl | .izkPortL3 => fget s .izkPortCfg 0 0 k == 1
  | .qreShtInj => fget s .qreShtInj 8 8 k == 1
  | .qreBtrInj => fget s .qreBtrInj 8 8 k == 1
  | .ctxHpoolBase | .ctxHpoolCnt | .ctxLpoolBase | .ctxLpoolCnt | .ctxTpoolBase | .ctxTpoolCnt | .ctxMapBase =>
    fget s .ctxPoolCtl 0 0 k == 1
  | _ => false

/-! ### Writes by access types -/

/-- The bits `[hi:lo]` as a mask. -/
def maskOf (hi lo : Nat) : Nat := (2 ^ (hi + 1 - lo) - 1) * 2 ^ lo

/-- `x` without the bits of `m`. -/
def andNot (x m : Nat) : Nat := x - (x &&& m)

/-- Table 00.4: the effect of writing `v` to the bits `m` of a field. -/
def writeFld (lock : Bool) (m v : Nat) (old : Nat) (f : Fld) : Nat :=
  let b := m &&& maskOf f.hi f.lo
  match f.acc with
  | .ro | .wo => old
  | .rw | .rws => andNot old b + (v &&& b)
  | .rwl => if lock then old else andNot old b + (v &&& b)
  | .w1c | .ros => andNot old (v &&& b)
  | .w1s => old ||| (v &&& b)

/-- The value of a register after a write of `v` to its bits `m`. -/
def writeFields (x : RegRow) (lock : Bool) (m v old : Nat) : Nat := x.fields.foldl (writeFld lock m v) old

/-- Bits of a register whose write is a command of its own, and which no other command writes. -/
def ownBits (r : Reg) : Nat :=
  match r with
  | .gctReset => maskOf 15 0
  | .evtRingCfg | .hqiRingCfg | .memDctl | .izkPortCfg | .ctxPoolCtl => 1
  | .evtRingHead | .hqiRingDb | .hqiCqDb => maskOf 31 0
  | .evtFatal | .evtFatalNext => maskOf 63 0
  | .hqiFnSts => 3
  | .prtCmd2 | .izkDkCmd => maskOf 31 31
  | .secMode => 1
  | .secPtkCtl => 10
  | .clkSwback => maskOf 11 0
  | .rngHtInj | .qreShtInj | .qreBtrInj => maskOf 8 8
  | .memFlipPos => maskOf 56 56
  | .memPprCmd => maskOf 63 63
  | .qreErrCtl => maskOf 18 17
  | .qreRst => 1
  | .qreStrCtl => maskOf 15 8
  | .qreRole => 3
  | .qreShtReslog | .qreVatLog | .qreBtrLog | .qreStrFlt | .qreErrNext | .rngHtLog | .memEccLog => maskOf 63 0
  | _ => 0

/-- Store the bits `m` of `v` into an instance by its access types. -/
def storeReg (s : State) (r : Reg) (k j m v : Nat) : State :=
  rset s r (writeFields (regRow r) (locked s r k) m v (rget s r k j)) k j

/-- SEC_STS.APPROVED is cleared (R487). -/
def approvedOff (s : State) : State := fset s .secSts 5 5 0

/-- The ARM bit of an injection register. -/
def armBit (r : Reg) : Nat := if r = .memFlipPos then 56 else 8

/-- A write of an injection register that takes effect (R523): its fields, then ARM; arming clears APPROVED and, for a flip mask,
DONE. -/
def injWrite (s : State) (r : Reg) (k v : Nat) : State :=
  let s1 := storeReg s r k 0 (andNot (2 ^ (regRow r).width - 1) (ownBits r)) v
  if !bit v (armBit r) then s1 else
  let s2 := approvedOff (fset s1 r (armBit r) (armBit r) 1 k)
  if r = .memFlipPos then fset s2 .memFlipAddr 63 63 0 k else s2

/-- The arm command of a function. -/
def armStep (fn : Nat) (r : Reg) (k v : Nat) (s : State) : State :=
  if reaches s fn r k 0 && injectionOpen s fn then injWrite s r k v else s

/-- Drop a report that a Pliac session of slot `slot` waits for. -/
def dropReports (slot : Nat) (l : List ReportJob) : List ReportJob :=
  l.filter (fun j => match j.who with
    | .pliac k _ => k != slot
    | .spdm _ => true)

/-- A write ends every Pliac session (R543), with what they wait for. -/
def endPliac (s : State) : State :=
  { s with
    mgt := { s.mgt with sessions := [], hellos := [] }
    reports := s.mgt.sessions.foldl (fun l p => dropReports p.1 l) s.reports
    rng.drbgs := s.rng.drbgs.map (fun p =>
      (p.1, { p.2 with queue := p.2.queue.filter (fun r => match r.use with | .hello _ => false | _ => true) })) }

/-- The effect of a write to the bits `m` of an instance, apart from the bits of `ownBits`. -/
def regEffect (s : State) (fn : Nat) (r : Reg) (k j m0 v : Nat) : State :=
  let m := andNot m0 (ownBits r)
  match r with
  | .hqiRingCfg =>
    -- R354: only the PF writes FN, and the owning VF's TDI locks it
    let tdi := (func s (ringFn s k)).tdi
    storeReg s r k j (if fn != 0 || tdi == .locked || tdi == .run then andNot m (maskOf 20 16) else m) v
  | .memDctl =>
    -- R329
    if s.sealed || xltOn s k then s else
    let s1 := storeReg s r k j m v
    let s2 := if fget s1 .memDctl 1 1 k = fget s .memDctl 1 1 k then s1 else reEncrypt k (fget s1 .memDctl 1 1 k == 1) s1
    if deckleExists s k && fget s1 .memDctl 1 1 k = 0 then approvedOff s2 else s2
  | .gctPrf => if s.sealed then s else storeReg s r k j m v
  | .gctMgtCfg | .gctMgtMac | .gctMgtIph | .gctMgtIpl =>
    let s1 := storeReg s r k j m v
    if (andNot (rget s1 r) (maskOf 31 31 + maskOf 16 16)) != andNot (rget s r) (maskOf 31 31 + maskOf 16 16) then endPliac s1 else s1
  | .gctPinSts =>
    -- R12, R585: PIN_HELD stays set while the pin is still held
    let keep := (if (pin s 1).held && (pin s 1).asserted then maskOf 12 12 else 0)
      + (if (pin s 2).held && (pin s 2).asserted then maskOf 13 13 else 0)
    storeReg s r k j (andNot m keep) v
  | .pwrTempThr =>
    -- R537
    let n := writeFields (regRow r) false m v (rget s r)
    if bits n 7 0 ≤ bits n 15 8 && bits n 15 8 ≤ bits n 23 16 && bits n 23 16 ≤ 120 then rset s r (setBits n 31 31 0)
    else fset s r 31 31 1
  | .qreShtInj | .qreBtrInj | .rngHtInj | .memFlipPos | .memFlipVal =>
    if injectionOpen s fn then storeReg s r k j m v else s
  | .memPprCmd => if fget s .memPprSts 0 0 k = 1 then s else storeReg s r k j m v
  | .izkDkCmd | .izkDkArg => if fget s .izkDkRes 8 8 k = 1 then s else storeReg s r k j m v
  | .secPtkKey =>
    -- R464
    if (!s.sealed || (fn == k + 1 && (func s fn).tdi == .run)) then
      let x := deckle s k
      setDeckle s k { x with ptkWords := tset 0#32 x.ptkWords j (BitVec.ofNat 32 v) }
    else fset s .secPtkCtl 6 6 1 k
  | .secPtkCtl =>
    if (!s.sealed || (fn == k + 1 && (func s fn).tdi == .run)) then storeReg s r k j m v else fset s .secPtkCtl 6 6 1 k
  | .qreStrCtl =>
    -- R169
    match (phys s k).logical with
    | some q => if s.sealed then s else setQuire s q { quire s q with hold := andNot (quire s q).hold (m &&& 0xFF) + (v &&& m &&& 0xFF) }
    | none => s
  | .qreMbxCnt =>
    match (phys s k).logical with
    | some q =>
      let x := quire s q
      let old := x.bounced + 2 ^ 32 * x.dropped
      let new := andNot old m + (v &&& m)
      setQuire s q { x with bounced := bits new 31 0, dropped := bits new 63 32 }
    | none => s
  | .ctxSwpBw => let s1 := storeReg s r k j m v; if fget s1 r 5 0 = 0 then fset s1 r 5 0 1 else s1
  | _ => storeReg s r k j m v

/-- A write of a whole register that has a command of its own: its other fields are stored by their access types, and then the
command acts. -/
def ownWrite (s : State) (fn : Nat) (r : Reg) (k v : Nat) (act : State → State) : State :=
  if reaches s fn r k 0 then act (regEffect s fn r k 0 (2 ^ (regRow r).width - 1) v) else s

/-- One naturally aligned access of `size` bytes, resolved. -/
def hitOf (addr : Nat) : Option RegHit := regAt addr

/-- The bits of a register that a `size`-byte access at byte `off` covers. -/
def accessMask (off size : Nat) : Nat := (2 ^ (8 * size) - 1) * 2 ^ (8 * off)

/-- One 4-byte part, or one 8-byte access to a register of 64 bits or more (R5–R7, R592, R593). -/
def regWriteOne (s : State) (fn addr size v : Nat) : State :=
  match hitOf addr with
  | none => s
  | some h =>
    if reaches s fn h.row.reg h.k h.j then
      regEffect s fn h.row.reg h.k h.j (accessMask h.off size) (v * 2 ^ (8 * h.off))
    else s

/-- R5–R7: a BAR0 write. -/
def regWrite (s : State) (fn addr size v : Nat) : State :=
  if size = 4 && aligned 4 addr then regWriteOne s fn addr 4 (v % 2 ^ 32)
  else if size = 8 && aligned 8 addr then
    match hitOf addr with
    | some h =>
      if h.row.width ≥ 64 then regWriteOne s fn addr 8 (v % 2 ^ 64)
      else regWriteOne (regWriteOne s fn addr 4 (v % 2 ^ 32)) fn (addr + 4) 4 (v / 2 ^ 32 % 2 ^ 32)
    | none => regWriteOne (regWriteOne s fn addr 4 (v % 2 ^ 32)) fn (addr + 4) 4 (v / 2 ^ 32 % 2 ^ 32)
  else s

/-- The registers that are read and cleared as R59 states. -/
def isLog (r : Reg) : Bool :=
  match r with
  | .qreShtReslog | .qreVatLog | .qreBtrLog | .qreStrFlt | .qreErrNext | .rngHtLog | .memEccLog => true
  | _ => false

/-- Clear a log record as a whole. -/
def clearLog (s : State) (r : Reg) (k j : Nat) : State :=
  match r with
  | .qreStrFlt =>
    match (phys s k).logical with
    | some q => setStream s q j { stream s q j with fault := none }
    | none => s
  | _ => rset s r 0 k j

/-- R59: a write to a log register by a function. -/
def logWrite (s : State) (fn addr size v : Nat) : State :=
  match hitOf addr with
  | none => s
  | some h =>
    if !(isLog h.row.reg && reaches s fn h.row.reg h.k h.j) then s else
    let a := regAddr h.row.reg h.k h.j
    let mine := s.halfClears.filter (fun c => c.addr == a && c.fn == fn)
    let rest := s.halfClears.filter (fun c => !(c.addr == a && c.fn == fn))
    let s0 := { s with halfClears := rest }
    if size = 8 && aligned 8 addr && h.off = 0 && v % 2 ^ 64 = 2 ^ 64 - 1 then clearLog s0 h.row.reg h.k h.j
    else if size = 4 && aligned 4 addr && v % 2 ^ 32 = 2 ^ 32 - 1 then
      let up := h.off == 4
      if mine.any (fun c => c.upper != up) then clearLog s0 h.row.reg h.k h.j
      else { s0 with halfClears := rest ++ [⟨a, up, fn⟩] }
    else if (size = 4 && aligned 4 addr) || (size = 8 && aligned 8 addr) then s0
    else s

end Sys2Proof.Machine
end

