-- ==== Sys2Proof/Machine/Operands.lean ====
section
/-! DEFINITION. Operand forms and the issue of a Zidal instruction: fetch, decoding, guard, register and scratchpad hazards, the
order of the issue checks (R128–R131, R142–R150, R601). -/

namespace Sys2Proof.Machine

/-- What an operand slot of an instruction word names (R146). -/
inductive Slot where
  | none
  /-- A scalar register read. -/
  | s
  /-- A scalar register written. -/
  | sw
  /-- A scalar register read at issue and then written. -/
  | sx
  | v
  | vw
  | p
  | pw
  /-- A tile handle. -/
  | t
  deriving DecidableEq, Repr

/-- The encoding rules of one instruction word: its opcode, slots, the bits of `[34:0]` outside its slots that it uses, and the
conditions its reserved codes and gates put on it. -/
structure Op where
  maj : Nat
  sub : Nat
  f1 : Slot := .none
  f2 : Slot := .none
  f3 : Slot := .none
  f4 : Slot := .none
  /-- Bits of `[34:0]` that options or immediates may set. -/
  opt : Nat := 0
  /-- ORD is accepted (Table 05.7). -/
  ord : Bool := false
  /-- The long form is required. -/
  long : Bool := false
  /-- Every reserved code or value of the word is avoided. -/
  codes : Bool := true
  /-- Feature bits the word names (Table 05.4). -/
  gates : List Nat := []
  /-- The guard masks elements rather than the instruction (R147). -/
  masks : Bool := false
  /-- Vector registers read or written beyond the slots. -/
  vRd : List Nat := []
  vWr : List Nat := []
  /-- A memory operation, or an access to the scratchpad, that an earlier acquire holds back (R175, R181). -/
  effect : Bool := false
  deriving DecidableEq, Repr

/-- Field F3 of the word. -/
def f3Of (w : IWord) : Nat := bits w.low.toNat 34 29
/-- Field F4 of the word. -/
def f4Of (w : IWord) : Nat := bits w.low.toNat 28 23
/-- The OPT field of the word. -/
def optOf (w : IWord) : Nat := bits w.low.toNat 22 0
/-- Bits `[hi:lo]` of OPT. -/
def optF (w : IWord) (hi lo : Nat) : Nat := bits w.low.toNat hi lo
/-- The signed 35-bit immediate. -/
def imm35 (w : IWord) : Int := signed 35 w.low.toNat
/-- The signed 29-bit branch offset. -/
def imm29 (w : IWord) : Int := signed 29 w.low.toNat

/-- A slot holds no nonzero unused bit (R146). -/
def slotOk (k : Slot) (n : Nat) : Bool :=
  match k with
  | .none => n == 0
  | .s | .sw | .sx => true
  | .v | .vw | .t => decide (n < 32)
  | .p | .pw => decide (n < 8)

/-- R145, R146, R148: the word decodes under the rules of `o`. -/
def decodes (o : Op) (w : IWord) : Bool :=
  let low := w.low.toNat
  let slots := (if o.f3 = .none then 0 else maskOf 34 29) + (if o.f4 = .none then 0 else maskOf 28 23)
  slotOk o.f1 w.f1.toNat && slotOk o.f2 w.f2.toNat && (o.f3 = .none || slotOk o.f3 (f3Of w))
    && (o.f4 = .none || slotOk o.f4 (f4Of w)) && andNot low (slots ||| o.opt) == 0
    && (o.ord || w.ord == 0) && w.long == o.long
    && (!w.long || (bits w.ext.toNat 63 58 == 63 && bits w.ext.toNat 45 0 == 0)) && o.codes

/-- R139, R142: the program admits every feature the word names. -/
def gatesOk (o : Op) (g : Program) : Bool :=
  o.gates.all (fun b => bit g.features b && (! [3, 5, 8, 11].contains b || g.vminor == 1))

/-- The registers of kind `p` that the slots name. -/
def slotRegs (o : Op) (w : IWord) (p : Slot → Bool) : List Nat :=
  (if p o.f1 then [w.f1.toNat] else []) ++ (if p o.f2 then [w.f2.toNat] else [])
    ++ (if p o.f3 then [f3Of w] else []) ++ (if p o.f4 then [f4Of w] else [])

/-- Two lists share a member. -/
def meets (a b : List Nat) : Bool := a.any (fun x => b.contains x)

/-- The program a stream runs. -/
def programOf (s : State) (q st : Nat) : Program :=
  (tfind (deckle s (dkOf s q)).programs ((stream s q st).prog % 64)).getD { gen := 0, live := false }

/-- The flight of an instruction that issues now: its scalar operands are read, its registers are those of its slots. -/
def newFlight (s : State) (q st : Nat) (w : IWord) (o : Op) : Flight :=
  let x := stream s q st
  let e := w.ext.toNat
  { stream := st, seq := x.nextSeq, pc := x.pc, maj := o.maj, sub := o.sub, w := w
    vals := [x.s w.f1.toNat, x.s w.f2.toNat, x.s (f3Of w), x.s (f4Of w), x.s (bits e 57 52), x.s (bits e 51 46)]
    part := .sequencer, phase := .queued, eff := o.effect
    sWr := (slotRegs o w (fun k => k == .sw || k == .sx)).filter (· != 0)
    vRd := slotRegs o w (fun k => k == .v) ++ o.vRd
    vWr := slotRegs o w (fun k => k == .vw) ++ o.vWr
    pRd := (slotRegs o w (fun k => k == .p) ++ (if o.masks then [w.pg.toNat] else [])).filter (· != 0)
    pWr := (slotRegs o w (fun k => k == .pw)).filter (· != 0) }

/-- Operand value `i` of a flight: F1–F4, then the two registers of an extension word. -/
def Flight.val (f : Flight) (i : Nat) : Nat := nth 0 f.vals i

/-- R130: a register the instruction reads has a write outstanding, or one it writes a write or a read. -/
def hazard (x : Quire) (f : Flight) (sRd : List Nat) : Bool :=
  (flightsOf x f.stream).any (fun g =>
    meets g.sWr (sRd ++ f.sWr) || meets g.vWr (f.vRd ++ f.vWr) || meets g.vRd f.vWr
      || meets g.pWr (f.pRd ++ f.pWr) || meets g.pRd f.pWr)

/-- R129: the issue window has no entry for the stream. -/
def windowFull (x : Quire) (st : Nat) : Bool :=
  let n := (flightsOf x st).length
  let shared := (List.range 8).foldl (fun a i => a + ((flightsOf x i).length - 1)) 0
  n ≥ 25 || (n ≥ 1 && shared ≥ 56)

/-- The device lets instructions issue in logical quire `q` (R479, R505, R534). -/
def issuesIn (s : State) (q : Nat) : Bool :=
  s.boot.ready && !s.fe && s.power.rails && !s.power.stopping && decide (q < 64)
    && (match deckleOfQuire s q with | some d => (deckle s d).phase == .active | none => false)
    && (match physOf s q with | some p => !(phys s p).fenced | none => false)

/-- A fence of the stream has not ended (R177). -/
def fenced (x : Quire) (st : Nat) : Bool := (flightsOf x st).any (fun g => g.maj == 0x23 && g.sub == 0)

/-- An instruction in flight whose acquire holds later operations back (R175, R186, R187). -/
def acquiring (g : Flight) : Bool :=
  if g.maj = 0x23 then g.sub == 1 || g.sub == 3 || bit g.w.ord.toNat 0 else bit g.w.ord.toNat 0

/-- Stream `st` of quire `q` may issue. -/
def mayIssue (s : State) (q st : Nat) : Bool :=
  issuesIn s q && decide (st < 8) && (stream s q st).state == .running && !(stream s q st).ending
    && !(stream s q st).leaving && !fenced (quire s q) st

/-- An issue fault (R163) of the instruction with opcode `maj`, `sub`. -/
def issueFault (s : State) (q st maj sub code : Nat) : State :=
  let x := stream s q st
  settleQuire (streamFault (setStream s q st { x with nextSeq := x.nextSeq + 1 }) q st
    { code := code, multi := false, exec := false, maj := maj, sub := sub, pc := x.pc, seq := x.nextSeq }) q

/-- The minor opcodes assigned to a major (R149, Tables 05.7–05.19). -/
def assigned (maj sub : Nat) : Bool :=
  match maj with
  | 0x01 | 0x02 => decide (sub ≤ 9)
  | 0x03 | 0x14 | 0x23 => decide (sub ≤ 6)
  | 0x04 => decide (sub ≤ 5)
  | 0x05 | 0x06 | 0x0B | 0x0C => decide (sub ≤ 1)
  | 0x07 => decide (sub ≤ 4)
  | 0x08 | 0x1C => decide (sub ≤ 7)
  | 0x09 => decide (sub ≤ 10)
  | 0x0A => decide (sub ≤ 5) || (decide (8 ≤ sub) && decide (sub ≤ 10))
  | 0x10 => decide (sub ≤ 8)
  | 0x18 => decide (sub ≤ 11)
  | 0x20 | 0x26 => decide (sub ≤ 2)
  | 0x28 => decide (sub ≤ 3)
  | _ => false

/-- The base word of an instruction (Table 05.5). -/
def baseWord (maj sub : Nat) (w : IWord) : Nat :=
  maj * 2 ^ 58 + w.ord.toNat * 2 ^ 56 + b2n w.long * 2 ^ 55 + w.pg.toNat * 2 ^ 52 + sub * 2 ^ 47 + w.f1.toNat * 2 ^ 41
    + w.f2.toNat * 2 ^ 35 + w.low.toNat

/-- What the fetch at a stream's PC gives: the base word and the extension word, or a fault. -/
inductive Fetched where
  | word (base ext : Nat)
  | fault (code : Nat)
  deriving DecidableEq, Repr

/-- R326: a line is consumed when an access of the quire touches it. -/
def consumeLines (s : State) (q : Nat) (mem : List (Nat × Nat)) : State :=
  let x := quire s q
  if x.prefetch.isEmpty || mem.isEmpty then s
  else setQuire s q { x with prefetch := x.prefetch.map (fun p =>
    (p.1, mem.foldl (fun (y : Prefetch) r =>
      if overlaps r (y.addr, y.len) then
        { y with used := max y.used ((min (r.1 + r.2) (y.addr + y.len) - 1) / 128 + 1 - y.addr / 128) }
      else y) p.2)) }

/-- One 8-byte word of the code section, through the L1 data cache. -/
def codeWord (s : State) (q : Nat) (g : Program) (pc : Nat) : State × Fetched :=
  if pc + 8 > g.codeSize then (s, .fault 4)
  else match dkRead (consumeLines s q [(g.base + g.codeOff + pc, 8)]) (dkOf s q) (.fetch (pOf s q)) (g.base + g.codeOff + pc) 8 with
    | (s1, .ok bs) => (s1, .word (leNat bs) 0)
    | (s1, .bad c dpa) =>
      (match dpa with
        | some a => qrePoison s1 (pOf s q) (deckleOfQuire s q) a
        | none => s1, .fault c)

/-- R143: the fetch of the base word, and of the extension word of a T.MMA whose LONG is 1, the one instruction with a long form. -/
def fetch (s : State) (q st : Nat) : State × Fetched :=
  let g := programOf s q st
  let pc := (stream s q st).pc
  if pc < g.codeSize && pc % 8 != 0 then (s, .fault 1)
  else match codeWord s q g pc with
    | (s1, .word b _) =>
      if bit b 55 && bits b 63 58 == 0x14 && bits b 51 47 == 2 then
        match codeWord s1 q g (pc + 8) with
        | (s2, .word e _) => (s2, .word b e)
        | r => r
      else (s1, .word b 0)
    | r => r

/-- The word `w` of opcode `maj`, `sub` is the one fetched. -/
def isWord (maj sub : Nat) (w : IWord) (base ext : Nat) : Bool :=
  base == baseWord maj sub w && (!w.long || maj != 0x14 || sub != 2 || ext == w.ext.toNat)

/-- The stream moves past the instruction, which counts as issued (R597). -/
def advance (s0 : State) (q st : Nat) (w : IWord) : State :=
  let s := fadd s0 .qrePrf 63 0 1 (pOf s0 q) 1
  let x := stream s q st
  setStream s q st { x with pc := x.pc + (if w.long then 16 else 8), nextSeq := x.nextSeq + 1, openWait := none }

/-- The instruction has issued and its part has not begun it. -/
def waitsToStart (g : Flight) : Bool :=
  match g.phase with
  | .queued | .held | .fence _ => true
  | _ => false

/-- A range of one list meets a range of another. -/
def rangesMeet (a b : List (Nat × Nat)) : Bool := a.any (fun r => b.any (overlaps r))

/-- The instructions of the flight's stream that precede it. -/
def earlierOf (x : Quire) (f : Flight) : List Flight := (flightsOf x f.stream).filter (fun g => decide (g.seq < f.seq))

/-- An instruction that holds a read reservation on its sources while it is in flight: T.PRELOAD, T.MMA, T.MERGE (R46, R73), P.NTT and
P.INTT (R240). -/
def reserves (g : Flight) : Bool := (g.maj == 0x14 && decide (1 ≤ g.sub) && decide (g.sub ≤ 3)) || (g.maj == 0x18 && decide (g.sub ≤ 1))

/-- `g` issued before `f`. -/
def issuedBefore (x : Quire) (g f : Flight) : Bool :=
  (x.flights.takeWhile (fun h => !(h.stream == f.stream && h.seq == f.seq))).any (fun h => h.stream == g.stream && h.seq == g.seq)

/-- R46: another stream reserves a range that the flight would write.  Of two that each reserve what the other would write, neither
started, the one that issued first goes on. -/
def reservedFrom (x : Quire) (f : Flight) : Bool :=
  x.flights.any (fun g => g.stream != f.stream && reserves g && rangesMeet f.spWr g.spRd
    && !(reserves f && rangesMeet g.spWr f.spRd && !issuedBefore x g f))

/-- A P. instruction on tagged operands (R245). -/
def isTagged (g : Flight) : Bool := g.maj == 0x18 && decide (2 ≤ g.sub)

/-- R245: a tagged P. instruction of the quire that issued earlier has not ended. -/
def taggedBefore (x : Quire) (f : Flight) : Bool :=
  isTagged f && (x.flights.takeWhile (fun h => !(h.stream == f.stream && h.seq == f.seq))).any isTagged

/-- What keeps an issued instruction from starting: an acquire before it (R175, R181), a scratchpad range that an earlier instruction
of its stream still reads or writes (R180) or that another stream reserves (R46), a memory location of an earlier operation (R173), an
earlier tagged P. instruction (R245). -/
def blocked (x : Quire) (f : Flight) : Bool :=
  let e := earlierOf x f
  (f.eff && e.any acquiring)
    || e.any (fun g => rangesMeet f.spWr g.spRd || rangesMeet f.spWr g.spWr || rangesMeet f.spRd g.spWr || rangesMeet f.mem g.mem)
    || reservedFrom x f || taggedBefore x f

/-- What an instruction's own rules say at issue: the fault code of the first failing check (0 none), the flight with its part
and its ranges, whether its part has no free place, the tiles whose release it waits for at its issue (R70), and whether it must
wait after its issue for another quire. -/
structure Issue where
  fault : Nat := 0
  full : Bool := false
  await : List (Nat × Nat × Nat) := []
  wait : Bool := false
  f : Flight
  deriving DecidableEq, Repr

/-- R123: the guard of an instruction that it governs as a whole is one register word: a correctable error of it is corrected, and
an uncorrectable one, which feeds the whole instruction, lets it have no effect. -/
def guardRead (s : State) (q : Nat) (f : Flight) (guard : Nat) : State × Bool :=
  if guard = 0 || (upsetOf (quire s q) (.pred f.stream guard) 0).1 = 0 then (s, true)
  else
    let r := readRegs s q { f with vRd := [], pRd := [guard] } 0 64
    (r.1, !r.2.contains (32 + guard, 0))

/-- The guard of an instruction is read: a masking instruction reads it as a mask with its operands (R106). -/
def guardPassed (s : State) (q st : Nat) (w : IWord) (o : Op) : State × Bool :=
  if o.masks then (s, true) else guardRead s q (newFlight s q st w o) w.pg.toNat

/-- R597: a ready instruction finds no window entry or queue place: STALLS counts the cycles, whose number is timing, a free value. -/
def stall (s : State) (q : Nat) : State :=
  let (v, s1) := takeFree s
  fadd s1 .qrePrf 63 0 v (pOf s q) 3

/-- The issue of one instruction, the one at the stream's PC.  A command whose word is not there, or that the stream cannot take now,
leaves the state unchanged but for STALLS; a word there that no instruction has faults whatever the command (R149). -/
def issue (s : State) (q st : Nat) (w : IWord) (o : Op) (plan : State → Flight → Issue)
    (start : State → Flight → State) : State :=
  if !mayIssue s q st then s else
  match fetch s q st with
  | (s1, .fault c) =>
    -- no word was read: the opcode the record shows is a free value
    let (v, s2) := takeFree s1
    issueFault s2 q st (v % 64) (v / 64 % 32) c
  | (s1, .word b e) =>
    if !assigned (bits b 63 58) (bits b 51 47) then issueFault s1 q st (bits b 63 58) (bits b 51 47) 1
    else if !isWord o.maj o.sub w b e then s
    else if !(decodes o w && gatesOk o (programOf s1 q st)) then issueFault s1 q st o.maj o.sub 1
    else
    let guard := w.pg.toNat
    let waits := (flightsOf (quire s1 q) st).any (fun g => g.pWr.contains guard)
    if guard != 0 && waits then s
    else
    let r := guardPassed s1 q st w o
    let s1 := r.1
    let f0 := newFlight s1 q st w o
    if !r.2 then settleQuire (exFault (advance s1 q st w) q f0 0x30) q
    else if !o.masks && !((stream s1 q st).p guard).getLsbD 0 then settleQuire (advance s1 q st w) q
    else
      let sRd := slotRegs o w (fun k => k == .s || k == .sx) ++ (if w.long then [bits w.ext.toNat 57 52, bits w.ext.toNat 51 46] else [])
      if hazard (quire s1 q) f0 sRd then s
      else if windowFull (quire s1 q) st then stall s q
      else
        let i := plan s1 f0
        if i.fault != 0 then issueFault s1 q st o.maj o.sub i.fault
        else if !i.await.isEmpty then setStream s q st { stream s q st with openWait := some ((stream s q st).nextSeq, i.await) }
        else if i.full then stall s q
        else if o.maj != 0x14 && (i.wait || blocked (quire s1 q) i.f) then
          settleQuire (putFlight (advance s1 q st w) q { i.f with phase := .held }) q
        else settleQuire (start (consumeLines (advance s1 q st w) q i.f.mem) i.f) q

/-- The Expander's queue holds eight requests that have not started (Table 04.7). -/
def expanderFull (x : Quire) : Bool := decide (x.flights.countP (fun g => g.part == .expander && waitsToStart g) ≥ 8)

/-- The Headbox's queue holds 32 transfers that have not started (Table 04.7). -/
def headboxFull (x : Quire) : Bool := decide (x.flights.countP (fun g => g.part == .headbox && waitsToStart g) ≥ 32)

/-- An instruction of the Headbox or the Expander with no checks of its own. -/
def planIn (q : Nat) (p : Part) (s : State) (f : Flight) : Issue :=
  { full := if p = .headbox then headboxFull (quire s q) else if p = .expander then expanderFull (quire s q) else false
    f := { f with part := p } }

/-- An instruction with no checks of its own. -/
def planNone (_ : State) (f : Flight) : Issue := { f := f }

/-- R150, R45: a scratchpad operand of `n` bytes at `a` with an alignment: 0, UNMAPPED or ILLEGAL_OP. -/
def spadCheck (a n align : Nat) : Nat :=
  if a ≥ spadSize || a + n > spadSize then 4 else if a % align != 0 then 1 else 0

/-- The first fault code of a list that is not 0. -/
def firstFault : List Nat → Nat
  | [] => 0
  | c :: cs => if c != 0 then c else firstFault cs

end Sys2Proof.Machine
end

