-- ==== Sys2Proof/Machine/PolyMath.lean ====
section
/-! DEFINITION. Modular arithmetic of the lanes (R114–R120), the negacyclic NTT (R237–R239), key switching and rescaling
(R249, R255, R256), uniform halves (R254), tags and key headers (R235, R253) as functions of numbers and bytes. -/

namespace Sys2Proof.Machine

/-! ### Montgomery arithmetic -/

/-- The all-ones word an out-of-range residue becomes (R116). -/
def ones64 : Nat := 2 ^ 64 - 1

/-- One Newton step of the inverse modulo 2⁶⁴, repeated. -/
def newton64 : Nat → Nat → Nat → Nat
  | 0, _, x => x
  | n + 1, q, x => newton64 n q (x * (2 ^ 65 + 2 - q * x % 2 ^ 64) % 2 ^ 64)

/-- −q⁻¹ mod 2⁶⁴ for odd `q` (R114). -/
def qinvOf (q : Nat) : Nat := (2 ^ 64 - newton64 6 q q % 2 ^ 64) % 2 ^ 64

/-- R118: mont(x, y) + z for any modulus, by a second multiplication. -/
def montGeneral (q qinv x y z : Nat) : Nat :=
  let t := x * y
  let m := (t % 2 ^ 64) * qinv % 2 ^ 64
  let s := t + m * q
  let r := s / 2 ^ 64
  let r := if r ≥ q then r - q else r
  let r := r + z
  if r ≥ q then r - q else r

/-- R117: mont(x, y) + z for q = 2ᵃ − 2ᵇ + 1, by shifts and additions; intermediate values modulo 2⁶⁴. -/
def montShift (q a b x y z : Nat) : Nat :=
  let t := x * y
  let lo := (t % 2 ^ 64 : Nat)
  let red (v : Int) : Int := v % (2 ^ 64 : Nat)
  let u := red ((lo * 2 ^ a : Nat) - (lo * 2 ^ b : Nat) - (lo : Int))
  let w := red (u * (2 ^ a : Nat) - u * (2 ^ b : Nat))
  let w := red (w * (2 ^ a : Nat) - w * (2 ^ b : Nat))
  let m := (red (u + w)).toNat
  let s := (((t : Nat) : Int) + (m * 2 ^ a : Nat) - (m * 2 ^ b : Nat) + (m : Int)).toNat
  let r := s / 2 ^ 64
  let r := if r ≥ q then r - q else r
  let r := r + z
  if r ≥ q then r - q else r

/-- mont(x, y) in [0, q) (R115). -/
def mont (q x y : Nat) : Nat := montGeneral q (qinvOf q) x y 0

/-- R116 around an operation on two residues. -/
def rop (q : Nat) (f : Nat → Nat → Nat) (x y : Nat) : Nat := if x ≥ q || y ≥ q then ones64 else f x y

/-- (x + y) mod q under R116. -/
def addQ (q x y : Nat) : Nat := rop q (fun a b => (a + b) % q) x y
/-- (x − y) mod q under R116. -/
def subQ (q x y : Nat) : Nat := rop q (fun a b => (a + q - b) % q) x y
/-- x · y mod q under R116. -/
def mulQ (q x y : Nat) : Nat := rop q (fun a b => a * b % q) x y
/-- mont(x, y) under R116. -/
def montQ (q x y : Nat) : Nat := rop q (mont q) x y

/-- `b ^ e mod q` over the low `n` bits of `e`. -/
def powModGo : Nat → Nat → Nat → Nat → Nat → Nat
  | 0, _, _, _, acc => acc
  | n + 1, q, b, e, acc => powModGo n q (b * b % q) (e / 2) (if e % 2 = 1 then acc * b % q else acc)

/-- `b ^ e mod q`, for exponents below 2⁶⁴. -/
def powMod (q b e : Nat) : Nat := powModGo 64 q (b % q) e (1 % q)

/-- The inverse modulo a prime. -/
def invMod (q x : Nat) : Nat := powMod q x (q - 2)

/-- The squarings of one Miller–Rabin base: some power is −1. -/
def mrSquares : Nat → Nat → Nat → Bool
  | 0, _, _ => false
  | n + 1, q, x => x == q - 1 || mrSquares n q (x * x % q)

/-- One Miller–Rabin base. -/
def mrBase (q b : Nat) : Bool :=
  if b % q = 0 then true else
  let s := trailingZeros 64 (q - 1)
  let x := powMod q b ((q - 1) / 2 ^ s)
  x == 1 || mrSquares s q x

/-- R231: the Miller–Rabin test to the twelve bases. -/
def isPrime64 (q : Nat) : Bool :=
  if q < 2 then false else if q = 2 then true else if q % 2 = 0 then false else
  [2, 3, 5, 7, 11, 13, 17, 19, 23, 29, 31, 37].all (mrBase q)

/-- round(256 × log₂ q) (R233, R249). -/
def log2x256 (q : Nat) : Nat :=
  if q ≤ 1 then 0 else
  let l := q.log2
  let fr := if q = 2 ^ l then 0 else log2Bits 200 (q * 2 ^ (480 - l)) 0
  (256 * (l * 2 ^ 200 + fr) + 2 ^ 199) / 2 ^ 200

/-! ### Transforms -/

/-- The bit reversal of the low `n` bits of `k`. -/
def brv (n k : Nat) : Nat := reverseBits n k

/-- R239 forward: Cooley–Tukey on `2^n` values at table node `i` with twiddles from `tf`. -/
def nttGo (q : Nat) (mulw : Nat → Nat → Nat) (tf : Array Nat) : Nat → Nat → List Nat → List Nat
  | 0, _, a => a
  | n + 1, i, a =>
    let lo := a.take (2 ^ n)
    let hi := a.drop (2 ^ n)
    let w := tf.getD i 0
    let y := hi.map (mulw w)
    nttGo q mulw tf n (2 * i) (List.zipWith (addQ q) lo y)
      ++ nttGo q mulw tf n (2 * i + 1) (List.zipWith (subQ q) lo y)

/-- R239 inverse: Gentleman–Sande on `2^n` values at table node `i`, before the last scaling. -/
def inttGo (q : Nat) (mulw : Nat → Nat → Nat) (ti : Array Nat) : Nat → Nat → List Nat → List Nat
  | 0, _, a => a
  | n + 1, i, a =>
    let lo := inttGo q mulw ti n (2 * i) (a.take (2 ^ n))
    let hi := inttGo q mulw ti n (2 * i + 1) (a.drop (2 ^ n))
    List.zipWith (addQ q) lo hi ++ List.zipWith (fun x y => mulw (ti.getD i 0) (subQ q x y)) lo hi

/-- P.NTT (R239) with a table in Montgomery form. -/
def nttRaw (q logn : Nat) (tf a : List Nat) : List Nat := nttGo q (montQ q) tf.toArray logn 1 a

/-- P.INTT (R239) with a table in Montgomery form. -/
def inttRaw (q logn : Nat) (ti a : List Nat) : List Nat :=
  let t := ti.toArray
  (inttGo q (montQ q) t logn 1 a).map (montQ q (t.getD 0 0))

/-- The powers `1, g, g², …`, `n` of them. -/
def powersGo (q g : Nat) : Nat → Nat → List Nat
  | 0, _ => []
  | n + 1, x => x :: powersGo q g n (x * g % q)

/-- The forward twiddles ψ^brv(i) of a limb (R238), in ordinary form. -/
def twiddles (q psi logn : Nat) : Array Nat :=
  let p := (powersGo q psi (2 ^ logn) (1 % q)).toArray
  ((List.range (2 ^ logn)).map (fun i => p.getD (brv logn i) 0)).toArray

/-- The inverse twiddles ψ^(−brv(i)), with N⁻¹ at index 0. -/
def twiddlesInv (q psi logn : Nat) : Array Nat :=
  let p := (powersGo q (invMod q psi) (2 ^ logn) (1 % q)).toArray
  ((List.range (2 ^ logn)).map (fun i => if i = 0 then invMod q (2 ^ logn) else p.getD (brv logn i) 0)).toArray

/-- R237: the NTT of a limb in ordinary form. -/
def nttOf (q psi logn : Nat) (a : List Nat) : List Nat := nttGo q (mulQ q) (twiddles q psi logn) logn 1 a

/-- R237: its inverse. -/
def inttOf (q psi logn : Nat) (a : List Nat) : List Nat :=
  let t := twiddlesInv q psi logn
  (inttGo q (mulQ q) t logn 1 a).map (mulQ q (t.getD 0 0))

/-- R243: the sums that check the stages of a forward transform, one for each stage: over all outputs of its butterflies. -/
def nttSums (q : Nat) (mulw : Nat → Nat → Nat) (tf : Array Nat) : Nat → Nat → List Nat → List Nat
  | 0, _, _ => []
  | n + 1, i, a =>
    let lo := a.take (2 ^ n)
    let y := (a.drop (2 ^ n)).map (mulw (tf.getD i 0))
    let l := List.zipWith (addQ q) lo y
    let r := List.zipWith (subQ q) lo y
    (l.sum + r.sum) :: List.zipWith (· + ·) (nttSums q mulw tf n (2 * i) l) (nttSums q mulw tf n (2 * i + 1) r)

/-- R243: the same for an inverse transform: over the first outputs. -/
def inttSums (q : Nat) (mulw : Nat → Nat → Nat) (ti : Array Nat) : Nat → Nat → List Nat → List Nat
  | 0, _, _ => []
  | n + 1, i, a =>
    let (x, y) := (a.take (2 ^ n), a.drop (2 ^ n))
    List.zipWith (· + ·) (inttSums q mulw ti n (2 * i) x) (inttSums q mulw ti n (2 * i + 1) y)
      ++ [(List.zipWith (addQ q) (inttGo q mulw ti n (2 * i) x) (inttGo q mulw ti n (2 * i + 1) y)).sum]

/-- The tables of R238 for a modulus: forward, then inverse, in Montgomery form. -/
def limbTables (q psi logn : Nat) : List Byte :=
  let m (w : Nat) : List Byte := leBytes 8 (w * 2 ^ 64 % q)
  (twiddles q psi logn).toList.flatMap m ++ (twiddlesInv q psi logn).toList.flatMap m

/-! ### Bases -/

/-- The size of a basis area that R233 requires. -/
def basisAreaMin (logn l k : Nat) : Nat := roundUp 65536 ((l + k) * 16 * 2 ^ logn + 65536)

/-- R231: the basis that a record describes, or `none` where the record is not acceptable. -/
def parseBasis (rec : List Byte) : Option BasisSlot :=
  let logn := fieldAt rec 0 1; let l := fieldAt rec 1 1; let k := fieldAt rec 2 1
  let alpha := fieldAt rec 3 1; let scheme := fieldAt rec 4 1; let t := fieldAt rec 8 8
  let n := l + k
  let mods := (List.range n).map (fun m => fieldAt rec (0x40 + 16 * m) 8)
  let psis := (List.range n).map (fun m => fieldAt rec (0x48 + 16 * m) 8)
  let ranges := 12 ≤ logn && logn ≤ 17 && 1 ≤ l && l ≤ 64 && k ≤ 16
    && (if k = 0 then alpha == 0 else 1 ≤ alpha && alpha ≤ k) && scheme ≤ 1
    && allZero (sliceB rec 5 3) && allZero (sliceB rec 0x10 48)
    && (if scheme = 1 then 2 ≤ t && t < 2 ^ 60 else t == 0)
  let modOk (q : Nat) : Bool := 3 ≤ q && q < 2 ^ 60 && q % (2 * 2 ^ logn) == 1 && isPrime64 q
    && (scheme == 0 || t % q != 0)
  let psiOk (p : Nat × Nat) : Bool := p.2 < p.1 && powMod p.1 p.2 (2 ^ logn) == p.1 - 1
  if ranges && mods.all modOk && decide (mods.Nodup) && (mods.zip psis).all psiOk then
    some ⟨true, 0, logn, l, k, alpha, scheme, t, mods, psis, 0, 0⟩
  else none

/-! ### Key switching and rescaling, in ordinary form -/

/-- Limb `i` of a list of limbs. -/
def limb (ls : List (List Nat)) (i : Nat) : List Nat := nth [] ls i

/-- Modulus `m` of a basis. -/
def modAt (b : BasisSlot) (m : Nat) : Nat := nth 1 b.mods m

/-- The NTT and its inverse for modulus `m` of a basis. -/
def nttB (b : BasisSlot) (m : Nat) (a : List Nat) : List Nat := nttOf (modAt b m) (nth 0 b.psis m) b.logn a
/-- As `nttB`. -/
def inttB (b : BasisSlot) (m : Nat) (a : List Nat) : List Nat := inttOf (modAt b m) (nth 0 b.psis m) b.logn a

/-- R255, conv: coefficient lists over the moduli at indices `ss` taken to modulus `r`, with no correction term; a
coefficient out of its modulus gives all ones. -/
def convB (b : BasisSlot) (ss : List Nat) (x : List (List Nat)) (r : Nat) : List Nat :=
  let qr := modAt b r
  let qs := ss.map (modAt b)
  let consts := ss.map (fun s =>
    let q := modAt b s
    let hat := (qs.filter (· != q)).foldl (· * ·) 1
    (q, invMod q (hat % q), hat % qr))
  let n := 2 ^ b.logn
  let cols := x.map List.toArray
  (List.range n).map (fun i =>
    let vs := cols.map (fun c => c.getD i 0)
    if (vs.zip qs).any (fun p => p.1 ≥ p.2) then ones64
    else ((vs.zip consts).foldl (fun acc p => acc + (p.1 * p.2.2.1 % p.2.1) * p.2.2.2) 0) % qr)

/-- The words of a uniform half: SHAKE128 output masked to `bl` bits, words below `q` kept (R254). -/
def uniformGo (q bl : Nat) : Nat → Nat → List Word → List Nat
  | 0, _, _ => []
  | f + 1, n, st =>
    let got := ((st.take 21).map (fun w => w.toNat % 2 ^ bl)).filter (· < q)
    if got.length ≥ n then got.take n
    else got ++ uniformGo q bl f (n - got.length) (keccakF st)

/-- R254: the uniform half of digit `i`, limb `j` of a key, in ordinary NTT form. -/
def uniformHalf (b : BasisSlot) (seed : List Byte) (i j : Nat) : List Nat :=
  let q := modAt b j
  let m := seed ++ [BitVec.ofNat 8 i, BitVec.ofNat 8 j]
  let st := shakeAbsorb (List.replicate 25 0#64) (m ++ [0x1F#8] ++ zeros (168 - m.length - 2) ++ [0x80#8])
  uniformGo q (q.log2 + 1) (2 ^ b.logn + 64) (2 ^ b.logn) st

/-- The sum of limb products of one accumulator update. -/
def macLimb (q : Nat) (u e k : List Nat) : List Nat :=
  List.zipWith (addQ q) u (List.zipWith (mulQ q) e k)

/-- R255: one digit of the switch accumulated into (u0, u1), each a table of limbs by modulus index. -/
def kswDigit (b : BasisSlot) (lvl : Nat) (d : List (List Nat)) (bHalf aHalf : Nat → Nat → List Nat) (i : Nat)
    (u : Tab (List Nat) × Tab (List Nat)) : Tab (List Nat) × Tab (List Nat) :=
  let lo := b.alpha * i
  let hi := min (b.alpha * (i + 1)) (lvl + 1)
  let ds := (List.range hi).drop lo
  let t := List.range (lvl + 1) ++ (List.range b.k).map (· + b.l)
  let x := ds.map (fun j => inttB b j (limb d j))
  t.foldl (fun u r =>
    let e := if ds.contains r then limb d r else nttB b r (convB b ds x r)
    let q := modAt b r
    let z := List.replicate (2 ^ b.logn) 0
    (tupd u.1 r (macLimb q (tget z u.1 r) e (bHalf i r)), tupd u.2 r (macLimb q (tget z u.2 r) e (aHalf i r)))) u

/-- R255: the division by P of one accumulator. -/
def kswDown (b : BasisSlot) (lvl : Nat) (v : Tab (List Nat)) : List (List Nat) :=
  let sp := (List.range b.k).map (· + b.l)
  let z := sp.map (fun m =>
    let p := modAt b m
    let c := inttB b m (tget [] v m)
    if b.scheme = 1 then c.map (fun w => mulQ p (b.t % p) (mulQ p w (invMod p b.t))) else c)
  let pAll := (sp.map (modAt b)).foldl (· * ·) 1
  (List.range (lvl + 1)).map (fun j =>
    let q := modAt b j
    let w := nttB b j (convB b sp z j)
    let c := invMod q (pAll % q)
    List.zipWith (fun x y => mulQ q (subQ q x y) c) (tget [] v j) w)

/-- R255: the switch of one component `d` at level `lvl`: the limbs of u0 and u1. -/
def keySwitch (b : BasisSlot) (lvl : Nat) (d : List (List Nat)) (bHalf aHalf : Nat → Nat → List Nat) :
    List (List Nat) × List (List Nat) :=
  let n := ceilDiv (lvl + 1) b.alpha
  let u := (List.range n).foldl (fun u i => kswDigit b lvl d bHalf aHalf i u) (([], []) : Tab (List Nat) × Tab (List Nat))
  (kswDown b lvl u.1, kswDown b lvl u.2)

/-- R256: the permutation of X → X^g on one limb: slot k takes the slot k′ with 2 brv(k′) + 1 ≡ g (2 brv(k) + 1) mod 2N. -/
def autoLimb (logn g : Nat) (a : List Nat) : List Nat :=
  let arr := a.toArray
  let n2 := 2 * 2 ^ logn
  (List.range (2 ^ logn)).map (fun k => arr.getD (brv logn ((g * (2 * brv logn k + 1) % n2) / 2)) 0)

/-- The lift of `x` modulo `q` into (−q/2, q/2]. -/
def centre (q x : Nat) : Int := if 2 * x ≤ q then (x : Int) else (x : Int) - (q : Int)

/-- R249: one component of P.RESCALE from level `lvl`. -/
def rescaleComp (b : BasisSlot) (lvl : Nat) (c : List (List Nat)) : List (List Nat) :=
  let ql := modAt b lvl
  let co := inttB b lvl (limb c lvl)
  let delta := co.map (fun w =>
    if w ≥ ql then none
    else if b.scheme = 1 then some ((b.t : Int) * centre ql (w * invMod ql b.t % ql))
    else some (centre ql w))
  (List.range lvl).map (fun j =>
    let q := modAt b j
    let dl := nttB b j (delta.map (fun d => match d with
      | some v => (v % (q : Int)).toNat
      | none => ones64))
    let inv := invMod q (ql % q)
    List.zipWith (fun x y => mulQ q (subQ q x y) inv) (limb c j) dl)

/-! ### The basis area (R233) -/

/-- The constants of conv over the moduli at indices `ss`: Ŝ⁻¹ mod s for each, then Ŝ mod r for each modulus r at `rs`. -/
def convConsts (b : BasisSlot) (ss rs : List Nat) : List Nat :=
  ss.flatMap (fun s =>
    let hat := ((ss.filter (· != s)).map (modAt b)).foldl (· * ·) 1
    invMod (modAt b s) (hat % modAt b s) :: rs.map (fun r => hat % modAt b r))

/-- The constants of a basis, in words. -/
def basisConsts (b : BasisSlot) : List Nat :=
  let all := List.range (b.l + b.k)
  let data := List.range b.l
  let special := (List.range b.k).map (· + b.l)
  let pAll := (special.map (modAt b)).foldl (· * ·) 1
  all.flatMap (fun m => [qinvOf (modAt b m), 2 ^ 128 % modAt b m, log2x256 (modAt b m)])
    ++ data.map (fun j => invMod (modAt b j) (pAll % modAt b j))
    ++ (if b.scheme = 1 then all.map (fun m => invMod (modAt b m) (b.t % modAt b m)) else [])
    ++ data.flatMap (fun m => (List.range m).map (fun j => invMod (modAt b j) (modAt b m % modAt b j)))
    ++ convConsts b special data
    ++ (List.range (ceilDiv b.l (max 1 b.alpha))).flatMap (fun i =>
        let ds := (List.range (min b.l (b.alpha * (i + 1)))).drop (b.alpha * i)
        convConsts b ds (all.filter (fun r => !ds.contains r)))

/-- What registration stores in a basis area: the tables of every modulus, then the constants in 64 KiB. -/
def basisArea (b : BasisSlot) : List Byte :=
  (b.mods.zip b.psis).flatMap (fun p => limbTables p.1 p.2 b.logn)
    ++ ((basisConsts b ++ List.replicate 8192 0).take 8192).flatMap (leBytes 8)

/-! ### Tags and key headers -/

/-- A tag (Table 08.3). -/
structure Tag where
  kind : Nat
  logn : Nat
  level : Nat
  state : Nat
  basis : Nat
  mont : Bool
  deg2 : Bool
  scale : Nat
  noise : Nat
  keyset : Nat
  serial : Nat
  deriving DecidableEq, Repr

/-- The 32 bytes of a tag, with its check field (R236). -/
def tagBytes (t : Tag) : List Byte :=
  let b := leBytes 4 0x31544351 ++ leBytes 1 t.kind ++ leBytes 1 t.logn ++ leBytes 1 t.level ++ leBytes 1 t.state
    ++ leBytes 2 t.basis ++ leBytes 1 (b2n t.mont + 2 * b2n t.deg2) ++ [0#8] ++ leBytes 2 t.scale ++ leBytes 2 t.noise
    ++ leBytes 8 t.keyset ++ leBytes 4 t.serial
  b ++ leBytes 4 (crc32c b)

/-- The fault tag of R246: INVALID, every field zero but MAGIC, SERIAL 0 and CHK. -/
def faultTag : Tag := ⟨0, 0, 0, 0, 0, false, false, 0, 0, 0, 0⟩

/-- The tag that 32 bytes hold, whatever its check field. -/
def readTag (b : List Byte) : Tag :=
  ⟨fieldAt b 4 1, fieldAt b 5 1, fieldAt b 6 1, fieldAt b 7 1, fieldAt b 8 2, bit (fieldAt b 10 1) 0, bit (fieldAt b 10 1) 1,
   fieldAt b 12 2, fieldAt b 14 2, fieldAt b 16 8, fieldAt b 24 4⟩

/-- Table 08.4 order 1, the part that a tag's bytes decide: magic, check field, reserved fields, kind and state. -/
def tagSound (b : List Byte) : Bool :=
  fieldAt b 0 4 == 0x31544351 && fieldAt b 28 4 == crc32c (sliceB b 0 28)
    && fieldAt b 10 1 < 4 && fieldAt b 11 1 == 0
    && 1 ≤ fieldAt b 4 1 && fieldAt b 4 1 ≤ 5 && (fieldAt b 7 1 == 1 || fieldAt b 7 1 == 2)

/-- The components of an object: 1 for a plaintext, 3 with DEG2, otherwise 2. -/
def tagComps (t : Tag) : Nat := if t.kind = 3 || t.kind = 4 then 1 else if t.deg2 then 3 else 2

/-- The bytes an RLWE object takes (R234). -/
def tagSize (t : Tag) : Nat := 64 + 8 * 2 ^ t.logn * tagComps t * (t.level + 1)

/-- The bytes of a bit object (R266). -/
def bitSize (t : Tag) : Nat := 64 + 8 * (t.basis + 1) * (t.level + 1)

/-- The words of a byte string. -/
def wordsOf (b : List Byte) : List Nat := (chunksOf 8 (b.length / 8) b).map leNat

/-- A key header (Table 08.7). -/
structure KeyHdr where
  kind : Nat
  logn : Nat
  basis : Nat
  galois : Nat
  keyset : Nat
  seed : List Byte
  srcset : Nat
  ksnoise : Nat
  deriving DecidableEq, Repr

/-- The fields of a key header. -/
def readKey (b : List Byte) : KeyHdr :=
  ⟨fieldAt b 4 1, fieldAt b 5 1, fieldAt b 8 2, fieldAt b 12 4, fieldAt b 16 8, sliceB b 32 32, fieldAt b 64 8, fieldAt b 72 2⟩

/-- A key header's magic, check field, kind and reserved fields are right (Table 08.9). -/
def keySound (b : List Byte) : Bool :=
  let h := readKey b
  let n2 := 2 * 2 ^ h.logn
  fieldAt b 0 4 == 0x31594B51 && fieldAt b 28 4 == crc32c (sliceB b 0 28 ++ sliceB b 32 96)
    && 1 ≤ h.kind && h.kind ≤ 5 && allZero (sliceB b 6 2) && allZero (sliceB b 10 2) && allZero (sliceB b 24 4)
    && (if h.kind = 2 then h.galois % 2 == 1 && h.galois < n2 else h.galois == 0)
    && (h.kind == 3 || h.srcset == h.keyset)

end Sys2Proof.Machine
end

