-- ==== Sys2Proof/Machine/Beater.lean ====
section
/-! DEFINITION. The Beater (ch. 04): lanes with what uncorrectable words feed, the pipes and their queues, the residue checks of R122,
the register checks of R123, injection, and the element computations of the V. and M. instructions. -/

namespace Sys2Proof.Machine

/-! ### Lanes -/

/-- A lane value and whether an uncorrectable register word feeds it. -/
abbrev Lane := Nat × Bool

/-- What an instruction writes: vector registers as (register, lane width, lanes, with `none` for a lane that keeps its value), a
predicate, the elements it computes, RANGE, the code a fed lane takes, and for an element the predicted residue and the checked value
of its check (R121), where the table gives the check its terms. -/
structure BOut where
  v : List (Nat × Nat × List (Option Lane)) := []
  p : Option (Nat × List (Option Bool)) := none
  comp : List Nat := []
  range : Bool := false
  bad : Nat := 0
  chk : Nat → Option (Nat × Int) := fun _ => none

/-! ### Checks (R121) -/

/-- A term of a checked sum: its residue as the operands predict it, its value, and the exponent of its last place. -/
abbrev Term := Nat × Int × Int

/-- A residue rotated left by `s` places (R55). -/
def rot127 (r s : Nat) : Nat := r * 2 ^ (s % 7) % 127

/-- The term of a floating-point operand; a special has none. -/
def termF : FVal → Option Term
  | .fin neg m e => some (((sgn neg m) % 127).toNat, sgn neg m, e)
  | _ => none

/-- The term of the product of two operands. -/
def termMul (a b : FVal) : Option Term :=
  match termF a, termF b with
  | some x, some y => some (x.1 * y.1 % 127, x.2.1 * y.2.1, x.2.2 + y.2.2)
  | _, _ => none

/-- The check of an aligned exact sum: the residues of its terms rotated into place, and the sum; a special enters as zero on both
sides. -/
def chkSum (ts : List (Option Term)) : Nat × Int :=
  if ts.any Option.isNone then (0, 0) else
  let l := ts.filterMap id
  let low := l.foldl (fun m t => min m t.2.2) ((l.map (·.2.2)).headD 0)
  l.foldl (fun a t => ((a.1 + rot127 t.1 (t.2.2 - low).toNat) % 127, a.2 + t.2.1 * ((2 ^ (t.2.2 - low).toNat : Nat) : Int))) (0, 0)

/-- The term of an integer operand. -/
def termI (i : Int) : Option Term := some ((i % 127).toNat, i, 0)

/-- A register's lanes of width `w`, marked by the bad 64-bit words of the register. -/
def vLanes (x : Stream) (bad : List (Nat × Nat)) (r w : Nat) : List Lane :=
  let ls := lanesOf w (16384 / w) (x.v r).toNat
  if bad.isEmpty then ls.map (fun v => (v, false))
  else ls.zipIdx.map (fun p => (p.1, bad.contains (r, p.2 * w / 64)))

/-- The lanes of operand F3: a vector register, or a scalar's low bits in every lane (R159). -/
def bLanes (x : Stream) (bad : List (Nat × Nat)) (f : Flight) (w bs : Nat) : List Lane :=
  if bs = 1 then List.replicate (16384 / w) (f.val 2 % 2 ^ w, false) else vLanes x bad (f3Of f.w) w

/-- The elements below `n` that the guard computes. -/
def compOf (g : Pred) (n : Nat) : List Nat := (List.range n).filter (fun e => g.getLsbD e)

/-- Keep only the lanes the guard computes. -/
def maskLanes (g : Pred) (ls : List Lane) : List (Option Lane) :=
  ls.zipIdx.map (fun p => if g.getLsbD p.2 then some p.1 else none)

/-- Lane by lane. -/
def map2L (h : Nat → Nat → Nat) (a b : List Lane) : List Lane := List.zipWith (fun x y => (h x.1 y.1, x.2 || y.2)) a b

/-- Write lanes over a register: `none` keeps, a fed lane takes `bad`. -/
def writeLanes (bad w : Nat) (old : VReg) (ls : List (Option Lane)) : VReg :=
  let olds := lanesOf w (16384 / w) old.toNat
  BitVec.ofNat 16384 (ofLanes w (List.zipWith (fun o l => match l with
    | none => o
    | some (v, t) => if t then bad else v) olds ls))

/-! ### Pipes -/

/-- The pipes of an instruction: FP, MOD, TRN, XBAR as bits 0–3 (Table 04.2). -/
def pipesOf (maj sub : Nat) : Nat :=
  if maj = 8 || maj = 9 then 1 else if maj = 0x0A then 4 else if maj = 0x0B then 8
  else if maj = 0x10 then (if sub = 7 then 10 else 2) else 0

/-- The pipe mask of a part. -/
def partPipes : Part → Nat
  | .pipes a b c d => b2n a + 2 * b2n b + 4 * b2n c + 8 * b2n d
  | _ => 0

/-- The part of a pipe mask. -/
def pipesPart (m : Nat) : Part := .pipes (bit m 0) (bit m 1) (bit m 2) (bit m 3)

/-- The occupancy is longer than one cycle (Table 04.2). -/
def longOcc (x : Stream) (f : Flight) : Bool :=
  let general := (tget ({} : ModSlot) x.mslots (optF f.w 22 20)).kind == .general
  f.maj == 0x0A || (f.maj == 0x0B && f.sub == 0)
    || (f.maj == 0x10 && (f.sub == 4 || f.sub == 8 || (general && (f.sub == 5 || f.sub == 6 || f.sub == 7))))

/-- The queue an instruction waits in: M.BFLY waits in MOD's. -/
def queuePipe (m : Nat) : Nat := if m = 10 then 2 else m

/-- The instructions that wait in the queue of an instruction of pipe mask `m`. -/
def pipeWaits (x : Quire) (m : Nat) : List Flight :=
  x.flights.filter (fun g => partPipes g.part != 0 && queuePipe (partPipes g.part) == queuePipe m)

/-- The instruction must wait, and its pipe's queue of two is full (R105, Table 04.7). -/
def pipeFull (x : Quire) (m : Nat) : Bool :=
  (x.pipeBusy &&& m != 0 || !(pipeWaits x m).isEmpty) && (pipeWaits x m).length ≥ 2

/-- The instructions a pipe may start: the heads of the queues that hold work for it, oldest first; M.BFLY at the head of MOD's queue
is XBAR's too. -/
def pipeHeads (x : Quire) (pipe : Nat) : List Flight :=
  x.flights.filter (fun f => bit (partPipes f.part) pipe && (pipeWaits x (partPipes f.part)).head? == some f)

/-- The issue of a Beater instruction with its own check. -/
def planPipe (q : Nat) (check : State → Flight → Nat) (s : State) (f : Flight) : Issue :=
  let m := pipesOf f.maj f.sub
  { fault := check s f, full := pipeFull (quire s q) m, f := { f with part := pipesPart m } }

/-! ### Reading registers (R123) and the residue check (R122) -/

/-- The number QRE_BTR_LOG gives a pipe mask. -/
def pipeNum (m : Nat) : Nat := if bit m 0 then 0 else if bit m 1 then 1 else if bit m 2 then 2 else 3

/-- The width of the elements an instruction reads. -/
def srcWidth (f : Flight) : Nat :=
  match f.maj with
  | 8 => if f.sub = 7 then (if optF f.w 21 20 = 1 then 16 else 32) else if optF f.w 22 22 = 1 then 16 else 32
  | 0x0A => if optF f.w 22 22 = 1 then 16 else 32
  | 0x0B => if optF f.w 22 22 = 1 then 64 else 32
  | 0x10 => 64
  | _ => 32

/-- Write an instruction's results. -/
def writeOut (s : State) (q st : Nat) (o : BOut) : State :=
  let s1 := o.v.foldl (fun s r =>
    let x := stream s q st
    let s' := setStream s q st (x.setV r.1 (writeLanes o.bad r.2.1 (x.v r.1) r.2.2))
    -- words written whole lose their upsets
    let y := quire s' q
    if y.upsets.isEmpty then s' else
    let per := max 1 (64 / r.2.1)
    let whole (w : Nat) : Bool := ((r.2.2.drop (w * per)).take per).all Option.isSome
    setQuire s' q { y with upsets := y.upsets.filter (fun u => !(u.store == .vreg st r.1 && whole u.word)) }) s
  let s2 := match o.p with
    | none => s1
    | some (r, bs) =>
      let old := (stream s1 q st).p r
      let new := bs.zipIdx.foldl (fun v b => match b.1 with
        | none => v
        | some t => setBits v b.2 b.2 (b2n t)) old.toNat
      let s' := wrP s1 q st r (BitVec.ofNat 1024 new)
      freshPred s' q st r (fun w => (w + 1) * 64 ≤ bs.length && ((bs.drop (w * 64)).take 64).all Option.isSome)
  if o.range then fset s2 .qreBtrSts st st 1 (pOf s q) else s2

/-- The elements of a result that uncorrectable words of the guard feed: an element of a lane result, a segment of a reduction. -/
def feedGuard (f : Flight) (bad : List (Nat × Nat)) (o : BOut) : BOut :=
  let words := (bad.filter (fun b => b.1 == 32 + f.w.pg.toNat)).map (·.2)
  if words.isEmpty then o else
  let red := f.maj == 0x0A && decide (f.sub ≥ 8)
  let seg := if optF f.w 19 16 = 0 then 1024 else 2 ^ optF f.w 19 16
  let fed (e : Nat) : Bool := if red then words.any (fun w => decide (w * 64 < e / seg * seg + seg) && decide (e / seg * seg < w * 64 + 64))
    else words.contains (e / 64)
  let n := if f.maj = 8 && f.sub = 7 then 512 else 1024
  { o with
    v := o.v.map (fun r => (r.1, r.2.1, r.2.2.zipIdx.map (fun l => if decide (l.2 < n) && fed l.2 then some (0, true) else l.1)))
    p := o.p.map (fun r => (r.1, r.2.zipIdx.map (fun l => if fed l.2 then some true else l.1))) }

/-- A value with one bit inverted. -/
def flip1 (v : Int) (b : Nat) : Int := if (v / ((2 ^ b : Nat) : Int)) % 2 = 0 then v + ((2 ^ b : Nat) : Int) else v - ((2 ^ b : Nat) : Int)

/-- The checks that fail when bits of unrounded results are inverted, as (element, bit), an element once: the element and its two
residues.  Where the table names no terms for the check, the value that `v` gives stands for the checked one. -/
def failing (o : BOut) (v : Nat) (us : List (Nat × Nat)) : List (Nat × Nat × Nat) :=
  us.filterMap (fun u =>
    let c := (o.chk u.1).getD (v % 127, (v : Int))
    let act := ((flip1 c.2 u.2) % 127).toNat
    if o.comp.contains u.1 && act != c.1 then some (u.1, c.1, act) else none)

/-- The lowest of the failing elements. -/
def lowest : List (Nat × Nat × Nat) → Option (Nat × Nat × Nat)
  | [] => none
  | x :: xs => some (xs.foldl (fun a y => if y.1 < a.1 then y else a) x)

/-- An instruction runs in its pipes with upsets `u`: registers are read, the result computed, checked and written, and the
instruction ends. -/
def beaterRun (q : Nat) (u : LaneUpset) (comp : Stream → List (Nat × Nat) → Flight → BOut) (s : State) (f : Flight) : State :=
  let p := pOf s q
  let pipe := pipeNum (pipesOf f.maj f.sub)
  let (s1, bad) := readRegs (addUpsets s q u.stores u.paths) q f pipe (srcWidth f)
  let o := feedGuard f bad (comp (stream s1 q f.stream) bad f)
  let s2 := dropFlight s1 q f.stream f.seq
  -- the injection that its issue took is complete
  let s3 := if f.inj.isSome then fset s2 .qreBtrInj 8 8 0 p else s2
  if !bad.isEmpty then exFault (writeOut s3 q f.stream o) q f 0x30
  else
    let hit := if f.inj.isSome then (o.comp.take 1).map (fun e => (e, 0)) else []
    let rep := if f.inj = some true then hit else []
    if (hit ++ u.first).isEmpty then writeOut s3 q f.stream o else
    let (v, s4) := takeFree s3
    match lowest (failing o v (hit ++ u.first)) with
    | none => writeOut s4 q f.stream o
    | some (elem, pred, act) =>
      let again := !(failing o v (rep ++ u.again)).isEmpty
      let dst := match o.v with
        | (r, _, _) :: _ => r
        | [] => f.w.f1.toNat
      let s5 := btrLog s4 p (b2n again) 0 pipe f.stream dst elem pred act
      if again then exFault (qreError s5 p 2 0x06 pipe) q f 0x31
      else qreError (writeOut (fadd s5 .qreBtrCecnt 31 0 1 p) q f.stream o) p 0 0x05 pipe

/-- The checks that inverted bits of values `val`, as (index, bit), make fail: the index and the two residues. -/
def failingAt (val : Nat → Nat) (us : List (Nat × Nat)) : List (Nat × Nat × Nat) :=
  us.filterMap (fun u =>
    let act := ((flip1 (val u.1) u.2) % 127).toNat
    if act != val u.1 % 127 then some (u.1, val u.1 % 127, act) else none)

/-- R121, R122, R243: the `n` checks on a path of the lanes during a P. or A. instruction, whose values are `val`.  A failing one is
computed once more: cured, it is logged and counted; failing again, it is logged with REPEAT, and the answer is false. -/
def pathCheck (q : Nat) (f : Flight) (path : UPath) (pipe n : Nat) (val : Nat → Nat) (s : State) : State × Bool :=
  if (quire s q).strikes.isEmpty then (s, true) else
  let p := pOf s q
  let hits (again : Bool) : List (Nat × Nat × Nat) :=
    failingAt val ((strikesOf (quire s q) path again).filter (fun u => decide (u.1 < n)))
  let twice := (hits true).map (·.1)
  (hits false).foldl (fun a h =>
    if !a.2 then a
    else if twice.contains h.1 then (qreError (btrLog a.1 p 1 0 pipe f.stream 0 0 h.2.1 h.2.2) p 2 0x06 pipe, false)
    else (qreError (fadd (btrLog a.1 p 0 0 pipe f.stream 0 0 h.2.1 h.2.2) .qreBtrCecnt 31 0 1 p) p 0 0x05 pipe, true))
    (dropStrikes s q path, true)

/-- The instruction occupies its pipes. -/
def occupy (s : State) (q : Nat) (f : Flight) : State :=
  if longOcc (stream s q f.stream) f then
    setQuire s q { quire s q with pipeBusy := (quire s q).pipeBusy ||| pipesOf f.maj f.sub }
  else s

/-- R127: the injection that an instruction's issue takes: one armed for its pipe that no instruction in flight has taken, where it
computes an element. -/
def takeInj (s : State) (q : Nat) (comp : List Nat) (f : Flight) : Option Bool :=
  let p := pOf s q
  if fget s .qreBtrInj 8 8 p = 1 && bit (pipesOf f.maj f.sub) (fget s .qreBtrInj 1 0 p)
      && !(quire s q).flights.any (fun g => g.inj.isSome) && !comp.isEmpty
  then some (fget s .qreBtrInj 2 2 p == 1) else none

/-- R105: start now where the pipes are free and its queue is empty, else wait. -/
def pipeIssue (q : Nat) (comp : Stream → Flight → List Nat) (run : State → Flight → State) (s : State) (f0 : Flight) : State :=
  let f := { f0 with inj := takeInj s q (comp (stream s q f0.stream) f0) f0 }
  let m := pipesOf f.maj f.sub
  let x := quire s q
  if x.pipeBusy &&& m != 0 || !(pipeWaits x m).isEmpty then putFlight s q f else run (occupy s q f) f

/-! ### Element computations: V. -/

/-- The guard predicate of a flight. -/
def guardOf (x : Stream) (f : Flight) : Pred := x.p f.w.pg.toNat

/-- The floating-point format of EF. -/
def efFmt (f : Flight) : Fmt := if optF f.w 22 22 = 1 then bf16 else fp32

/-- A result of one register under the guard. -/
def out1 (g : Pred) (r w bad : Nat) (ls : List Lane) : BOut :=
  { v := [(r, w, maskLanes g ls)], comp := compOf g (16384 / w), bad := bad }

/-- Element `e` of lanes. -/
def lane0 (ls : List Lane) (e : Nat) : Nat := (nth (0, false) ls e).1

/-- V.ADD … V.MAX: one rounding of a function of two exact values, with its check. -/
def calcFp2 (h : FVal → FVal → FVal) (chk : FVal → FVal → Option (Nat × Int)) (x : Stream) (bad : List (Nat × Nat)) (f : Flight) : BOut :=
  let F := efFmt f
  let w := fmtWidth F
  let a := vLanes x bad f.w.f2.toNat w
  let b := bLanes x bad f w (optF f.w 16 16)
  { out1 (guardOf x f) f.w.f1.toNat w (fmtNaN F) (map2L (fun a b => encodeF F .rne (h (decodeF F a) (decodeF F b))) a b) with
    chk := fun e => chk (decodeF F (lane0 a e)) (decodeF F (lane0 b e)) }

/-- V.FMA. -/
def calcFma (x : Stream) (bad : List (Nat × Nat)) (f : Flight) : BOut :=
  let F := efFmt f
  let w := fmtWidth F
  let a := vLanes x bad f.w.f2.toNat w
  let b := bLanes x bad f w (optF f.w 16 16)
  let c := vLanes x bad (f4Of f.w) w
  { out1 (guardOf x f) f.w.f1.toNat w (fmtNaN F)
      (List.zipWith (fun p c => (encodeF F .rne (addF (mulF (decodeF F p.1.1) (decodeF F p.2.1)) (decodeF F c.1)), p.1.2 || p.2.2 || c.2))
        (List.zip a b) c) with
    chk := fun e => some (chkSum [termMul (decodeF F (lane0 a e)) (decodeF F (lane0 b e)), termF (decodeF F (lane0 c e))]) }

/-- V.CMP: a relation fed by an uncorrectable word writes 1. -/
def calcCmp (x : Stream) (bad : List (Nat × Nat)) (f : Flight) : BOut :=
  let F := efFmt f
  let w := fmtWidth F
  let g := guardOf x f
  let r := List.zipWith (fun a b => if a.2 || b.2 then true else relF (optF f.w 21 19) (decodeF F a.1) (decodeF F b.1))
    (vLanes x bad f.w.f2.toNat w) (bLanes x bad f w (optF f.w 16 16))
  { p := some (f.w.f1.toNat, r.zipIdx.map (fun b => if g.getLsbD b.2 then some b.1 else none)), comp := compOf g (16384 / w) }

/-- The value of an element that V.CVT reads. -/
def cvtSrc (src v : Nat) : FVal := if src = 0 then decodeF fp32 v else if src = 1 then decodeF bf16 v else ofInt2 (signed 32 v) 0

/-- V.CVT (R108) of one value. -/
def cvtOne (src dst rz v : Nat) : Nat :=
  let r := if rz = 1 then Rnd.rz else .rne
  let x := cvtSrc src v
  if dst = 2 then wrapTo 32 (toS32 r x) else encodeF (if dst = 0 then fp32 else bf16) r x

/-- V.CVT: 512 elements. -/
def calcCvt (x : Stream) (bad : List (Nat × Nat)) (f : Flight) : BOut :=
  let src := optF f.w 21 20
  let dst := optF f.w 19 18
  let g := guardOf x f
  let ins := (vLanes x bad f.w.f2.toNat (if src = 1 then 16 else 32)).take 512
  let ls := maskLanes g (ins.map (fun a => (cvtOne src dst (optF f.w 17 17) a.1, a.2)))
  { v := [(f.w.f1.toNat, if dst = 1 then 16 else 32, if dst = 1 then ls ++ List.replicate 512 none else ls)]
    comp := compOf g 512, bad := if dst = 2 then 2 ^ 32 - 1 else fmtNaN (if dst = 0 then fp32 else bf16)
    chk := fun e => some (chkSum [termF (cvtSrc src (lane0 ins e))]) }

/-- R109: the integer lane operations, by minor opcode. -/
def intLane (sub a b : Nat) : Nat :=
  match sub with
  | 0 => (a + b) % 2 ^ 32
  | 1 => subMod (2 ^ 32) a b
  | 2 => a * b % 2 ^ 32
  | 3 => a * 2 ^ (b % 32) % 2 ^ 32
  | 4 => a / 2 ^ (b % 32)
  | 5 => wrapTo 32 (signed 32 a / ((2 ^ (b % 32) : Nat) : Int))
  | 6 => a &&& b
  | 7 => a ||| b
  | 8 => a ^^^ b
  | 9 => if signed 32 b < signed 32 a then b else a
  | _ => if signed 32 b > signed 32 a then b else a

/-- The check of an integer sum, difference or product. -/
def intChk (sub a b : Nat) : Option (Nat × Int) :=
  match sub with
  | 0 => some (chkSum [termI a, termI b])
  | 1 => some (chkSum [termI a, termI (-(b : Int))])
  | 2 => some ((a % 127) * (b % 127) % 127, ((a * b : Nat) : Int))
  | _ => none

/-- The V.INT instructions. -/
def calcInt (x : Stream) (bad : List (Nat × Nat)) (f : Flight) : BOut :=
  let a := vLanes x bad f.w.f2.toNat 32
  let b := bLanes x bad f 32 (optF f.w 16 16)
  { out1 (guardOf x f) f.w.f1.toNat 32 (2 ^ 32 - 1) (map2L (intLane f.sub) a b) with
    chk := fun e => intChk f.sub (lane0 a e) (lane0 b e) }

/-- R110: the functions of Table 04.3. -/
def trnLane (sub : Nat) (F : Fmt) (v : FVal) : Nat :=
  match sub with
  | 0 => exp2F F v
  | 1 => log2F F v
  | 2 => rcpF F v
  | 3 => rsqrtF F v
  | 4 => sqrtF F v
  | _ => tanhF F v

/-- The transcendental instructions. -/
def calcTrn (x : Stream) (bad : List (Nat × Nat)) (f : Flight) : BOut :=
  let F := efFmt f
  let w := fmtWidth F
  let g := guardOf x f
  -- a masked element is not computed
  out1 g f.w.f1.toNat w (fmtNaN F) ((vLanes x bad f.w.f2.toNat w).zipIdx.map (fun a =>
    (if g.getLsbD a.2 then trnLane f.sub F (decodeF F a.1.1) else 0, a.1.2)))

/-- R112: the exact sum. -/
def sumF (vs : List FVal) : FVal :=
  match vs.foldl addF (.fin false 0 0) with
  | .fin neg m e => if m = 0 then .fin false 0 0 else .fin neg m e
  | v => v

/-- R113: the winner, the first of equals; NaN over every number. -/
def bestF (max : Bool) (vs : List FVal) : FVal :=
  vs.foldl (fun a v => if isNaN a then a else if isNaN v then v
    else if cmpF v a == (if max then .gt else .lt) then v else a) (.inf max)

/-- One reduction of values with the operation of the minor opcode; an empty maximum is −Inf, an empty minimum +Inf.  The fold of
`bestF` starts at the identity, so a value equal to it wins as the same bits. -/
def reduceF (sub : Nat) (F : Fmt) (vs : List FVal) : Nat :=
  if sub = 8 then encodeF F .rne (sumF vs) else encodeF F .rne (bestF (sub == 9) vs)

/-- The number of source registers of a reduction. -/
def countOf (w : IWord) : Nat := 2 ^ optF w 21 20

/-- V.RSUM, V.RMAX, V.RMIN (R111). -/
def calcRed (x : Stream) (bad : List (Nat × Nat)) (f : Flight) : BOut :=
  let F := efFmt f
  let w := fmtWidth F
  let n := 16384 / w
  let g := guardOf x f
  let take (ls : List (Lane × Nat)) : Lane :=
    let on := ls.filter (fun a => g.getLsbD a.2)
    (reduceF f.sub F (on.map (fun a => decodeF F a.1.1)), on.any (fun a => a.1.2))
  let logseg := optF f.w 19 16
  let res : List Lane :=
    if logseg = 0 then
      List.replicate n (take ((List.range (countOf f.w)).flatMap (fun k => (vLanes x bad (f.w.f2.toNat + k) w).zipIdx)))
    else
      (chunksOf (2 ^ logseg) n (vLanes x bad f.w.f2.toNat w).zipIdx).flatMap (fun c => List.replicate (2 ^ logseg) (take c))
  let all := (List.range (countOf f.w)).flatMap (fun k => (vLanes x bad (f.w.f2.toNat + k) w).zipIdx)
  let seg (e : Nat) : List (Lane × Nat) := if logseg = 0 then all else all.filter (fun a => a.2 / 2 ^ logseg == e / 2 ^ logseg)
  { v := [(f.w.f1.toNat, w, res.map some)], comp := compOf g n, bad := fmtNaN F
    chk := fun e => if f.sub = 8 then
      some (chkSum (((seg e).filter (fun a => g.getLsbD a.2)).map (fun a => termF (decodeF F a.1.1)))) else none }

/-- V.PERM and V.BITREV (R120), given the source index of every element. -/
def calcXbar (index : Stream → List (Nat × Nat) → Flight → Nat → List Lane) (x : Stream) (bad : List (Nat × Nat)) (f : Flight) : BOut :=
  let w := if optF f.w 22 22 = 1 then 64 else 32
  let n := 16384 / w
  let src := (vLanes x bad f.w.f2.toNat w).toArray
  let moved : List Lane := (index x bad f w).map (fun i =>
    let a := src.getD (i.1 % n) (0, false)
    (a.1, a.2 || i.2))
  -- the sum of the elements as the crossbar takes them and as it gives them
  { out1 (guardOf x f) f.w.f1.toNat w (2 ^ w - 1) moved with chk := fun _ => some (chkSum (moved.map (fun l => termI l.1))) }

/-! ### Element computations: M. -/

/-- The modulus slot a flight names. -/
def slotOf (x : Stream) (f : Flight) : ModSlot := tget {} x.mslots (optF f.w 22 20)

/-- mont(a, b) + c by the slot's kind (R117, R118). -/
def montBy (m : ModSlot) (general : Bool) (a b c : Nat) : Nat :=
  if m.kind == .shift && !general then montShift m.q m.a m.b a b c else montGeneral m.q m.qinv a b c

/-- R116 on three inputs. -/
def inRange (q a b c : Nat) : Bool := decide (a < q) && decide (b < q) && decide (c < q)

/-- The element operation of M.ADD … M.FROMMONT, by minor opcode. -/
def modLane (m : ModSlot) (sub a b c : Nat) : Nat :=
  match sub with
  | 0 => (a + b) % m.q
  | 1 => subMod m.q a b
  | 2 => (m.q - a) % m.q
  | 3 => montBy m false a b c
  | 4 => montBy m true a b c
  | 5 => montBy m false a m.r2 0
  | _ => montBy m false a 1 0

/-- The check of a modular sum, difference or negation before its selected subtraction. -/
def modChk (sub a b : Nat) : Option (Nat × Int) :=
  match sub with
  | 0 => some (chkSum [termI a, termI b])
  | 1 => some (chkSum [termI a, termI (-(b : Int))])
  | 2 => some (chkSum [termI (-(a : Int))])
  | _ => none

/-- The M. instructions on elements, apart from M.BFLY. -/
def calcMod (x : Stream) (bad : List (Nat × Nat)) (f : Flight) : BOut :=
  let m := slotOf x f
  let g := guardOf x f
  let zero := List.replicate 256 ((0, false) : Lane)
  let a := vLanes x bad f.w.f2.toNat 64
  let b := if f.sub = 2 || f.sub ≥ 5 then zero else bLanes x bad f 64 (optF f.w 19 19)
  let c := if (f.sub = 3 || f.sub = 4) && f4Of f.w < 32 then vLanes x bad (f4Of f.w) 64 else zero
  let ls : List Lane := List.zipWith (fun p z =>
    let t := p.1.2 || p.2.2 || z.2
    (if inRange m.q p.1.1 p.2.1 z.1 then modLane m f.sub p.1.1 p.2.1 z.1 else ones64, t)) (List.zip a b) c
  { out1 g f.w.f1.toNat 64 ones64 ls with
    range := ls.zipIdx.any (fun l => g.getLsbD l.2 && !l.1.2 && l.1.1 == ones64)
    chk := fun e => modChk f.sub (lane0 a e) (lane0 b e) }

/-- One butterfly (R119): an output that an input of q or more feeds is all ones (R116). -/
def bflyPair (m : ModSlot) (gs : Bool) (x y w : Nat) : Nat × Nat :=
  let all := inRange m.q x y w
  if gs then
    (if inRange m.q x y 0 then (x + y) % m.q else ones64, if all then montBy m false w (subMod m.q x y) 0 else ones64)
  else if !all then (ones64, ones64)
  else
    let t := montBy m false w y 0
    ((x + t) % m.q, subMod m.q x t)

/-- M.BFLY. -/
def calcBfly (x : Stream) (bad : List (Nat × Nat)) (f : Flight) : BOut :=
  let m := slotOf x f
  let g := guardOf x f
  let j := optF f.w 19 16
  let gs := optF f.w 15 15 == 1
  let a := (vLanes x bad f.w.f2.toNat 64).toArray
  let tw := (vLanes x bad (f4Of f.w) 64).toArray
  let z : Lane := (0, false)
  let pair (p q t : Lane) : Lane × Lane :=
    let r := bflyPair m gs p.1 q.1 t.1
    let u := p.2 || q.2
    ((r.1, u || (!gs && t.2)), (r.2, u || t.2))
  let outOfRange (ls : List Lane) : Bool := ls.zipIdx.any (fun l => g.getLsbD l.2 && !l.1.2 && l.1.1 == ones64)
  if j = 8 then
    let b := (vLanes x bad (f3Of f.w) 64).toArray
    let rs := (List.range 256).map (fun i => pair (a.getD i z) (b.getD i z) (tw.getD i z))
    let l1 := rs.map (·.1)
    let l2 := rs.map (·.2)
    -- va and vb naming one register: the second output stands
    { v := [(f.w.f2.toNat, 64, maskLanes g l1), (f3Of f.w, 64, maskLanes g l2)], comp := compOf g 256, bad := ones64
      range := outOfRange l1 || outOfRange l2 }
  else
    let ls := (List.range 256).map (fun i =>
      if !i.testBit j then (pair (a.getD i z) (a.getD (i + 2 ^ j) z) (tw.getD i z)).1
      else (pair (a.getD (i - 2 ^ j) z) (a.getD i z) (tw.getD (i - 2 ^ j) z)).2)
    { out1 g f.w.f1.toNat 64 ones64 ls with range := outOfRange ls }

/-- The computation of an instruction by its opcode: what PIPE_START runs. -/
def calcOf (maj sub : Nat) : Stream → List (Nat × Nat) → Flight → BOut :=
  match maj with
  | 8 => match sub with
    | 0 => calcFp2 addF (fun a b => some (chkSum [termF a, termF b]))
    | 1 => calcFp2 (fun a b => addF a (negF b)) (fun a b => some (chkSum [termF a, termF (negF b)]))
    | 2 => calcFp2 mulF (fun a b => some (chkSum [termMul a b]))
    | 3 => calcFma
    | 4 => calcFp2 minF (fun _ _ => none)
    | 5 => calcFp2 maxF (fun _ _ => none)
    | 6 => calcCmp
    | _ => calcCvt
  | 9 => calcInt
  | 0x0A => if sub < 8 then calcTrn else calcRed
  | 0x0B =>
    if sub = 0 then calcXbar (fun x bad f w => vLanes x bad (f3Of f.w) w)
    else calcXbar (fun _ _ f w => (List.range (16384 / w)).map (fun e =>
      let g := optF f.w 21 18
      (e / 2 ^ g * 2 ^ g + reverseBits g (e % 2 ^ g), false)))
  | _ => if sub = 7 then calcBfly else calcMod

/-! ### M.SETQ (R114) -/

/-- The slot that a modulus makes. -/
def makeSlot (q : Nat) : ModSlot :=
  let b := trailingZeros 64 (q - 1)
  let d := (q - 1) / 2 ^ b
  let a := (d + 1).log2 + b
  let shift := isPow2 (d + 1) && decide (30 ≤ a) && decide (a ≤ 60) && decide (17 ≤ b) && decide (b < a)
  { kind := if shift then .shift else .general, q := q, a := if shift then a else 0, b := if shift then b else 0
    qinv := qinvOf q, r2 := 2 ^ 128 % q }

/-- M.SETQ writes its slot and ends. -/
def setqRun (q : Nat) (s : State) (f : Flight) : State :=
  let s1 := dropFlight s q f.stream f.seq
  let x := stream s1 q f.stream
  setStream s1 q f.stream { x with mslots := tset {} x.mslots (optF f.w 22 20) (makeSlot (f.val 0)) }

/-- A Beater instruction runs. -/
def pipeRun (q : Nat) (u : LaneUpset) (s : State) (f : Flight) : State :=
  if f.maj = 0x10 && f.sub = 8 then setqRun q (addUpsets s q u.stores u.paths) f else beaterRun q u (calcOf f.maj f.sub) s f

/-- The elements an instruction computes; M.SETQ computes none. -/
def computes (x : Stream) (f : Flight) : List Nat :=
  if f.maj = 0x10 && f.sub = 8 then [] else (calcOf f.maj f.sub x [] f).comp

/-- The issue of a Beater instruction: it starts in its pipe, or waits in its queue. -/
def pipeEnter (q : Nat) : State → Flight → State := pipeIssue q computes (pipeRun q {})

/-- The issue of a Beater instruction whose word decodes under `o`, with its own check. -/
def runPipe (s : State) (q st : Nat) (w : IWord) (o : Op) (check : State → Flight → Nat := fun _ _ => 0) : Res :=
  .next (issue s q st w o (planPipe q check) (pipeEnter q))

end Sys2Proof.Machine
end

