-- ==== Sys2Proof/Machine/PolyGate.lean ====
section
/-! DEFINITION. The refresh of encrypted bits (R265–R276): digits, rotations, gate keys and the pseudocode of R272. -/

namespace Sys2Proof.Machine

/-- The parameters of a gate key (R268, Table 09.2). -/
structure GateKey where
  logn : Nat
  n : Nat
  q : Nat
  bglog : Nat
  bl : Nat
  kslog : Nat
  ksl : Nat
  msnoise : Nat
  psi : Nat
  seed : List Byte
  keyset : Nat
  outnoise : Nat
  deriving DecidableEq, Repr

/-- The gate key that a header and parameter block of 192 bytes describe. -/
def readGate (b : List Byte) : GateKey :=
  let h := readKey b
  ⟨h.logn, h.basis, fieldAt b 0x80 8, fieldAt b 0x88 1, fieldAt b 0x89 1, fieldAt b 0x8A 1, fieldAt b 0x8B 1, fieldAt b 0x8C 2,
   fieldAt b 0x90 8, h.seed, h.keyset, h.ksnoise⟩

/-- R270: the conditions of a gate key. -/
def gateOk (b : List Byte) : Bool :=
  let g := readGate b
  let bits := g.q.log2 + 1
  (g.logn == 10 || g.logn == 11) && decide (512 ≤ g.n) && decide (g.n ≤ 1024) && decide (2 ^ 30 ≤ g.q) && decide (g.q < 2 ^ 60)
    && g.q % (2 * 2 ^ g.logn) == 1 && decide (1 ≤ g.bglog) && decide (g.bglog ≤ 30) && decide (1 ≤ g.bl) && decide (g.bl ≤ 8)
    && decide (g.bglog * g.bl ≤ bits) && decide (1 ≤ g.kslog) && decide (g.kslog ≤ 30) && decide (1 ≤ g.ksl) && decide (g.ksl ≤ 16)
    && decide (g.kslog * g.ksl ≤ bits) && fieldAt b 0x8E 2 == 0 && allZero (sliceB b 0x98 40)
    && isPrime64 g.q && powMod g.q g.psi (2 ^ g.logn) == g.q - 1 && decide (g.psi < g.q)

/-- The size of a gate key object (R269). -/
def gateSize (g : GateKey) : Nat :=
  let n := 2 ^ g.logn
  192 + 16 * n + 16 * g.bl * g.n * n + 8 * g.ksl * n

/-- The tables of R238 for a gate key (R269). -/
def gateTables (g : GateKey) : List Byte := limbTables g.q g.psi g.logn

/-- R271: regenerated words below `q`. -/
def gateHalf (seed : List Byte) (tag i r q n : Nat) : List Nat :=
  let m := seed ++ leBytes 1 tag ++ leBytes 2 i ++ leBytes 1 r
  let st := shakeAbsorb (List.replicate 25 0#64) (m ++ [0x1F#8] ++ zeros (168 - m.length - 2) ++ [0x80#8])
  uniformGo q (q.log2 + 1) (n + 64) n st

/-- The digits of R272, from the last to the first: `k` counts positions, `t` the carry. -/
def digitsGo (q beta xt : Nat) : Nat → Nat → Nat → List Nat → List Nat
  | 0, _, _, acc => acc
  | n + 1, k, carry, acc =>
    let t := xt / 2 ^ (beta * k) % 2 ^ beta + carry
    if t ≥ 2 ^ (beta - 1) then digitsGo q beta xt n (k + 1) 1 ((t + q - 2 ^ beta % q) % q :: acc)
    else digitsGo q beta xt n (k + 1) 0 (t % q :: acc)

/-- digits(x, β, λ) of R272. -/
def gadget (q beta lam x : Nat) : List Nat :=
  let g := beta * lam
  digitsGo q beta ((x * 2 ^ g + q / 2) / q % 2 ^ g) lam 0 0 []

/-- X^e · p in the negacyclic ring. -/
def rotPoly (q logn e : Nat) (p : List Nat) : List Nat :=
  let n := 2 ^ logn
  let a := p.toArray
  (List.range n).map (fun k =>
    let i := (k + 2 * n - e % (2 * n)) % (2 * n)
    if i < n then a.getD i 0 else (q - a.getD (i - n) 0) % q)

/-- The test polynomial of R272. -/
def testPoly (q logn e wo : Nat) (tbl : List Nat) : List Nat :=
  let n := 2 ^ logn
  let s := n / 2 ^ (e - 1)
  let d := q / 2 ^ (wo + 2)
  (List.range n).map (fun k =>
    if k < n - s / 2 then d * nth 0 tbl (min ((k + s / 2) / s) (tbl.length - 1)) % q else (q - d * nth 0 tbl 0 % q) % q)

/-- Word `i` of a key object. -/
def keyWord (kb : Array (List Byte)) (i : Nat) : Nat := leNat (kb.getD i [])

/-- One step of the blind rotation: coefficient `i` of the input. -/
def rotStep (g : GateKey) (words : Array (List Byte)) (a : Nat) (i : Nat) (acc : List Nat × List Nat) : List Nat × List Nat :=
  let n := 2 ^ g.logn
  let q := g.q
  let at_ := (a * (2 * n) + q / 2) / q % (2 * n)
  let diff (p : List Nat) : List Nat := List.zipWith (subQ q) (rotPoly q g.logn at_ p) p
  let rinv := invMod q (2 ^ 64 % q)
  let row (r : Nat) : List Nat := (List.range n).map (fun k => keyWord words (24 + 2 * n + (2 * g.bl * i + r) * n + k) * rinv % q)
  let digs (p : List Nat) : List (List Nat) :=
    let ds := p.map (gadget q g.bglog g.bl)
    (List.range g.bl).map (fun l => ds.map (fun d => nth 0 d l))
  let all := digs (diff acc.1) ++ digs (diff acc.2)
  let sums := (all.zipIdx).foldl (fun (u : List Nat × List Nat) p =>
    let e := nttOf q g.psi g.logn p.1
    (macLimb q u.1 e (gateHalf g.seed 0 i p.2 q n), macLimb q u.2 e (row p.2))) (List.replicate n 0, List.replicate n 0)
  (List.zipWith (addQ q) acc.1 (inttOf q g.psi g.logn sums.1), List.zipWith (addQ q) acc.2 (inttOf q g.psi g.logn sums.2))

/-- R272: the refresh of one ciphertext, given as its n + 1 words; the words of the key object. -/
def refresh (g : GateKey) (words : Array (List Byte)) (e wo : Nat) (tbl ct : List Nat) : List Nat :=
  let n := 2 ^ g.logn
  let q := g.q
  let b := nth 0 ct g.n
  let bt := (b * (2 * n) + q / 2) / q % (2 * n)
  let acc0 := (List.replicate n 0, rotPoly q g.logn (2 * n - bt) (testPoly q g.logn e wo tbl))
  let acc := ((ct.take g.n).zipIdx).foldl (fun a p => rotStep g words p.1 p.2 a) acc0
  let ax := (List.range n).map (fun j => if j = 0 then nth 0 acc.1 0 else (q - nth 0 acc.1 (n - j)) % q)
  let base := 24 + 2 * n + 2 * g.bl * g.n * n
  let (aout, bout) := (ax.zipIdx).foldl (fun (u : List Nat × Nat) p =>
    ((gadget q g.kslog g.ksl p.1).zipIdx).foldl (fun (u : List Nat × Nat) d =>
      let ka := gateHalf g.seed 1 p.2 d.2 q g.n
      (List.zipWith (fun x k => subQ q x (d.1 * k % q)) u.1 ka,
        subQ q u.2 (d.1 * keyWord words (base + g.ksl * p.2 + d.2) % q))) u)
    (List.replicate g.n 0, nth 0 acc.2 0)
  aout ++ [bout]

/-- R276: the NOISE of a refreshed output. -/
def gateNoise (lq outnoise msnoise e nin : Nat) (sat : Bool) : Nat :=
  if sat || (max nin msnoise : Int) ≥ (lq : Int) - 256 * (e + 1) then 0xFFFF else outnoise

end Sys2Proof.Machine
end

