-- ==== Sys2Proof/Machine/Host.lean ====
section
/-! DEFINITION. Functions, BAR2, work rings, completion rings and the start of descriptors (R346–R365, R373, R374). -/

namespace Sys2Proof.Machine

/-! ### Functions -/

/-- The device serves the host: ready and not in the FE state. -/
def serves (s : State) : Bool := s.boot.ready && !s.fe && s.power.rails

/-- The deckle of function `f`: none for the PF. -/
def fnDeckle (f : Nat) : Option Nat := if f = 0 then none else some (f - 1)

/-- A descriptor moves host data on a DMA channel (R366). -/
def usesChannel (d : Desc) : Bool :=
  let op := fieldAt d.bytes 0 1
  [4, 5].contains op || (op == 2 && fieldAt d.bytes 0x20 1 == 0) || (op == 0x10 && fieldAt d.bytes 0x28 1 == 0)
    || (op == 0x14 && fieldAt d.bytes 0x11 1 == 0)

/-- A register's fields that are not sticky return to their Reset values. -/
def resetReg (s : State) (r : Reg) (k : Nat) : State :=
  let m := stickyMask (regRow r)
  rset s r (andNot (resetOf (regRow r)) m + (rget s r k &&& m)) k

/-- The registers of a ring and its completion ring. -/
def resetRing (s : State) (r : Nat) : State :=
  [Reg.hqiRingBase, .hqiRingCfg, .hqiCqBase, .hqiCqCfg, .hqiCqSts].foldl (fun s x => resetReg s x r) s

/-- FUNCTION reset of one function (R374, Tables 20.1, 22.1): a started descriptor runs to its end, but host data moves no more. -/
def fnReset1 (s : State) (f : Nat) : State :=
  let mine := s.host.rings.filter (fun p => ringFn s p.1 == f)
  let ends (m : Model) : Bool := m.state == .loading && m.sspace == 0 && mine.any (fun p => p.1 == m.ring)
  let rings := s.host.rings.map (fun p =>
    if mine.any (fun x => x.1 == p.1) then (p.1, { ({} : Ring) with
      tracked := (p.2.tracked.filter (fun d => hasStarted d && !usesChannel d)).map (fun d => { d with dropped := true }) }) else p)
  let s1 := { s with
    host.rings := rings
    host.fns := tset {} s.host.fns f {}
    host.recQueue := s.host.recQueue.filter (fun q => !mine.any (fun x => x.1 == q.ring))
    serving.models := s.serving.models.filter (fun p => !ends p.2)
    ev.rings := tdel s.ev.rings f
    rng.windows := tdel s.rng.windows f
    rng.drbgs := s.rng.drbgs.map (fun p => (p.1, { p.2 with queue := p.2.queue.filter (fun r => r.who != .window f) })) }
  let s2 := (List.range 256).foldl (fun t r => if ringFn s r == f then resetRing t r else t) s1
  let s3 := [Reg.evtRingBase, .evtRingCfg, .evtRingHead, .evtRingSts].foldl (fun s x => resetReg s x f) s2
  fset (fset s3 .hqiFnB2win 63 16 0 f) .hqiFnSts 1 0 0 f

/-- FUNCTION reset: that of the PF clears VF Enable and resets every VF. -/
def functionReset (s : State) (f : Nat) : State :=
  if f = 0 then (List.range 17).foldl fnReset1 { s with host.vfOn := false } else fnReset1 s f

/-- A vector whose mask or enable changes sends what is pending (PCIe). -/
def flushVectors (s : State) (fn : Nat) : State :=
  let v := (func s fn).pendingVec
  v.foldl (fun s x => sendMsix s fn x) (setFunc s fn { func s fn with pendingVec := [] })

/-- A base address register (Table 12.2): the address bits that a 64-bit BAR of 64 MiB, or of 64 GiB and prefetchable, holds, and its
type bits.  The PF's SR-IOV capability has the BARs of the VFs; a VF has none of its own (PRESUMED, SR-IOV). -/
def barRead (s : State) (fn : Nat) (vf : Bool) (i : Nat) : Nat :=
  if fn != 0 then 0 else
  let v := tget 0 (func s 0).bars (i + 8 * b2n vf)
  if i = 0 then v / 2 ^ 26 * 2 ^ 26 + 4 else if i = 1 then v else if i = 2 then 12 else if i = 3 then v / 16 * 16 else 0

/-- Device Control as a write leaves it (Table 12.1): No Snoop is never set, and a size outside the table stays as it was. -/
def devCtlWrite (old v : Nat) : Nat :=
  let mps := if bits v 7 5 ≤ 2 then bits v 7 5 else bits old 7 5
  let mrrs := if bits v 14 12 ≤ 5 then bits v 14 12 else bits old 14 12
  bits v 4 0 + 32 * mps + 4096 * mrrs

/-- A DOE Discovery response: PCI-SIG's vendor ID, the data object protocol of the index, the next index (R369). -/
def doeAnswer (index : Nat) : Nat := if index ≤ 2 then 1 + 2 ^ 16 * index + 2 ^ 24 * (if index = 2 then 0 else index + 1) else 0xFFFF

/-- R373: a configuration request. -/
def configRequest (fn : Nat) (a : ConfigAccess) (s : State) : State :=
  if fn > 16 || !s.power.rails || !s.boot.pcieUp || (fn != 0 && !s.host.vfOn) then s
  else if !s.boot.ready && s.boot.stopped = 0 then emit s (.config fn none)
  else
    let f := func s fn
    let ok (s : State) : State := emit s (.config fn (some 0))
    match a with
    | .readId => emit s (.config fn (some (fget s .idnId 15 0 + 65536 * (if fn = 0 then 0x7600 else 0x7601))))
    | .vfEnable on =>
      if fn != 0 then ok s
      else if on then ok { s with host.vfOn := true }
      else ok ((List.range 16).foldl (fun s i => fnReset1 s (i + 1)) { s with host.vfOn := false })
    | .ats on => ok (setFunc s fn { f with ats := on })
    | .msixEnable on => ok (if on then flushVectors (setFunc s fn { f with msixEnable := true }) fn else setFunc s fn { f with msixEnable := false })
    | .msixMask v m =>
      if v ≥ msixSize fn then ok s
      else if m then ok (setFunc s fn { f with unmasked := f.unmasked.filter (· != v) })
      else ok (flushVectors (setFunc s fn { f with unmasked := f.unmasked.filter (· != v) ++ [v] }) fn)
    | .busMaster on => ok (setFunc s fn { f with busMaster := on })
    | .readClass => emit s (.config fn (some 0x120000))
    | .readBar vf i => emit s (.config fn (some (barRead s fn vf i)))
    | .writeBar vf i v => ok (if fn = 0 && i < 4 then setFunc s fn { f with bars := tset 0 f.bars (i + 8 * b2n vf) v.toNat } else s)
    | .readDevCtl => emit s (.config fn (some f.devCtl))
    | .writeDevCtl v =>
      let s1 := setFunc s fn { f with devCtl := devCtlWrite f.devCtl v.toNat }
      ok (if bit v.toNat 15 then functionReset s1 fn else s1)
    | .powerState d3 => ok (setFunc s fn { f with d3hot := d3 })
    | .readAer => emit s (.config fn (some f.aer))
    | .clearAer m => ok (setFunc s fn { f with aer := andNot f.aer m.toNat })
    | .doeDiscovery i => emit s (.config fn (if fn = 0 then some (doeAnswer i) else some 0))

/-! ### BAR2 (R351) -/

/-- What a BAR2 access comes to: its device-memory pieces, a refusal, or a walk that read poison. -/
inductive B2 where
  | at (segs : List (Nat × Nat))
  | refused
  | poison (dpa : Nat)
  deriving DecidableEq, Repr

/-- R351: the check of a BAR2 access. -/
def bar2Segs (s : State) (fn a len : Nat) (write : Bool) : B2 :=
  if fn = 0 then
    let guards (d : Nat) : Bool := (deckle s d).prot.any (fun p => !permits p .bar2 write
      && (if p.kind = .xlt then overlaps (p.base, p.len) (a, len)
        else (reach s d .engine false p.base p.len).segs.any (fun g => overlaps g (a, len))))
    let bad := s.sealed || !dpaExists a || !dpaExists (a + len - 1) || a < 2 ^ 30
      || ((ownerOf s a).toList ++ (ownerOf s (a + len - 1)).toList).any guards
    if bad then .refused else .at [(a, len)]
  else
    let t := (func s fn).tdi
    if t == .locked || t == .error || vfHidden s fn then .refused
    else
      let r := reach s (fn - 1) .bar2 write a len
      match r.bad with
      | none => .at r.segs
      | some (_, _, some p) => .poison p
      | some (_, _, none) => .refused

/-- BAR2 requests of a function reach the aperture. -/
def bar2Up (s : State) (fn off len : Nat) : Bool :=
  fn ≤ 16 && busUp s && serves s && (fn == 0 || s.host.vfOn) && !(func s fn).d3hot && decide (0 < len) && decide (off + len ≤ 2 ^ 36)

/-- A BAR2 access is refused. -/
def bar2Refuse (s : State) (fn : Nat) : State := fadd s .hqiFnSts 63 32 1 fn

/-- How BAR2 reaches device memory (Table 11.4). -/
def bar2Via (fn : Nat) : Via := { alloc := false, dk := fn }

/-- The address of a BAR2 access, with the reads of its walk. -/
def bar2At (s : State) (fn off len : Nat) : State × Nat :=
  let a := fget s .hqiFnB2win 63 16 fn * 65536 + off
  (if fn = 0 then s else reachTouch s (fn - 1) a len, a)

/-- A BAR2 read. -/
def bar2ReadStep (fn off len : Nat) (s : State) : State :=
  if !bar2Up s fn off len then s else
  let (s0, a) := bar2At s fn off len
  match bar2Segs s0 fn a len false with
  | .refused => emit (bar2Refuse s0 fn) (.readData fn (zeros len) false)
  | .poison p => emit (raisePoison s0 3 fn (fnDeckle fn) p) (.readData fn (zeros len) true)
  | .at segs =>
    let s1 := segsTouch s0 (bar2Via fn) segs
    match segsPoison s1 segs with
    | some p => emit (raisePoison s1 3 fn (ownerOf s1 p) p) (.readData fn (segsRead s1 segs) true)
    | none => emit s1 (.readData fn (segsRead s1 segs) false)

/-- A BAR2 write. -/
def bar2WriteStep (fn off : Nat) (data : List Byte) (s : State) : State :=
  if !bar2Up s fn off data.length then s else
  let (s0, a) := bar2At s fn off data.length
  match bar2Segs s0 fn a data.length true with
  | .refused => bar2Refuse s0 fn
  | .poison p => raisePoison s0 3 fn (fnDeckle fn) p
  | .at segs => segsWrite s0 (bar2Via fn) segs data

/-! ### Rings (R354–R360) -/

/-- A new producer index of a work ring (R356). -/
def doorbellStep (fn r v : Nat) (s : State) : State :=
  if !reaches s fn .hqiRingDb r 0 then s else
  let x := ring s r
  if x.state != .active then s
  else if subMod (2 ^ 32) v x.ci > 2 ^ fget s .hqiRingCfg 11 8 r then haltRing s r 1
  else setRing s r { x with pi := v }

/-- Completion slots return (R359); records that waited are written (R360). -/
def cqDoorbellStep (fn r v : Nat) (s : State) : State :=
  if !reaches s fn .hqiCqDb r 0 then s else
  let x := ring s r
  if subMod (2 ^ 32) v x.cqHead > subMod (2 ^ 32) x.cqPi x.cqHead then fset s .hqiCqSts 48 48 1 r
  else drainQueue 4096 (setRing s r { x with cqHead := v }) r

/-- R355: ENABLE written 1. -/
def ringOn (r : Nat) (s : State) : State :=
  let x := ring s r
  if x.state != .disabled then s else
  let c := rget s .hqiRingCfg r
  let size := bits c 11 8
  let cq := fget s .hqiCqCfg 51 48 r
  if size < 4 || size > 16 || cq < 4 || cq > 16 || bits c 20 16 > 16 then setRing s r { x with reason := 4 }
  else
    let v := if bit c 2 then 2 else if bit c 1 then 1 else 0
    if v = 0 then setRing s r { x with reason := 3 }
    else
      let s1 := fset (fset s .hqiRingCfg 4 3 v r) .hqiRingCfg 0 0 1 r
      setRing s1 r { x with state := .active, reason := 0, vsel := v, pi := 0, ci := 0, cqPi := 0, cqHead := 0, unsignalled := 0 }

/-- R355, Table 12.4: ENABLE written 0. -/
def ringOff (r : Nat) (s : State) : State :=
  let s1 := fset s .hqiRingCfg 0 0 0 r
  let x := ring s1 r
  ringSettle (if x.state = .active then setRing s1 r { x with state := .draining } else s1) r

/-- R367: channels are let go again. -/
def haltClearStep (fn f v : Nat) (s : State) : State :=
  if !reaches s fn .hqiFnSts f 0 then s else
  let s1 := regEffect s fn .hqiFnSts f 0 (2 ^ 64 - 1) v
  rset s1 .hqiFnSts (andNot (rget s1 .hqiFnSts f) (v &&& 3)) f

/-- Tracked descriptors of the device. -/
def trackedAll (s : State) : Nat := s.host.rings.foldl (fun a p => a + p.2.tracked.length) 0

/-- R357: a descriptor of the ring can be fetched. -/
def fetchable (s : State) (r : Nat) : Bool :=
  let x := ring s r
  let fn := ringFn s r
  let f := func s fn
  !vfHidden s fn && x.state == .active && x.ci != x.pi && f.busMaster && !f.d3hot && f.tdi != .locked && f.tdi != .error
    && decide (trackedAll s < 32768) && decide (x.tracked.length < min 4096 (max 1 (fget s .hqiRingCfg 44 32 r))) && cqFree s r != 0

/-- The ring served next: the one whose turn it is while the turn lasts, else the next in ring order. -/
def servedNext (s : State) : Option (Nat × Nat) :=
  let (t, left) := s.host.turn
  if left != 0 && fetchable s t then some (t, left)
  else
    let rs := (s.host.rings.map (·.1)).filter (fetchable s)
    match rs.find? (fun r => decide (t < r)) with
    | some r => some (r, 16)
    | none => rs.head?.map (fun r => (r, 16))

/-- R357: the next descriptor of the ring whose turn it is is fetched. -/
def fetchDesc (r : Nat) (hostOk : Bool) (s : State) : State :=
  let x := ring s r
  let fn := ringFn s r
  match servedNext s with
  | none => s
  | some (t, left) =>
    if !serves s || r ≥ 256 || t != r then s
    else if !hostOk then haltRing s r 2
    else
      let b := hostRead s (fget s .hqiRingBase 63 12 r * 4096 + 64 * (x.ci % 2 ^ fget s .hqiRingCfg 11 8 r)) 64
      let d : Desc := { id := s.host.nextId, bytes := b, deckle := if fn = 0 then fieldAt b 3 1 else fn - 1, version := x.vsel }
      setRing { s with host.nextId := s.host.nextId + 1, host.turn := (r, left - 1) } r
        { x with ci := (x.ci + 1) % 2 ^ 32, tracked := x.tracked ++ [d] }

/-- R365: the timer of a completion ring. -/
def timerStep (r : Nat) (s : State) : State :=
  let x := ring s r
  if x.unsignalled = 0 || fget s .hqiCqCfg 41 32 r = 0 || x.state = .disabled then s else cqSignal s r

/-! ### Descriptors (R358, R361, R362) -/

/-- The opcodes of Table 12.6 with the parameter bytes each uses, and whether v4 has it. -/
def opcodes : List (Nat × Bool × List (Nat × Nat)) :=
  [(0x00, true, []), (0x01, true, [(0x10, 5), (0x20, 8)]), (0x02, true, [(0x10, 17)]), (0x03, true, [(0x10, 2)]),
   (0x04, true, [(0x10, 25)]), (0x05, false, [(0x10, 33)]), (0x10, true, [(0x10, 2), (0x18, 17)]), (0x11, true, [(0x10, 2)]),
   (0x12, true, [(0x10, 2)]), (0x13, true, [(0x10, 3), (0x14, 10), (0x20, 16)]), (0x14, true, [(0x10, 2), (0x14, 40)]),
   (0x15, true, [(0x10, 1)]), (0x20, false, [(0x10, 24)]), (0x21, false, [(0x10, 2)]), (0x22, false, [(0x10, 16)]),
   (0x23, false, [(0x10, 8)]), (0x28, false, [(0x10, 1)]), (0x30, true, [(0x10, 26)]), (0x31, true, [(0x10, 16)])]

/-- The opcode of a descriptor. -/
def opOf (d : Desc) : Nat := fieldAt d.bytes 0 1
/-- An `n`-byte parameter at offset `o`. -/
def par (d : Desc) (o n : Nat) : Nat := fieldAt d.bytes o n

/-- R361: the header and the parameter bytes not listed are as Tables 12.5 and 12.6 ask. -/
def headerOk (d : Desc) (pf : Bool) : Bool :=
  let b := d.bytes
  fieldAt b 1 1 / (if d.version = 1 then 2 else 8) == 0 && fieldAt b 2 1 == 0 && (pf || fieldAt b 3 1 == 0) && fieldAt b 4 4 == 0
    && (d.version != 1 || fieldAt b 12 4 == 0)
    && match opcodes.find? (fun o => o.1 == opOf d) with
      | none => false
      | some o => (o.2.1 || d.version != 1)
        && (List.range 48).all (fun i => o.2.2.any (fun p => decide (p.1 ≤ 16 + i) && decide (16 + i < p.1 + p.2))
          || fieldAt b (16 + i) 1 == 0)

/-- Update a tracked descriptor. -/
def setDesc (s : State) (r : Nat) (d : Desc) : State :=
  let x := ring s r
  setRing s r { x with tracked := x.tracked.map (fun e => if e.id = d.id then d else e) }

/-- R358: an earlier FENCE that has not started, or any earlier descriptor before a FENCE, or an earlier MLOAD of the same object
(R368). -/
def heldBack (x : Ring) (d : Desc) : Bool :=
  let before := x.tracked.takeWhile (fun e => e.id != d.id)
  let fence (e : Desc) : Bool := e.version == 2 && bit (fieldAt e.bytes 1 1) 1
  (fence d && !before.isEmpty) || before.any (fun e => fence e && !hasStarted e)
    || (opOf d == 5 && before.any (fun e => opOf e == 5 && par e 0x28 8 == par d 0x28 8))

/-- The channel of ring `r` is halted. -/
def channelHalted (s : State) (r : Nat) : Bool := fget s .hqiFnSts (r % 2) (r % 2) (ringFn s r) == 1

/-- R366, R367: the channel of ring `r` carries the descriptor: it is not halted, and carries none that it received before. -/
def carries (s : State) (r : Nat) (d : Desc) : Bool :=
  !usesChannel d || (!channelHalted s r && !s.host.rings.any (fun p =>
    p.1 % 2 == r % 2 && ringFn s p.1 == ringFn s r
      && p.2.tracked.any (fun e => usesChannel e && e.started && decide (e.order < d.order))))

/-- DESCRIPTOR_START: a fetched descriptor starts, or completes with what its header or its deckle gives; an MLOAD that so fails
discards its object. -/
def startDesc (r id : Nat) (s : State) : State :=
  match findDesc s r id with
  | none => s
  | some d =>
    let x := ring s r
    let pf := ringFn s r = 0
    if !serves s || d.started || !(x.state = .active || x.state = .draining) || heldBack x d
        || (usesChannel d && channelHalted s r) then s
    else
      let s1 := setDesc { s with host.starts := s.host.starts + 1 } r { d with started := true, order := s.host.starts }
      let ends (status code : Nat) : State :=
        complete (if opOf d = 5 then dropObj s1 d.deckle (par d 0x28 8) (some r) else s1) r id status code 0
      let ph := (deckle s d.deckle).phase
      if pf && s.sealed then (if opOf d = 0 && headerOk d true then s1 else ends 0 (if opOf d = 0 then 1 else 3))
      else if !headerOk d pf then ends 0 1
      else if d.deckle ≥ 16 || ph = .none then ends 0 3
      else if ph != .active then ends 8 0
      else s1

/-- The meaning of a request: it acts on a started descriptor that carries its opcode. -/
def runReq (s : State) (r id op : Nat) (body : State → Desc → State) : State :=
  match findDesc s r id with
  | none => s
  | some d => if serves s && d.started && !d.busy && opOf d == op && carries s r d then body s d else s

/-- The meaning of a request that may wait after it has been taken. -/
def runDrain (s : State) (r id op : Nat) (body : State → Desc → State) : State :=
  match findDesc s r id with
  | none => s
  | some d => if serves s && d.started && opOf d == op then body s d else s

/-- A request completes with OK and a value. -/
def okReq (s : State) (r : Nat) (d : Desc) (value : Nat) : State := complete s r d.id 0 0 value
/-- A request completes with OK and a fault code. -/
def faultReq (s : State) (r : Nat) (d : Desc) (code : Nat) : State := complete s r d.id 0 code 0

/-- A device-side refusal (Table 12.8): LOCAL_PROTECTION for UNMAPPED and PERMISSION; a walk or an object that read poison completes
with POISON_CONSUMED and raises the consumption event. -/
def localReq (s : State) (r : Nat) (d : Desc) (code : Nat) (dpa : Option Nat) : State :=
  if code = 0x30 then
    let s1 := match dpa with
      | some a => raisePoison s 3 (ringFn s r) (some d.deckle) a
      | none => s
    faultReq s1 r d 0x30
  else complete s r d.id 5 code 0

/-- What a read of host memory comes to as a completion status: 0 where it delivers data. -/
def hostStatus : HostRead → Nat
  | .ok => 0
  | .refused => 3
  | .poisoned => 4

/-! ### Meanings -/

/-- FLR. -/
def execFlr (f : Nat) (s : State) : Res := .next (if f ≤ 16 && s.boot.ready then functionReset s f else s)
/-- CONFIGURATION_REQUEST. -/
def execConfigurationRequest (fn : Nat) (a : ConfigAccess) (s : State) : Res := .next (configRequest fn a s)
/-- BAR2_READ. -/
def execBar2Read (fn off len : Nat) (s : State) : Res := .next (bar2ReadStep fn off len s)
/-- BAR2_WRITE. -/
def execBar2Write (fn off : Nat) (data : List Byte) (s : State) : Res := .next (bar2WriteStep fn off data s)
/-- DOORBELL. -/
def execDoorbell (fn ring : Nat) (value : Word32) (s : State) : Res := .next (doorbellStep fn ring value.toNat s)
/-- COMPLETION_DOORBELL. -/
def execCompletionDoorbell (fn ring : Nat) (value : Word32) (s : State) : Res := .next (cqDoorbellStep fn ring value.toNat s)
/-- RING_ENABLE. -/
def execRingEnable (fn ring : Nat) (value : Word) (s : State) : Res :=
  .next (ownWrite s fn .hqiRingCfg ring value.toNat (fun s => if bit value.toNat 0 then ringOn ring s else s))
/-- RING_DISABLE. -/
def execRingDisable (fn ring : Nat) (value : Word) (s : State) : Res :=
  .next (ownWrite s fn .hqiRingCfg ring value.toNat (fun s => if bit value.toNat 0 then s else ringOff ring s))
/-- HALT_CLEAR. -/
def execHaltClear (fn f : Nat) (value : Word) (s : State) : Res := .next (haltClearStep fn f value.toNat s)
/-- DESCRIPTOR_FETCH. -/
def execDescriptorFetch (ring : Nat) (hostOk : Bool) (s : State) : Res := .next (fetchDesc ring hostOk s)
/-- DESCRIPTOR_START. -/
def execDescriptorStart (ring id : Nat) (s : State) : Res := .next (startDesc ring id s)
/-- INTERRUPT_TIMER. -/
def execInterruptTimer (ring : Nat) (s : State) : Res := .next (timerStep ring s)
/-- NOP. -/
def execNop (ring id : Nat) (s : State) : Res := .next (runReq s ring id 0 (fun s d => okReq s ring d 0))

end Sys2Proof.Machine
end

