-- ==== Sys2Proof/Machine/Scalar.lean ====
section
/-! DEFINITION. The S. instructions (R158, Table 05.14): scalar arithmetic, branches, loads and stores, immediates, predicate logic. -/

namespace Sys2Proof.Machine

/-! ### Shared forms -/

/-- Register ALU, multiply and divide: F1 ← g(F2, F3). -/
def sReg (maj sub : Nat) : Op := { maj := maj, sub := sub, f1 := .sw, f2 := .s, f3 := .s }
/-- Immediate ALU: F1 ← g(F2, [34:0] sign-extended). -/
def sImm (sub : Nat) : Op := { maj := 2, sub := sub, f1 := .sw, f2 := .s, opt := maskOf 34 0 }
/-- Conditional branch on F2 and F3. -/
def sBr (sub : Nat) : Op := { maj := 4, sub := sub, f2 := .s, f3 := .s, opt := maskOf 28 0 }
/-- Load or store of 64 bits. -/
def sMem (sub : Nat) (f1 : Slot) : Op := { maj := 5, sub := sub, f1 := f1, f2 := .s, opt := maskOf 34 0, ord := true, effect := true }
/-- Predicate logic. -/
def sPred (sub : Nat) (f2 f3 : Slot) (opt : Nat) (codes : Bool) : Op :=
  { maj := 7, sub := sub, f1 := .pw, f2 := f2, f3 := f3, opt := opt, codes := codes }

/-- The operations of majors 0x01 and 0x02 on 64-bit operands, by minor opcode. -/
def aluOf (sub a b : Nat) : Nat :=
  match sub with
  | 0 => (a + b) % 2 ^ 64
  | 1 => subMod (2 ^ 64) a b
  | 2 => a &&& b
  | 3 => a ||| b
  | 4 => a ^^^ b
  | 5 => a * 2 ^ (b % 64) % 2 ^ 64
  | 6 => a / 2 ^ (b % 64)
  | 7 => wrapTo 64 (signed 64 a / ((2 ^ (b % 64) : Nat) : Int))
  | 8 => b2n (decide (signed 64 a < signed 64 b))
  | _ => b2n (decide (a < b))

/-- The operations of major 0x03, by minor opcode: division by zero gives all ones and the dividend. -/
def mulDivOf (sub a b : Nat) : Nat :=
  match sub with
  | 0 => a * b % 2 ^ 64
  | 1 => a * b / 2 ^ 64
  | 2 => wrapTo 64 (signed 64 a * signed 64 b / ((2 ^ 64 : Nat) : Int))
  | 3 => if b = 0 then 2 ^ 64 - 1 else wrapTo 64 (Int.tdiv (signed 64 a) (signed 64 b))
  | 4 => if b = 0 then 2 ^ 64 - 1 else a / b
  | 5 => if b = 0 then a else wrapTo 64 (Int.tmod (signed 64 a) (signed 64 b))
  | _ => if b = 0 then a else a % b

/-- A register-register instruction. -/
def runReg (s : State) (q st : Nat) (w : IWord) (maj sub : Nat) (g : Nat → Nat → Nat) : Res :=
  .next (issue s q st w (sReg maj sub) planNone (fun s f => wrS s q st w.f1.toNat (g (f.val 1) (f.val 2))))

/-- A register-immediate instruction. -/
def runImm (s : State) (q st : Nat) (w : IWord) (sub : Nat) : Res :=
  .next (issue s q st w (sImm sub) planNone
    (fun s f => wrS s q st w.f1.toNat (aluOf sub (f.val 1) (wrapTo 64 (imm35 w)))))

/-- The stream goes on at a PC. -/
def jumpTo (s : State) (q st pc : Nat) : State := setStream s q st { stream s q st with pc := pc }

/-- The target of a branch: its own PC plus 8 times the signed offset. -/
def branchTarget (f : Flight) : Nat := wrapTo 64 ((f.pc : Int) + 8 * imm29 f.w)

/-- A conditional branch. -/
def runBr (s : State) (q st : Nat) (w : IWord) (sub : Nat) (c : Nat → Nat → Bool) : Res :=
  .next (issue s q st w (sBr sub) planNone
    (fun s f => if c (f.val 1) (f.val 2) then jumpTo s q st (branchTarget f) else s))

/-- The stream has written deckle memory at `rs`: a queue pair in RTS whose SQ_PI lies there will send up to it, and one whose next entry
waits on a counter there will send that entry. -/
def noteRings (s : State) (q st : Nat) (rs : List (Nat × Nat)) : State :=
  let d := dkOf s q
  let at_ (va n : Nat) : List Byte := segsRead s (reach s d .engine false va n).segs
  let hits := s.izk.qps.filterMap (fun p =>
    let x := p.2
    if x.state != .rts || x.deckle != d then none
    else if rs.any (overlaps (x.ctx.db, 4)) then some (p.1 + 8192 * x.gen, leNat (at_ x.ctx.db 4))
    else
      let e := at_ (x.ctx.sq + 64 * (x.sqNext % 2 ^ x.ctx.sqLog)) 64
      if x.sqNext != x.sqPi && bit (fieldAt e 1 1) 2 && rs.any (overlaps (fieldAt e 48 8, 8)) then
        some (p.1 + 8192 * x.gen, (x.sqNext + 1) % 2 ^ 32) else none)
  if hits.isEmpty then s else setStream s q st { stream s q st with rung := (stream s q st).rung ++ hits }

/-- The writes that a stream caused through queue pairs have been acknowledged: their entries have completed (R396), or the queue pair
sends no longer. -/
def ringsDone (s : State) (q st : Nat) : Bool :=
  (stream s q st).rung.all (fun r =>
    let x := tget {} s.izk.qps (r.1 % 8192)
    x.gen != r.1 / 8192 || x.state != .rts || decide (subMod (2 ^ 32) x.sqCi r.2 < 2 ^ 31))

/-- R177: every earlier instruction of the stream has ended; in this model its effects on memory, other quires and edge agents are
performed when it ends.  SYSTEM scope waits for the far end of Izkai too. -/
def fenceHolds (s : State) (q : Nat) (f : Flight) (scope : Nat) : Bool :=
  !(flightsOf (quire s q) f.stream).any (fun g => decide (g.seq < f.seq)) && (scope != 4 || ringsDone s q f.stream)

/-- A release ordering waits for the conditions of its scope before the instruction acts (R175); FENCE_END then performs it. -/
def releaseFirst (s : State) (q : Nat) (f : Flight) (scope : Nat) (act : State → Flight → State) : State :=
  if fenceHolds s q f scope then act s f else putFlight s q { f with phase := .fence scope }

/-- An instruction with an order field: RELEASE and ORDERED wait at DEVICE scope. -/
def ordered (s : State) (q : Nat) (f : Flight) (act : State → Flight → State) : State :=
  if f.w.ord.toNat ≥ 2 then releaseFirst s q f 3 act else act s f

/-- The address of S.LD and S.ST. -/
def memAt (f : Flight) : Nat := wrapTo 64 ((f.val 1 : Int) + imm35 f.w)

/-- R158: an address that is not a multiple of 8 faults at issue. -/
def planMem (_ : State) (f : Flight) : Issue :=
  { fault := if memAt f % 8 != 0 then 1 else 0, f := { f with mem := [(memAt f, 8)] } }

/-- The load of S.LD. -/
def actLd (q : Nat) (s : State) (f : Flight) : State :=
  match dkRead s (dkOf s q) (.l1 (pOf s q)) (memAt f) 8 with
  | (s1, .ok bs) => wrS (dropFlight s1 q f.stream f.seq) q f.stream f.w.f1.toNat (leNat bs)
  | (s1, .bad c dpa) => memFault s1 q f c dpa

/-- The store of S.ST. -/
def actSt (q : Nat) (s : State) (f : Flight) : State :=
  match dkWrite s (dkOf s q) (.l1 (pOf s q)) (memAt f) (leBytes 8 (f.val 0)) with
  | (s1, none) => noteRings (dropFlight s1 q f.stream f.seq) q f.stream [(memAt f, 8)]
  | (s1, some (c, dpa)) => memFault s1 q f c dpa

/-- Write a whole predicate register. -/
def putPred (s : State) (q st i : Nat) (v : Pred) : State := freshPred (wrP s q st i v) q st i (fun _ => true)

/-- The bits that uncorrectable predicate words feed. -/
def fedBits (bad : List (Nat × Nat)) : Pred := bad.foldl (fun v b => v ||| (BitVec.allOnes 64).setWidth 1024 <<< (64 * b.2)) 0

/-- F1 ← `v`, where words of the sources are sound; a bit that an uncorrectable one feeds is 1, and the stream faults (R123). -/
def predAct (q : Nat) (g : Pred → Pred → Pred) (s : State) (f : Flight) : State :=
  let (s1, bad) := readRegs s q f 0 64
  let v := g ((stream s1 q f.stream).p f.w.f2.toNat) ((stream s1 q f.stream).p (f3Of f.w))
  if bad.isEmpty then putPred s1 q f.stream f.w.f1.toNat v
  else exFault (putPred s1 q f.stream f.w.f1.toNat (v ||| fedBits bad)) q f 0x30

/-- A predicate instruction: F1 ← g(F2, F3). -/
def runPred (s : State) (q st : Nat) (w : IWord) (sub : Nat) (g : Pred → Pred → Pred) : Res :=
  .next (issue s q st w (sPred sub .p (if sub = 3 then .none else .p) 0 true) planNone (predAct q g))

/-! ### Meanings -/

/-- S.ADD. -/
def execSAdd (q st : Nat) (w : IWord) (s : State) : Res := runReg s q st w 1 0 (aluOf 0)
/-- S.SUB. -/
def execSSub (q st : Nat) (w : IWord) (s : State) : Res := runReg s q st w 1 1 (aluOf 1)
/-- S.AND. -/
def execSAnd (q st : Nat) (w : IWord) (s : State) : Res := runReg s q st w 1 2 (aluOf 2)
/-- S.OR. -/
def execSOr (q st : Nat) (w : IWord) (s : State) : Res := runReg s q st w 1 3 (aluOf 3)
/-- S.XOR. -/
def execSXor (q st : Nat) (w : IWord) (s : State) : Res := runReg s q st w 1 4 (aluOf 4)
/-- S.SHL. -/
def execSShl (q st : Nat) (w : IWord) (s : State) : Res := runReg s q st w 1 5 (aluOf 5)
/-- S.SHR. -/
def execSShr (q st : Nat) (w : IWord) (s : State) : Res := runReg s q st w 1 6 (aluOf 6)
/-- S.SRA. -/
def execSSra (q st : Nat) (w : IWord) (s : State) : Res := runReg s q st w 1 7 (aluOf 7)
/-- S.SLT. -/
def execSSlt (q st : Nat) (w : IWord) (s : State) : Res := runReg s q st w 1 8 (aluOf 8)
/-- S.SLTU. -/
def execSSltu (q st : Nat) (w : IWord) (s : State) : Res := runReg s q st w 1 9 (aluOf 9)
/-- S.ADD, immediate form. -/
def execSAddImmediate (q st : Nat) (w : IWord) (s : State) : Res := runImm s q st w 0
/-- S.SUB, immediate form. -/
def execSSubImmediate (q st : Nat) (w : IWord) (s : State) : Res := runImm s q st w 1
/-- S.AND, immediate form. -/
def execSAndImmediate (q st : Nat) (w : IWord) (s : State) : Res := runImm s q st w 2
/-- S.OR, immediate form. -/
def execSOrImmediate (q st : Nat) (w : IWord) (s : State) : Res := runImm s q st w 3
/-- S.XOR, immediate form. -/
def execSXorImmediate (q st : Nat) (w : IWord) (s : State) : Res := runImm s q st w 4
/-- S.SHL, immediate form. -/
def execSShlImmediate (q st : Nat) (w : IWord) (s : State) : Res := runImm s q st w 5
/-- S.SHR, immediate form. -/
def execSShrImmediate (q st : Nat) (w : IWord) (s : State) : Res := runImm s q st w 6
/-- S.SRA, immediate form. -/
def execSSraImmediate (q st : Nat) (w : IWord) (s : State) : Res := runImm s q st w 7
/-- S.SLT, immediate form. -/
def execSSltImmediate (q st : Nat) (w : IWord) (s : State) : Res := runImm s q st w 8
/-- S.SLTU, immediate form. -/
def execSSltuImmediate (q st : Nat) (w : IWord) (s : State) : Res := runImm s q st w 9
/-- S.MUL. -/
def execSMul (q st : Nat) (w : IWord) (s : State) : Res := runReg s q st w 3 0 (mulDivOf 0)
/-- S.MULHU. -/
def execSMulhu (q st : Nat) (w : IWord) (s : State) : Res := runReg s q st w 3 1 (mulDivOf 1)
/-- S.MULHS. -/
def execSMulhs (q st : Nat) (w : IWord) (s : State) : Res := runReg s q st w 3 2 (mulDivOf 2)
/-- S.DIV. -/
def execSDiv (q st : Nat) (w : IWord) (s : State) : Res := runReg s q st w 3 3 (mulDivOf 3)
/-- S.DIVU. -/
def execSDivu (q st : Nat) (w : IWord) (s : State) : Res := runReg s q st w 3 4 (mulDivOf 4)
/-- S.REM. -/
def execSRem (q st : Nat) (w : IWord) (s : State) : Res := runReg s q st w 3 5 (mulDivOf 5)
/-- S.REMU. -/
def execSRemu (q st : Nat) (w : IWord) (s : State) : Res := runReg s q st w 3 6 (mulDivOf 6)
/-- S.BEQ. -/
def execSBeq (q st : Nat) (w : IWord) (s : State) : Res := runBr s q st w 0 (fun a b => a == b)
/-- S.BNE. -/
def execSBne (q st : Nat) (w : IWord) (s : State) : Res := runBr s q st w 1 (fun a b => a != b)
/-- S.BLT. -/
def execSBlt (q st : Nat) (w : IWord) (s : State) : Res := runBr s q st w 2 (fun a b => decide (signed 64 a < signed 64 b))
/-- S.BLTU. -/
def execSBltu (q st : Nat) (w : IWord) (s : State) : Res := runBr s q st w 3 (fun a b => decide (a < b))
/-- S.JMP. -/
def execSJmp (q st : Nat) (w : IWord) (s : State) : Res :=
  .next (issue s q st w { maj := 4, sub := 4, opt := maskOf 28 0 } planNone (fun s f => jumpTo s q st (branchTarget f)))
/-- S.JR. -/
def execSJr (q st : Nat) (w : IWord) (s : State) : Res :=
  .next (issue s q st w { maj := 4, sub := 5, f2 := .s } planNone (fun s f => jumpTo s q st (f.val 1)))
/-- S.LD. -/
def execSLd (q st : Nat) (w : IWord) (s : State) : Res :=
  .next (issue s q st w (sMem 0 .sw) planMem (fun s f => ordered s q f (actLd q)))
/-- S.ST. -/
def execSSt (q st : Nat) (w : IWord) (s : State) : Res :=
  .next (issue s q st w (sMem 1 .s) planMem (fun s f => ordered s q f (actSt q)))
/-- S.LI. -/
def execSLi (q st : Nat) (w : IWord) (s : State) : Res :=
  .next (issue s q st w { maj := 6, sub := 0, f1 := .sw, opt := maskOf 34 0 } planNone
    (fun s _ => wrS s q st w.f1.toNat (wrapTo 64 (imm35 w))))
/-- S.LIU. -/
def execSLiu (q st : Nat) (w : IWord) (s : State) : Res :=
  .next (issue s q st w { maj := 6, sub := 1, f1 := .sx, opt := maskOf 28 0 } planNone
    (fun s f => wrS s q st w.f1.toNat (bits (f.val 0) 34 0 + place (bits w.low.toNat 28 0) 35)))
/-- S.PAND. -/
def execSPand (q st : Nat) (w : IWord) (s : State) : Res := runPred s q st w 0 (fun a b => a &&& b)
/-- S.POR. -/
def execSPor (q st : Nat) (w : IWord) (s : State) : Res := runPred s q st w 1 (fun a b => a ||| b)
/-- S.PXOR. -/
def execSPxor (q st : Nat) (w : IWord) (s : State) : Res := runPred s q st w 2 (fun a b => a ^^^ b)
/-- S.PNOT. -/
def execSPnot (q st : Nat) (w : IWord) (s : State) : Res := runPred s q st w 3 (fun a _ => ~~~a)
/-- S.PSET. -/
def execSPset (q st : Nat) (w : IWord) (s : State) : Res :=
  .next (issue s q st w (sPred 4 .none .none (maskOf 10 0) (decide (bits w.low.toNat 10 0 ≤ 1024))) planNone
    (fun s _ => putPred s q st w.f1.toNat (BitVec.ofNat 1024 (2 ^ bits w.low.toNat 10 0 - 1))))

end Sys2Proof.Machine
end

