-- ==== Sys2Proof/Machine/Data.lean ====
section
/-! DEFINITION. The D. instructions (R160, Tables 05.16, 05.17) and the Headbox prefetch streams (R326, R327). -/

namespace Sys2Proof.Machine

/-! ### Measured objects (R368, R472) -/

/-- The index of an open measured object. -/
def findObj (s : State) (d obj : Nat) (side : Option Nat) : Option Nat :=
  findIx (fun (m : Measured) => m.deckle == d && m.obj == obj && m.ring == side) s.host.measured

/-- The object is open on another side: a stream's, or another ring's. -/
def objElsewhere (s : State) (d obj : Nat) (side : Option Nat) : Bool :=
  s.host.measured.any (fun m => m.deckle == d && m.obj == obj && m.ring != side)

/-- An object opens, or takes further bytes. -/
def extendObj (s : State) (d obj : Nat) (side : Option Nat) (bs : List Byte) : State :=
  match findObj s d obj side with
  | some i => { s with host.measured := s.host.measured.mapIdx (fun k m => if k = i then { m with bytes := m.bytes ++ bs } else m) }
  | none => { s with host.measured := s.host.measured ++ [⟨d, obj, side, bs⟩] }

/-- An object may be opened: it is open already, or fewer than 64 are. -/
def objRoom (s : State) (d obj : Nat) (side : Option Nat) : Bool :=
  (findObj s d obj side).isSome || decide (s.host.measured.length < 64)

/-- An entry of the measurement list of a deckle is added. -/
def addMeasure (s : State) (d : Nat) (m : Measure) : State :=
  setDeckle s d { deckle s d with measures := (deckle s d).measures ++ [m] }

/-- Entries of a kind and number are withdrawn. -/
def dropMeasure (s : State) (d kind num : Nat) : State :=
  setDeckle s d { deckle s d with measures := (deckle s d).measures.filter (fun m => !(m.kind == kind && m.num == num)) }

/-- FINAL: the object closes and its digest is recorded; false where the list holds 256 objects. -/
def finalObj (s : State) (d obj : Nat) (side : Option Nat) : State × Bool :=
  match findObj s d obj side with
  | none => (s, true)
  | some i =>
    let bs := ((s.host.measured[i]?).map (·.bytes)).getD []
    let s1 := dropObj s d obj side
    if ((deckle s1 d).measures.filter (fun m => m.kind == 3)).length ≥ 256 then (s1, false)
    else (addMeasure s1 d ⟨3, obj, leBytes 8 obj ++ leBytes 8 bs.length ++ sha256 bs⟩, true)

/-! ### Moving rows -/

/-- A D. descriptor (Table 05.16). -/
structure DDesc where
  src : Nat
  dst : Nat
  bytes : Nat
  rows : Nat
  sstr : Nat
  dstr : Nat
  deriving DecidableEq, Repr

/-- Read a descriptor's fields. -/
def dDesc (b : List Byte) : DDesc :=
  ⟨fieldAt b 0 8, fieldAt b 8 8, fieldAt b 16 4, fieldAt b 20 4, fieldAt b 24 4, fieldAt b 28 4⟩

/-- The span that rows of a transfer cover. -/
def hull (a rows bytes stride : Nat) : Nat × Nat := (a, (rows - 1) * stride + bytes)

/-- SSP, DSP and DQ of the word. -/
def sspOf (w : IWord) : Nat := optF w 22 21
/-- DSP. -/
def dspOf (w : IWord) : Nat := optF w 20 19
/-- DQ. -/
def dqOf (w : IWord) : Nat := optF w 18 13

/-- The destination bytes, by offset in the row, that lie in the poisoned words of a source: half-open ranges. -/
def poisonOffs (segs : List (Nat × Nat)) (words : List (Nat × Nat)) : List (Nat × Nat) :=
  (segs.foldl (fun (a : Nat × List (Nat × Nat)) g =>
    (a.1 + g.2, a.2 ++ words.filterMap (fun w =>
      if overlaps w g then some (a.1 + (max w.1 g.1 - g.1), a.1 + (min (w.1 + w.2) (g.1 + g.2) - g.1)) else none))) (0, [])).2

/-- A row as read from its source: its bytes, and the offset ranges that are poisoned; or a fault. -/
inductive RowIn where
  | ok (bs : List Byte) (bad : List (Nat × Nat)) (dpa : Option Nat)
  | fault (code : Nat) (dpa : Option Nat)
  deriving DecidableEq, Repr

/-- Read one row. -/
def rowRead (s : State) (q : Nat) (ssp a n : Nat) : State × RowIn :=
  if ssp = 0 then
    let d := dkOf s q
    let s1 := reachTouch s d a n
    let r := reach s1 d .dcopy false a n
    match r.bad with
    | some (_, c, p) => (s1, .fault c p)
    | none =>
      let s2 := segsTouch s1 (viaOf d .dcopy) r.segs
      (s2, .ok (segsRead s2 r.segs) (poisonOffs r.segs (s2.dram.poison.map (fun c => (c, cwSize c)))) (segsPoison s2 r.segs))
  else
    let s1 := spadTouch s q a n
    (s1, .ok (spadBytes s1 q a n) (poisonOffs [(a, n)] ((quire s1 q).spadPoison.map (fun w => (8 * w, 8)))) none)

/-- Write poison over the code words that hold offsets `[lo, hi)` of a row at a deckle address. -/
def rowPoison (s : State) (d : Nat) (a : Agent) (va : Nat) (r : Nat × Nat) : State :=
  (List.range ((r.2 - r.1) / 64 + 2)).foldl (fun s i =>
    let o := min (r.1 + 64 * i) (r.2 - 1)
    match walk s d (va + o) with
    | .hit p _ => poisonWord s (viaOf d a) (cwBase p)
    | _ => s) s

/-- Move bytes between two ranges of deckle addresses: poison is moved as poison, and a refusal ends the move at the first refused
byte.  The bytes moved, and the refusal. -/
def moveRange (s : State) (d : Nat) (a : Agent) (src dst n : Nat) : State × Nat × Option (Nat × Option Nat) :=
  let s1 := reachTouch (reachTouch s d src n) d dst n
  let r := reach s1 d a false src n
  let w := reach s1 d a true dst n
  let rl := (r.bad.map (·.1)).getD n
  let wl := (w.bad.map (·.1)).getD n
  let m := min rl wl
  let rs := (reach s1 d a false src m).segs
  let s2 := segsTouch s1 (viaOf d a) rs
  let bad := poisonOffs rs (s2.dram.poison.map (fun c => (c, cwSize c)))
  let s3 := segsWrite s2 (viaOf d a) (reach s2 d a true dst m).segs (segsRead s2 rs)
  (bad.foldl (fun s o => rowPoison s d a dst o) s3, m, if m = n then none else (if rl ≤ wl then r.bad else w.bad).map (·.2))

/-- Move one row: 0, or the fault that ends the transfer and its poisoned DPA. -/
def rowMove (s : State) (q : Nat) (w : IWord) (a b n : Nat) : State × Nat × Option Nat :=
  match rowRead s q (sspOf w) a n with
  | (s1, .fault c p) => (s1, c, p)
  | (s1, .ok bs bad p) =>
    if dspOf w = 0 then
      match dkWrite s1 (dkOf s1 q) .dcopy b bs with
      | (s2, some (c, p2)) => (s2, c, p2)
      | (s2, none) => (bad.foldl (fun s r => rowPoison s (dkOf s q) .dcopy b r) s2, 0, none)
    else
      let t := if dspOf w = 2 then dqOf w else q
      match bad.foldl (fun (m : Option Nat) r => some (min (m.getD r.1) r.1)) none with
      | none => (spadWrite s1 t b bs, 0, none)
      | some o => (spadWrite s1 t b (bs.take o), 0x30, p)

/-- Move rows in order until one faults. -/
def rowsMove (q : Nat) (w : IWord) (x : DDesc) : Nat → Nat → State → State × Nat × Option Nat
  | 0, _, s => (s, 0, none)
  | k + 1, i, s =>
    match rowMove s q w (x.src + i * x.sstr) (x.dst + i * x.dstr) x.bytes with
    | (s1, 0, _) => rowsMove q w x k (i + 1) s1
    | r => r

/-- R160: the checks on a descriptor's contents. -/
def descCheck (w : IWord) (x : DDesc) : Nat :=
  let out (p : Nat × Nat) : Bool := decide (p.1 + p.2 > spadSize)
  if x.bytes = 0 || x.bytes > 16777216 || x.rows = 0 || x.rows > 65536 then 1
  else if (sspOf w = 1 && out (hull x.src x.rows x.bytes x.sstr)) || (dspOf w != 0 && out (hull x.dst x.rows x.bytes x.dstr)) then 4
  else 0

/-- The descriptor of a flight, as the scratchpad holds it. -/
def descOf (s : State) (q : Nat) (f : Flight) : DDesc := dDesc (spadBytes s q (f.val 0) 32)

/-- D.COPY moves its rows. -/
def copyAct (q : Nat) (s : State) (f : Flight) : State :=
  match spadRead s q (f.val 0) 32 with
  | (s1, none) => exFault s1 q f 0x30
  | (s1, some b) =>
    let x := dDesc b
    if descCheck f.w x != 0 then exFault s1 q f (descCheck f.w x)
    else match rowsMove q f.w x x.rows 0 s1 with
      | (s2, 0, _) =>
        let s3 := dropFlight s2 q f.stream f.seq
        if dspOf f.w = 0 then noteRings s3 q f.stream ((List.range x.rows).map (fun i => (x.dst + i * x.dstr, x.bytes))) else s3
      | (s2, c, p) => memFault s2 q f c p

/-- The rows of a device-memory source, one after the other: bytes, or a fault. -/
def rowsRead (q : Nat) (x : DDesc) : Nat → Nat → State → List Byte → State × (Nat × Option Nat) × List Byte
  | 0, _, s, acc => (s, (0, none), acc)
  | k + 1, i, s, acc =>
    match dkRead s (dkOf s q) .mload (x.src + i * x.sstr) x.bytes with
    | (s1, .bad c p) => (s1, (c, p), acc)
    | (s1, .ok bs) =>
      match dkWrite s1 (dkOf s1 q) .mload (x.dst + i * x.dstr) bs with
      | (s2, some e) => (s2, e, acc)
      | (s2, none) => rowsRead q x k (i + 1) s2 (acc ++ bs)

/-- D.MLOAD moves and hashes its rows. -/
def mloadAct (q : Nat) (s : State) (f : Flight) : State :=
  let d := dkOf s q
  let obj := f.val 1
  let fail (s : State) (c : Nat) (p : Option Nat) : State := memFault (dropObj s d obj none) q f c p
  match spadRead s q (f.val 0) 32 with
  | (s1, none) => exFault s1 q f 0x30
  | (s1, some b) =>
    let x := dDesc b
    if descCheck f.w x != 0 then exFault s1 q f (descCheck f.w x)
    else if objElsewhere s1 d obj none then exFault s1 q f 1
    else if !objRoom s1 d obj none then exFault s1 q f 0x60
    else match rowsRead q x x.rows 0 s1 [] with
      | (s2, (0, _), bs) =>
        let s3 := extendObj s2 d obj none bs
        if optF f.w 12 12 = 0 then dropFlight s3 q f.stream f.seq
        else match finalObj s3 d obj none with
          | (s4, true) => dropFlight s4 q f.stream f.seq
          | (s4, false) => exFault s4 q f 0x60
      | (s2, (c, p), _) => fail s2 c p

/-- The issue checks of D.COPY and D.MLOAD, and the ranges they touch. -/
def planCopy (q : Nat) (s : State) (f : Flight) : Issue :=
  let w := f.w
  let x := descOf s q f
  let own := (f.val 0, 32)
  -- a descriptor that an earlier instruction still writes leaves the ranges unknown
  let open_ := (earlierOf (quire s q) f).any (fun g => rangesMeet [own] g.spWr)
  let src := if open_ then (0, 2 ^ 64) else hull x.src x.rows x.bytes x.sstr
  let dst := if open_ then (0, 2 ^ 64) else hull x.dst x.rows x.bytes x.dstr
  let other := if dspOf w = 2 then (quire s (dqOf w)).flights.any (fun g => reserves g && g.spRd.any (overlaps dst)) else false
  { fault := firstFault [if dspOf w = 2 && deckleOfQuire s (dqOf w) != deckleOfQuire s q then 3 else 0, spadCheck (f.val 0) 32 32]
    full := headboxFull (quire s q)
    wait := other
    f := { f with
      part := .headbox
      spRd := own :: (if sspOf w = 1 then [src] else [])
      spWr := if dspOf w = 1 || (dspOf w = 2 && dqOf w = q) then [dst] else []
      mem := (if sspOf w = 0 then [src] else []) ++ (if dspOf w = 0 then [dst] else []) } }

/-! ### Prefetch (R326, R327) -/

/-- D.PREF: the named Headbox stream starts, or starts again. -/
def prefStart (q : Nat) (s : State) (f : Flight) : State :=
  let x := quire s q
  let p : Prefetch := { stream := f.stream, addr := f.val 0, len := f.val 1, depth := optF f.w 18 13 + 1, asked := 0, used := 0 }
  setQuire s q { x with prefetch := tupd x.prefetch (optF f.w 22 19) p }

/-- D.PREF starts its stream and ends. -/
def prefAct (q : Nat) (s : State) (f : Flight) : State := dropFlight (prefStart q s f) q f.stream f.seq

/-- Lines of a prefetch range. -/
def prefLines (p : Prefetch) : Nat := if p.len = 0 then 0 else (p.addr + p.len - 1) / 128 + 1 - p.addr / 128

/-- A Headbox stream asks for one line: a line that a slice holds is not requested, and one that does not translate or that meets a
protected range answers false. -/
def prefLine (q : Nat) (m : State × Bool) (va : Nat) : State × Bool :=
  if !m.2 then m else
  let d := dkOf m.1 q
  let v := viaOf d .stream
  let s := reachTouch m.1 d va 128
  if dkCheck s d .stream false va 128 != 0 || meetsProt s d va 128 then (s, false)
  else
    let segs := (reach s d .stream false va 128).segs
    (if segs.all (fun g => (findLine s v (lineOf g.1)).isSome) then s else segsTouch s v segs, true)

/-- A Headbox stream requests the lines up to its depth (R326, R327). -/
def prefRequest (q hs : Nat) (s : State) : State :=
  let x := quire s q
  match tfind x.prefetch hs with
  | none => s
  | some p =>
    let upto := min (prefLines p) (p.used + p.depth)
    let r := ((List.range (upto - p.asked)).map (fun i => (p.addr / 128 + p.asked + i) * 128)).foldl (prefLine q) (s, true)
    let y := quire r.1 q
    if !r.2 || upto ≥ prefLines p then setQuire r.1 q { y with prefetch := tdel y.prefetch hs }
    else setQuire r.1 q { y with prefetch := tupd y.prefetch hs { p with asked := max p.asked upto } }

/-! ### Meanings -/

/-- The word of D.COPY or D.MLOAD. -/
def copyOp (sub : Nat) (w : IWord) : Op :=
  { maj := 0x20, sub := sub, f1 := .s, f2 := if sub = 2 then .s else .none, opt := maskOf 22 12, ord := true, effect := true
    gates := if sub = 2 then [10] else []
    codes := decide (sspOf w ≤ 1) && decide (dspOf w ≤ 2) && (dspOf w == 2 || dqOf w == 0)
      && (if sub = 2 then sspOf w == 0 && dspOf w == 0 else optF w 12 12 == 0) }

/-- D.COPY. -/
def execDCopy (q st : Nat) (w : IWord) (s : State) : Res :=
  .next (issue s q st w (copyOp 0 w) (planCopy q) (fun s f => ordered s q f (copyAct q)))
/-- D.PREF. -/
def execDPref (q st : Nat) (w : IWord) (s : State) : Res :=
  .next (issue s q st w { maj := 0x20, sub := 1, f1 := .s, f2 := .s, opt := maskOf 22 13, ord := true } (planIn q .headbox)
    (fun s f => ordered s q f (prefAct q)))
/-- D.MLOAD. -/
def execDMload (q st : Nat) (w : IWord) (s : State) : Res :=
  .next (issue s q st w (copyOp 2 w) (planCopy q) (fun s f => ordered s q f (mloadAct q)))
/-- PREFETCH_REQUEST. -/
def execPrefetchRequest (q hs : Nat) (s : State) : Res := .next (prefRequest q hs s)

end Sys2Proof.Machine
end

