-- ==== Sys2Proof/Machine/RngOps.lean ====
section
/-! DEFINITION. The entropy complex: requests at the DRBG instances, CTR_DRBG, noise sources, conditioning, groups (ch. 15). -/

namespace Sys2Proof.Machine

/-- DRBG instance `g`. -/
def drbg (s : State) (g : Nat) : Drbg := tget {} s.rng.drbgs g
/-- Store it. -/
def setDrbg (s : State) (g : Nat) (x : Drbg) : State := { s with rng.drbgs := tset {} s.rng.drbgs g x }

/-- A consumer asks instance `g` for one 64-byte block. -/
def askBlock (s : State) (g : Nat) (r : RngReq) : State := setDrbg s g { drbg s g with queue := (drbg s g).queue ++ [r] }

/-- The 64-bit words of blocks, in order (R444). -/
def blockWords (bs : List (List Byte)) : List Nat := bs.flatMap (fun b => (List.range 8).map (fun w => fieldAt b (8 * w) 8))

/-! ### CTR_DRBG (SP 800-90A, AES-256, with derivation function) -/

/-- BCC of the derivation function. -/
def bcc (ks : List (List Nat)) (bs : List Byte) : List Byte :=
  (chunksOf 16 (bs.length / 16 + 1) bs).foldl (fun c b => aesEnc ks (xorB c b)) (zeros 16)

/-- `n` AES blocks, each the encryption of the one before. -/
def chainBlocks (ks : List (List Nat)) : Nat → List Byte → List Byte
  | 0, _ => []
  | n + 1, x => let y := aesEnc ks x; y ++ chainBlocks ks n y

/-- Block_Cipher_df: 48 bytes of seed material. -/
def drbgDf (input : List Byte) : List Byte :=
  let s := pad16 (beBytes 4 input.length ++ beBytes 4 48 ++ input ++ [0x80#8])
  let k0 := aesKeys ((List.range 32).map (fun i => BitVec.ofNat 8 i))
  let temp := (List.range 3).flatMap (fun i => bcc k0 (beBytes 4 i ++ zeros 12 ++ s))
  chainBlocks (aesKeys (temp.take 32)) 3 (temp.drop 32)

/-- `n` blocks of counter output after `v`. -/
def drbgCtr (ks : List (List Nat)) (v n : Nat) : List Byte :=
  (List.range n).flatMap (fun i => aesEnc ks (beBytes 16 ((v + i + 1) % 2 ^ 128)))

/-- CTR_DRBG_Update. -/
def drbgUpdate (x : Drbg) (v : Nat) (data : List Byte) : Drbg :=
  let t := xorB (drbgCtr (aesKeys x.key) v 3) data
  { x with key := t.take 32, v := beNat (t.drop 32) }

/-- Instantiation from two combined blocks (R441). -/
def drbgInit (x : Drbg) (b1 b2 pers : List Byte) : Drbg :=
  drbgUpdate { x with key := zeros 32, v := 0, count := 0, ready := true, stopped := false } 0
    (drbgDf (b1 ++ b2.take 16 ++ b2.drop 16 ++ pers))

/-- One generate request of 64 bytes (R442). -/
def drbgGen (x : Drbg) : Drbg × List Byte :=
  (drbgUpdate { x with count := x.count + 1 } ((x.v + 4) % 2 ^ 128) (zeros 48), drbgCtr (aesKeys x.key) x.v 4)

/-- A reseed from a combined block (R442). -/
def drbgReseed (x : Drbg) (b : List Byte) : Drbg := { drbgUpdate x x.v (drbgDf b) with count := 0, stopped := false }

/-- A reseed is due and possible (R443). -/
def reseedDue (x : Drbg) : Bool := decide (x.count ≥ 65536) && !x.seeds.isEmpty

/-- The instance can deliver a block. -/
def canDeliver (x : Drbg) : Bool := x.ready && !x.stopped && decide (x.count < 2 ^ 32)

/-! ### Sources and groups (R430–R440) -/

/-- Source `i`. -/
def source (s : State) (i : Nat) : Source := tget {} s.rng.sources i
/-- Store it. -/
def setSource (s : State) (i : Nat) (x : Source) : State := { s with rng.sources := tset {} s.rng.sources i x }
/-- The group of a source (Table 15.1). -/
def groupOf (i : Nat) : Nat := if i < 4 then i else if i < 12 then (i - 4) / 2 else i - 12
/-- The kind of a source. -/
def kindOf (i : Nat) : Kind := if i < 4 then .t else if i < 12 then .o else .m
/-- The sources of a kind in group `g`. -/
def members (g : Nat) (k : Kind) : List Nat :=
  match k with
  | .t => [g]
  | .o => [4 + 2 * g, 5 + 2 * g]
  | .m => [12 + g]
  | .none => []
/-- The number of a kind. -/
def kindIx (k : Kind) : Nat := match k with | .t => 0 | .o => 1 | .m => 2 | .none => 3
/-- Group `g`. -/
def group (s : State) (g : Nat) : Group := (tfind s.rng.groups g).getD { ka := .none, kb := .none, sb := .none }
/-- Store it. -/
def setGroup (s : State) (g : Nat) (x : Group) : State := { s with rng.groups := tupd s.rng.groups g x }

/-- R436: every source of the kind in the group is OPERATING. -/
def usable (s : State) (g : Nat) (k : Kind) : Bool := k != .none && (members g k).all (fun i => (source s i).state == .operating)

/-- A kind has stopped being usable: it was usable, or a source of it is DISABLED. -/
def stopped (s : State) (g : Nat) (k : Kind) : Bool :=
  k != .none && !usable s g k && (bit (group s g).seen (kindIx k) || (members g k).any (fun i => (source s i).state == .disabled))

/-- The groups that a lender supplies, ascending. -/
def recipients (s : State) (g : Nat) : List Nat := (List.range 4).filter (fun b => b == g || (group s b).borrow == some g)

/-- The seed queue of instance `g` is full. -/
def seedFull (s : State) (g : Nat) : Bool := decide ((drbg s g).seeds.length ≥ 4)

/-- The source of a kind that supplies group `g`'s next block (R437). -/
def supplier (s : State) (g : Nat) (k : Kind) : Option Nat :=
  match k with
  | .o => some (4 + 2 * g + (group s g).oNext % 2)
  | k => (members g k).head?

/-- R437, R439: combined blocks are formed while the pair supplies them and a queue has room. -/
def combine (g : Nat) : Nat → State → State
  | 0, s => s
  | n + 1, s =>
    let x := group s g
    let kinds := [x.ka, x.kb].filter (· != .none)
    let srcs := kinds.filterMap (supplier s g)
    let rs := recipients s g
    if kinds.isEmpty || rs.all (seedFull s) || srcs.any (fun i => (source s i).vouched.isEmpty) then s
    else
      let block := srcs.foldl (fun b i => xorB b ((source s i).vouched.headD (zeros 32))) (zeros 32)
      let s1 := srcs.foldl (fun s i => setSource s i { source s i with vouched := (source s i).vouched.drop 1 }) s
      let order := (rs.drop (x.turn % rs.length)) ++ rs.take (x.turn % rs.length)
      let dst := (order.find? (fun r => !seedFull s r)).getD g
      let turn := ((findIx (· == dst) rs).getD 0) + 1
      let s2 := setGroup s1 g { x with oNext := if kinds.contains .o then (x.oNext + 1) % 2 else x.oNext, turn := turn }
      combine g n (setDrbg s2 dst { drbg s2 dst with seeds := (drbg s2 dst).seeds ++ [block] })

/-- A source block is vouched (R435): it is kept for a kind of the pair while a queue of the group has room. -/
def vouch (s : State) (i : Nat) (b : List Byte) : State :=
  let g := groupOf i
  let x := group s g
  if !(x.ka == kindOf i || x.kb == kindOf i) || (recipients s g).all (seedFull s) then s
  else combine g 8 (setSource s i { source s i with vouched := (source s i).vouched ++ [b] })

/-- R438: a kind of the pair has stopped: the standby takes its place, or the place is free. -/
def leavePair (s : State) (g : Nat) (x : Group) (k : Kind) : Group :=
  let put (x : Group) (v : Kind) : Group := if x.ka == k then { x with ka := v } else { x with kb := v }
  if k == .none || !stopped s g k then x
  else if usable s g x.sb then { put x x.sb with sb := k }
  else put x .none

/-- R438: a kind outside the pair that is usable takes a free place of the pair, or the standby position. -/
def joinPair (s : State) (g : Nat) (x : Group) (k : Kind) : Group :=
  if x.ka == k || x.kb == k || !usable s g k then x
  else
    let clear (y : Group) : Group := if y.sb == k then { y with sb := .none } else y
    if x.ka == .none then { clear x with ka := k }
    else if x.kb == .none then { clear x with kb := k }
    else if !usable s g x.sb then { x with sb := k }
    else x

/-- R438: group `g` after a source has changed state. -/
def regroupOne (s : State) (g : Nat) : State :=
  let x0 := group s g
  let kinds : List Kind := [.t, .o, .m]
  let again := kinds.any (fun k => usable s g k && bit x0.lost (kindIx k))
  let mask (p : Kind → Bool) : Nat := kinds.foldl (fun m k => m + (if p k then 2 ^ kindIx k else 0)) 0
  let x1 := leavePair s g (leavePair s g x0 x0.ka) x0.kb
  -- a kind that has never been usable and outside the pair waits for its first use as standby
  let x2 := kinds.foldl (fun x k => if x.sb == k && !bit x0.lost (kindIx k) && x.ka != .none && x.kb != .none then x else joinPair s g x k) x1
  let x3 := { x2 with
    seen := mask (fun k => usable s g k || bit x0.seen (kindIx k))
    lost := mask (fun k => !usable s g k && (bit x0.seen (kindIx k) || bit x0.lost (kindIx k))) }
  let s1 := setGroup s g x3
  if again || x3.ka != x0.ka || x3.kb != x0.kb || x3.sb != x0.sb then raise s1 (mkEvent 0 6 g 0x03) else s1

/-- R439: who borrows from whom. -/
def reborrow (s : State) : State :=
  let has (g : Nat) : Bool := usable s g .t || usable s g .o || usable s g .m
  let lender := (List.range 4).find? has
  (List.range 4).foldl (fun s g =>
    let x := group s g
    let b := if has g then none else lender
    let s1 := setGroup s g { x with borrow := b }
    if b.isSome && x.borrow.isNone then raise s1 (mkEvent 0 6 g 0x04) else s1) s

/-- The groups after a source has changed state. -/
def regroup (s : State) : State :=
  let s1 := reborrow ((List.range 4).foldl regroupOne s)
  (List.range 4).foldl (fun s g => combine g 8 s) s1

/-- R433: a gap in a source's samples. -/
def sampleGap (s : State) (i : Nat) : State :=
  let x := source s i
  if x.state == .disabled then s
  else fadd (setSource s i { x with run := 0, winLen := 0, winHits := 0, forced := false }) .rngHtCnt 63 48 1

/-- The source is the target of an armed injection with a test. -/
def injected (s : State) (i test : Nat) : Bool :=
  fget s .rngHtInj 8 8 == 1 && fget s .rngHtInj 3 0 == i && fget s .rngHtInj 4 4 == test

/-- R449: the value that a forced failure makes of a sample. -/
def forcedSample (s : State) (i v : Nat) : Nat × Bool :=
  let x := source s i
  let forced := x.forced || (x.winLen == 0 && injected s i 1)
  if injected s i 0 && x.run != 0 then (x.last, forced)
  else if x.forced then (x.winFirst, forced)
  else (v, forced)

/-- A test of source `i` fails (R431): counted, logged, and the source starts over. -/
def testFails (s : State) (i : Nat) (tests : List Nat) : State :=
  let x := source s i
  let start := x.state == .startup
  let s1 := tests.foldl (fun s t =>
    let s1 := if t = 0 then fadd s .rngHtCnt 15 0 1 else fadd s .rngHtCnt 31 16 1
    logRecord s1 .rngHtLog 0 1 (1 + 4 * t + 8 * b2n start + 16 * i + 2 ^ 16 * (s.tsc % 2 ^ 48))) s
  let s2 := if start then fadd s1 .rngHtCnt 47 32 1 else s1
  let s3 := if injected s i 0 || injected s i 1 then fset s2 .rngHtInj 8 8 0 else s2
  let fresh : Source := { vouched := x.vouched, startFails := if start then x.startFails + 1 else 0 }
  if !start then regroup (raise (setSource s3 i fresh) (mkEvent 0 6 i 0x01))
  else if x.startFails + 1 ≥ 4 then regroup (raise (setSource s3 i { fresh with state := .disabled }) (mkEvent 2 6 i 0x02))
  else setSource s3 i fresh

/-- A sample of source `i` passes its tests and is used (R431, R434, R435). -/
def sampleUsed (s : State) (i : Nat) (x : Source) (v : Nat) : State :=
  let full := x.winLen ≥ 1024
  let y := if full then { x with winLen := 0, winHits := 0, forced := false } else x
  if y.state == .startup then
    if y.passed + 1 ≥ 1024 then
      regroup (setSource s i { y with state := .operating, passed := 0, startFails := 0, winLen := 0, winHits := 0, forced := false })
    else setSource s i { y with passed := y.passed + 1 }
  else
    let block := y.block ++ [v]
    let z := if block.length < 384 then { y with block := block } else
      { y with
        block := []
        held := y.held ++ [sha256 ((chunksOf 2 192 block).map (fun p => BitVec.ofNat 8 (p.headD 0 + 16 * (p.getD 1 0))))] }
    if full then z.held.foldl (fun s b => vouch s i b) (setSource s i { z with held := [] }) else setSource s i z

/-- A raw sample of source `i` (R430–R435), short of the FAILED state. -/
def takeSample (i v0 : Nat) (s : State) : State :=
  let x := source s i
  let (v, forced) := forcedSample s i v0
  let run := if x.run != 0 && v == x.last then x.run + 1 else 1
  let first := if x.winLen = 0 then v else x.winFirst
  let hits := if x.winLen = 0 then 1 else x.winHits + b2n (v == first)
  let y := { x with last := v, run := run, winFirst := first, winLen := x.winLen + 1, winHits := hits, forced := forced }
  let fails := (if run ≥ 41 then [0] else []) ++ (if hits ≥ 625 then [1] else [])
  if fails.isEmpty then sampleUsed s i y v else testFails s i fails

/-- R440: the RNG enters FAILED: everything it holds is zeroised; the reads that wait are answered by the caller. -/
def enterFailed (s : State) : State :=
  let s1 := { s with
    rng.failed := true
    rng.sources := (List.range 16).map (fun i => (i, ({ state := .disabled } : Source)))
    rng.drbgs := [] }
  raise (fset s1 .rngSts 2 2 1) (mkEvent 2 6 0 0x06)

/-- Every source is DISABLED. -/
def allDisabled (s : State) : Bool := (List.range 16).all (fun i => (source s i).state == .disabled)

end Sys2Proof.Machine
end

