-- ==== Sys2Proof/Machine/Serve.lean ====
section
/-! DEFINITION. The C. instructions, the decode-step assembler, the sampler, the swap engine and the pools (ch. 07). -/

namespace Sys2Proof.Machine

/-! ### Attach (R204, R207) -/

/-- Mode and parameters after R207. -/
def adjust (mode temp topp topk chunk : Nat) : Nat × Nat × Nat × Nat × Nat :=
  let good := temp != 0 && decide (temp < 0x7F800000)
  (if good then mode else 0, temp, if topp != 0 && decide (topp ≤ 0x3F800000) then topp else 0x3F800000, min topk 1024,
    if chunk = 0 then 1 else min chunk 4096)

/-- A context number. -/
def ctxNumOk (n : Nat) : Bool := decide (n < 4096)

/-- Ownership of a context an instruction names: a number above 4,095 is none that a deckle holds. -/
def ctxHeld (s : State) (q n : Nat) (idleToo : Bool) : Nat :=
  if !ctxNumOk n then 3
  else
    let x := ctxOf s n
    if x.state = .idle then (if idleToo then 0 else 3) else if x.deckle = dkOf s q then 0 else 3

/-- Issue checks of C.ATTACH. -/
def planAttach (q : Nat) (s : State) (f : Flight) : Issue :=
  { fault := firstFault [if f.val 1 ≥ 16 then 1 else 0, if f.val 2 % 64 != 0 then 1 else 0, ctxHeld s q (f.val 0) true]
    f := { f with mem := [(f.val 2, 128)] } }

/-- C.ATTACH executes. -/
def attachAct (q : Nat) (s : State) (f : Flight) : State :=
  let d := dkOf s q
  let c := f.val 0
  let m := f.val 1
  if (ctxOf s c).state != .idle then exFault s q f 0x61 else
  match dkRead s d .ctx (f.val 2) 128 with
  | (s1, .bad e p) => memFault s1 q f e p
  | (s1, .ok b) =>
    let cap := fieldAt b 5 1
    let tok := fieldAt b 0x30 8
    if fieldAt b 0 4 != 0x31414351 || fieldAt b 7 1 != 0 || !allZero (sliceB b 0x14 12) || !allZero (sliceB b 0x38 72)
        || fieldAt b 4 1 > 1 || cap < 10 || cap > 24 || tok % 64 != 0 then exFault s1 q f 1
    else
      match dkProbe s1 d .ctx true tok (4 * 2 ^ cap) with
      | (s0, some (e, p)) => memFault s0 q f e p
      | (s1, none) =>
      if meetsProt s1 d tok (4 * 2 ^ cap) then exFault s1 q f 3
      else if (modelOf s1 d m).state != .loaded then exFault s1 q f 0x61
      else if fget s1 .ctxPoolCtl 0 0 d = 0 then exFault s1 q f 0x60
      else match allocUnit s1 d 2 with
        | none => exFault s1 q f 0x60
        | some (dir, s2) =>
          let s3 := ctxPut s2 d dir (zeros 8192)
          let (mode, temp, topp, topk, chunk) := adjust (fieldAt b 4 1) (fieldAt b 8 4) (fieldAt b 12 4) (fieldAt b 16 2) (fieldAt b 18 2)
          let y : Ctx := { state := .resident, deckle := d, model := m, compring := fieldAt b 6 1, tokcap := cap, dir := dir
                           tokbuf := tok, mode := mode, temp := temp, topp := topp, topk := topk, chunk := chunk
                           stops := (List.range 4).map (fun i => fieldAt b (0x20 + 4 * i) 4) }
          let s4 := setCtx s3 c y
          let r := modelOf s4 d m
          dropFlight (setModel s4 d m { r with binds := r.binds + 1 }) q f.stream f.seq

/-! ### Decode steps (R212–R214) -/

/-- TOKENS of a context for the next step. -/
def tokensOf (x : Ctx) : Nat := min (min x.pendingIn x.chunk) (2 ^ x.tokcap - x.position % 2 ^ x.tokcap)

/-- R213: the request of a context ends, and its ring receives an end record. -/
def endRequest (s : State) (c fault : Nat) : State :=
  let x := ctxOf s c
  ctxRecord (setCtx s c { x with pendingIn := 0, genLimit := 0, state := .resident }) c 2 fault 0 false

/-- One batch list entry (Table 07.5). -/
def batchEntry (c : Nat) (x : Ctx) (tokens : Nat) (sample : Bool) : List Byte :=
  leBytes 2 c ++ leBytes 1 x.model ++ leBytes 1 (b2n sample) ++ leBytes 4 tokens ++ leBytes 8 x.position
    ++ leBytes 8 (tokenAt x x.position) ++ leBytes 8 x.dir

/-- The assembler examines one context: the step's entries so far, and the batch list so far. -/
def examine (d room : Nat) (a : State × List StepEntry × List Byte) (c : Nat) : State × List StepEntry × List Byte :=
  let (s, es, list) := a
  if es.length ≥ room then a else
  let x := ctxOf s c
  let kvb := (modelOf s d x.model).kvb
  let tokens := tokensOf x
  let lo := x.position * kvb / 65536
  let hi := ((x.position + tokens) * kvb - 1) / 65536
  if hi ≥ 2 ^ 20 then (endRequest s c 0x60, es, list)
  else match mapFolios s c ((List.range (hi + 1 - lo)).map (· + lo)) with
    | (s1, .full) => (fadd s1 .ctxPrtCnt 31 0 1 d, es, list)
    | (s1, .poison p) => (endRequest (raisePoison s1 12 0 (some d) p) c 0x30, es, list)
    | (s1, .ok) =>
      let y := { ctxOf s1 c with instep := true, sampled := false, stepStopped := false }
      let sample := tokens == x.pendingIn && decide (x.genLimit > 0)
      let s2 := fset (setCtx s1 c y) .ctxGsts 10 0 (fget s1 .ctxGsts 10 0 + 1)
      (s2, es ++ [{ ctx := c, inTokens := tokens, samples := sample, drawn := none }], list ++ batchEntry c y tokens sample)

/-- Put a context into a list ordered by READY_SEQ. -/
def insertReady (s : State) (c : Nat) : List Nat → List Nat
  | [] => [c]
  | e :: es => if (ctxOf s c).readySeq < (ctxOf s e).readySeq then c :: e :: es else e :: insertReady s c es

/-- The contexts of a deckle that satisfy `p`, in ascending READY_SEQ. -/
def readyCtxs (s : State) (d : Nat) (p : Ctx → Bool) : List Nat :=
  (s.serving.ctxs.filter (fun e => e.2.deckle == d && p e.2)).foldl (fun l e => insertReady s e.1 l) []

/-- C.STEP executes; in a stream that is DRAINING the step that it opens closes without commit (R216). -/
def stepAct (q : Nat) (s : State) (f : Flight) : State :=
  let d := dkOf s q
  let s1 := closeStep s q f.stream true
  let room := min (f.val 1) (1024 - fget s1 .ctxGsts 10 0)
  let (s2, es, list) := (readyCtxs s1 d (fun x => x.state == .active && !x.instep)).foldl (examine d room) (s1, [], [])
  let s3 := setStream s2 q f.stream { stream s2 q f.stream with step := some es }
  let s4 := spadWrite (dropFlight s3 q f.stream f.seq) q (f.val 0) list
  let s5 := wrS s4 q f.stream (f3Of f.w) es.length
  if (stream s5 q f.stream).state = .running then s5 else closeStep s5 q f.stream false

/-- Issue checks of C.STEP: the batch list operand is the list of a full selection. -/
def planStep (_ : State) (f : Flight) : Issue :=
  let n := f.val 1
  { fault := firstFault [if n = 0 || n > 1024 then 1 else 0, spadCheck (f.val 0) (32 * n) 64]
    f := { f with spWr := [(f.val 0, 32 * n)] } }

/-! ### The sampler (R217–R219) -/

/-- Put a pair (index, weight) into a list ordered by weight, larger first, ties by lower index first. -/
def insertRank (p : Nat × Nat) : List (Nat × Nat) → List (Nat × Nat)
  | [] => [p]
  | r :: rs => if p.2 > r.2 then p :: r :: rs else r :: insertRank p rs

/-- The shortest prefix whose sum reaches `num / den` of the total. -/
def prefixTo (num den total : Nat) : Nat → List (Nat × Nat) → List (Nat × Nat)
  | _, [] => []
  | acc, p :: ps => if (acc + p.2) * den ≥ num * total then [p] else p :: prefixTo num den total (acc + p.2) ps

/-- The exact quotient of two finite values, rounded once to FP32. -/
def divFp32 (a b : Nat) : Nat :=
  match decodeF fp32 a, decodeF fp32 b with
  | .fin n1 m1 e1, .fin n2 m2 e2 =>
    if m2 = 0 then fmtNaN fp32
    else encodeFin fp32 .rne (n1 != n2) (m1 * 2 ^ 80 / m2) (e1 - e2 - 80) (m1 * 2 ^ 80 % m2 != 0)
  | _, _ => fmtNaN fp32

/-- The weight code of R218 of one logit. -/
def weightOf (m c : Nat) (l : Nat) : Nat :=
  -- the logit m itself weighs 1 whatever the temperature
  if cmpF (decodeF fp32 l) (decodeF fp32 m) == .eq then 0x3F800000 else
  let x := encodeF fp32 .rne (addF (decodeF fp32 l) (negF (decodeF fp32 m)))
  exp2F fp32 (decodeF fp32 (encodeF fp32 .rne (mulF (decodeF fp32 x) (decodeF fp32 c))))

/-- A weight as an integer in units of 2⁻¹⁴⁹. -/
def weightInt (code : Nat) : Nat :=
  match decodeF fp32 code with
  | .fin _ m e => m * 2 ^ (e + 149).toNat
  | _ => 0

/-- The first kept index, ascending, whose cumulative weight passes the draw. -/
def pickAt (r t : Nat) : Nat → List (Nat × Nat) → Nat
  | _, [] => 0xFFFFFFFF
  | cum, p :: ps => if r * t < 2 ^ 64 * (cum + p.2) then p.1 else pickAt r t (cum + p.2) ps

/-- R218: the token drawn from FP32 logits. -/
def sampleToken (x : Ctx) (logits : List Nat) (r : Nat) : Nat :=
  let ls := logits.map (fun l => match decodeF fp32 l with
    | .nan => 0xFF800000
    | _ => l)
  let m := ls.foldl (fun a l => if cmpF (decodeF fp32 a) (decodeF fp32 l) == .lt then l else a) 0xFF800000
  if m = 0xFF800000 then 0xFFFFFFFF
  else if x.mode = 0 then ((findIx (fun l => cmpF (decodeF fp32 l) (decodeF fp32 m) == .eq) ls).getD 0)
  else
    let ws := if m = 0x7F800000 then ls.map (fun l => if l = 0x7F800000 then 0x3F800000 else 0)
      else ls.map (weightOf m (divFp32 0x3FB8AA3B x.temp))
    let ranked := ((tpairs 0 (ws.map weightInt)).foldl (fun l p => insertRank p l) [])
    let k1 := if x.topk > 0 then ranked.take x.topk else ranked
    let total := k1.foldl (fun a p => a + p.2) 0
    let (num, den) := match decodeF fp32 x.topp with
      | .fin _ a e => if e ≥ 0 then (a * 2 ^ e.toNat, 1) else (a, 2 ^ (-e).toNat)
      | _ => (1, 1)
    let keep := prefixTo num den total 0 k1
    let t := keep.foldl (fun a p => a + p.2) 0
    pickAt r t 0 (keep.foldl (fun l p => insertIx p l) [])
where
  /-- Put a pair into a list ordered by index. -/
  insertIx (p : Nat × Nat) : List (Nat × Nat) → List (Nat × Nat)
    | [] => [p]
    | r :: rs => if p.1 < r.1 then p :: r :: rs else r :: insertIx p rs

/-- Some of the pipes `m` are occupied, or instructions wait for them. -/
def pipesTaken (x : Quire) (m : Nat) : Bool := x.pipeBusy &&& m != 0 || !(pipeWaits x m).isEmpty

/-- Issue checks of C.SAMPLE: it waits for the Beater's FP and TRN pipes (R219). -/
def planSample (q : Nat) (s : State) (f : Flight) : Issue :=
  let v := f.val 2
  { fault := firstFault [if v = 0 || v > 262144 then 1 else 0, ctxHeld s q (f.val 0) false, spadCheck (f.val 1) (4 * v) 64]
    wait := pipesTaken (quire s q) 5
    f := { f with spRd := [(f.val 1, 4 * v)] } }

/-- C.SAMPLE starts and takes the FP and TRN pipes: the context must be in the stream's step with SAMPLE 1 and no token drawn; then one
block is asked for. -/
def sampleStart (q : Nat) (s : State) (f : Flight) : State :=
  let c := f.val 0
  let x := ctxOf s c
  let ok := match (stream s q f.stream).step with
    | some es => es.any (fun e => e.ctx == c && e.samples)
    | none => false
  if !ok || x.sampled || x.sampling then exFault s q f 0x61
  else if s.rng.failed then exFault s q f 0x40
  else
    let s0 := setQuire s q { quire s q with pipeBusy := (quire s q).pipeBusy ||| 5 }
    let s1 := setCtx (putFlight s0 q { f with phase := .drawing 1 [] }) c { x with sampling := true }
    askBlock s1 0 { who := .stream q f.stream f.seq }

/-- C.SAMPLE ends with its draw: the first word of its block. -/
def sampleRun (q : Nat) (s : State) (f : Flight) (words : List Nat) : State :=
  let c := f.val 0
  let s0 := setCtx s c { ctxOf s c with sampling := false }
  match spadRead s0 q (f.val 1) (4 * f.val 2) with
  | (s1, none) => exFault s1 q f 0x30
  | (s1, some bs) =>
    let x := ctxOf s1 c
    let t := sampleToken x ((chunksOf 4 (f.val 2) bs).map leNat) (words.headD 0)
    wrS (dropFlight (setCtx s1 c { x with sampled := true, nextToken := t }) q f.stream f.seq) q f.stream (f4Of f.w) t

/-! ### Swap engine (R220–R222) -/

/-- Reserve `n` units of a pool, lowest first. -/
def reserveUnits (d k : Nat) : Nat → State × List Nat → Option (State × List Nat)
  | 0, a => some a
  | n + 1, (s, l) => match allocUnit s d k with
    | some (u, s1) => reserveUnits d k n (s1, l ++ [u])
    | none => none

/-- A move begins, if its destination units can be reserved. -/
def startMove (s : State) (c : Nat) (toHbm : Bool) (mover : Option (Nat × Nat × Nat)) : Option State :=
  let x := ctxOf s c
  (reserveUnits x.deckle (if toHbm then 0 else 1) (foliosOf s c).length (s, [])).map (fun r =>
    setCtx r.1 c { x with state := .swapped, moving := true, moveIn := toHbm, mover := mover, reserved := r.2 })

/-- Issue checks of C.SWAP: it moves the folios of its context. -/
def planSwap (q : Nat) (s : State) (f : Flight) : Issue :=
  { fault := ctxHeld s q (f.val 0) false
    f := { f with mem := (foliosOf s (f.val 0)).map (fun p => (p.2.2 / 65536 * 65536, 65536)) } }

/-- C.SWAP executes (R220). -/
def swapAct (q : Nat) (s : State) (f : Flight) : State :=
  let c := f.val 0
  let x := ctxOf s c
  let toHbm := bit f.w.low.toNat 22
  let go (s : State) : State :=
    match startMove s c toHbm (some (q, f.stream, f.seq)) with
    | some s1 => putFlight s1 q { f with phase := .transfer }
    | none => exFault s q f 0x60
  if x.state = .idle || x.moving || (!toHbm && x.state = .active) then exFault s q f 0x61
  else if toHbm then (if x.state = .swapped then go s else dropFlight s q f.stream f.seq)
  else if x.state = .resident then go s else dropFlight s q f.stream f.seq

/-- One folio moves to its reserved unit (R221). -/
def moveFolio (d tier : Nat) (s : State) (p : (Nat × Nat × Nat) × Nat) : State :=
  let old := p.1.2.2 / 65536 * 65536
  let s1 := (moveRange s d .swap old p.2 65536).1
  let s2 := tableWrite s1 d p.1.2.1 (p.2 + 2 * tier + 1)
  freeUnit s2 d (1 - tier) old

/-- SWAP_END: the move of a context ends. -/
def swapFinish (c : Nat) (s : State) : State :=
  let x := ctxOf s c
  if !x.moving then s else
  let d := x.deckle
  let s1 := ((foliosOf s c).zip x.reserved).foldl (moveFolio d (if x.moveIn then 0 else 1)) s
  let s2 := fadd s1 .ctxPrtCnt 63 32 1 d
  let y := { ctxOf s2 c with moving := false, mover := none, reserved := [] }
  let s3 := if !x.moveIn then setCtx s2 c y
    else if y.pendingIn > 0 then renewReady (setCtx s2 c { y with state := .active }) c
    else setCtx s2 c { y with state := .resident }
  let s4 := ctxSettle s3 c
  match x.mover with
  | some (q, st, sq) => settleQuire (dropFlight s4 q st sq) q
  | none => s4

/-- LOW and HIGH of a deckle; HIGH below LOW is taken as LOW. -/
def watermarks (s : State) (d : Nat) : Nat × Nat :=
  let lo := fget s .ctxSwpCtl 30 8 d
  (lo, max lo (fget s .ctxSwpCtl 54 32 d))

/-- R222: the engine swaps out the RESIDENT context with the lowest LAST_STEP, from the time the free folios fall below LOW until
they reach HIGH. -/
def autoOut (d : Nat) (s : State) : State :=
  let (lo, hi) := watermarks s d
  let free := poolFree s d 0
  let on := free < lo || (s.serving.autoOut.contains d && free < hi)
  let off (s : State) : State := { s with serving.autoOut := s.serving.autoOut.filter (· != d) }
  let busy := s.serving.ctxs.any (fun e => e.2.deckle == d && e.2.moving && e.2.mover.isNone && !e.2.moveIn)
  if !deckleExists s d || fget s .ctxSwpCtl 1 1 d = 0 || !on then off s
  else if busy then s
  else
    let cs := (s.serving.ctxs.filter (fun e => e.2.deckle == d && e.2.state == .resident && !e.2.instep)).foldl
      (fun (m : Option (Nat × Nat)) e => match m with
        | none => some (e.1, e.2.lastStep)
        | some b => if e.2.lastStep < b.2 then some (e.1, e.2.lastStep) else m) none
    match cs with
    | none => s
    | some (c, _) => match startMove s c false none with
      | some s1 => { off s1 with serving.autoOut := (off s1).serving.autoOut ++ [d] }
      | none => s

/-- R222: the engine swaps in the SWAPPED context that has waited longest, where its folios leave LOW units free. -/
def autoIn (d : Nat) (s : State) : State :=
  if !deckleExists s d || fget s .ctxSwpCtl 0 0 d = 0 then s else
  match readyCtxs s d (fun x => x.state == .swapped && !x.moving && decide (x.pendingIn > 0)) with
  | [] => s
  | c :: _ =>
    if poolFree s d 0 ≥ (foliosOf s c).length + (watermarks s d).1 then (startMove s c true none).getD s else s

/-! ### Pools (R229) -/

/-- Every 64 KiB page of a range of deckle addresses is mapped to the deckle's own memory, of the tier asked where one is. -/
def rangeOf (s : State) (d : Nat) (tier : Option Bool) (va n : Nat) : Bool :=
  n = 0 || (List.range ((va + n - 1) / 65536 + 1 - va / 65536)).all (fun i =>
    match walk s d ((va / 65536 + i) * 65536) with
    | .hit a _ => ownerOf s a == some d && (match tier with | some lp => isLp a == lp | none => true)
    | _ => false)

/-- The four ranges of a deckle's pools: HBM, LPDDR, table, bitmaps. -/
def poolRanges (s : State) (d : Nat) : List (Nat × Nat) :=
  [(poolBase s d 0, poolCnt s d 0 * 65536), (poolBase s d 1, poolCnt s d 1 * 65536), (poolBase s d 2, poolCnt s d 2 * 8192),
   (rget s .ctxMapBase d, mapBytes s d)]

/-- No two ranges of a list overlap. -/
def disjointRanges : List (Nat × Nat) → Bool
  | [] => true
  | r :: rs => rs.all (fun x => r.2 == 0 || x.2 == 0 || !overlaps r x) && disjointRanges rs

/-- R229: the pools may be enabled. -/
def poolsOk (s : State) (d : Nat) : Bool :=
  match poolRanges s d with
  | [h, l, t, m] =>
    h.1 % 65536 == 0 && l.1 % 65536 == 0 && t.1 % 8192 == 0 && m.1 % 64 == 0
      && decide (poolCnt s d 0 ≤ 8388608) && decide (poolCnt s d 1 ≤ 8388608) && decide (poolCnt s d 2 ≤ 65535)
      && rangeOf s d (some false) h.1 h.2 && rangeOf s d (some true) l.1 l.2
      && rangeOf s d none t.1 t.2 && rangeOf s d none m.1 m.2 && disjointRanges [h, l, t, m]
  | _ => false

/-- POOL_ENABLE. -/
def poolsOn (d : Nat) (s : State) : State :=
  if !deckleExists s d then s
  else if fget s .ctxPoolCtl 0 0 d = 1 then fset s .ctxPoolCtl 1 1 0 d
  else if !poolsOk s d then fset s .ctxPoolCtl 1 1 1 d
  else
    let s1 := ctxPut s d (rget s .ctxMapBase d) (zeros (mapBytes s d))
    let s2 := rset s1 .ctxPoolCtl 1 d
    let s3 := rset s2 .ctxPoolFree (poolCnt s d 0 + 2 ^ 24 * poolCnt s d 1 + 2 ^ 48 * poolCnt s d 2) d
    addProt (addProt s3 d { kind := .pool, base := poolBase s d 2, len := poolCnt s d 2 * 8192 }) d
      { kind := .pool, base := rget s .ctxMapBase d, len := mapBytes s d }

/-- POOL_DISABLE. -/
def poolsOff (d : Nat) (s : State) : State :=
  if fget s .ctxPoolCtl 0 0 d = 0 then fset s .ctxPoolCtl 1 1 0 d
  else if s.serving.ctxs.any (fun e => e.2.deckle == d && e.2.state != .idle) then fset s .ctxPoolCtl 1 1 1 d
  else
    let s1 := rset (rset s .ctxPoolCtl 0 d) .ctxPoolFree 0 d
    setDeckle s1 d { deckle s1 d with prot := (deckle s1 d).prot.filter (fun p => p.kind != .pool) }

/-! ### Meanings -/

/-- C.ATTACH. -/
def execCAttach (q st : Nat) (w : IWord) (s : State) : Res :=
  .next (issue s q st w { maj := 0x28, sub := 0, f1 := .s, f2 := .s, f3 := .s, ord := true, gates := [6], effect := true }
    (planAttach q) (fun s f => ordered s q f (attachAct q)))
/-- C.STEP: it waits until every earlier instruction of its stream has ended. -/
def execCStep (q st : Nat) (w : IWord) (s : State) : Res :=
  .next (issue s q st w { maj := 0x28, sub := 1, f1 := .s, f2 := .s, f3 := .sw, ord := true, gates := [6], effect := true }
    planStep (fun s f => releaseFirst s q f 3 (stepAct q)))
/-- C.SAMPLE. -/
def execCSample (q st : Nat) (w : IWord) (s : State) : Res :=
  .next (issue s q st w
    { maj := 0x28, sub := 2, f1 := .s, f2 := .s, f3 := .s, f4 := .sw, ord := true, gates := [6], effect := true }
    (planSample q) (fun s f => ordered s q f (sampleStart q)))
/-- C.SWAP. -/
def execCSwap (q st : Nat) (w : IWord) (s : State) : Res :=
  .next (issue s q st w { maj := 0x28, sub := 3, f1 := .s, opt := maskOf 22 22, ord := true, gates := [6], effect := true }
    (planSwap q) (fun s f => ordered s q f (swapAct q)))
/-- SWAP_END. -/
def execSwapEnd (ctx : Nat) (s : State) : Res := .next (swapFinish ctx s)
/-- AUTO_SWAP_OUT. -/
def execAutoSwapOut (d : Nat) (s : State) : Res := .next (autoOut d s)
/-- AUTO_SWAP_IN. -/
def execAutoSwapIn (d : Nat) (s : State) : Res := .next (autoIn d s)
/-- POOL_ENABLE. -/
def execPoolEnable (fn d : Nat) (value : Word) (s : State) : Res :=
  .next (ownWrite s fn .ctxPoolCtl d value.toNat (fun s => if bit value.toNat 0 then poolsOn d s else s))
/-- POOL_DISABLE. -/
def execPoolDisable (fn d : Nat) (value : Word) (s : State) : Res :=
  .next (ownWrite s fn .ctxPoolCtl d value.toNat (fun s => if bit value.toNat 0 then s else poolsOff d s))

end Sys2Proof.Machine
end

