-- ==== Sys2Proof/Machine/Requests.lean ====
section
/-! DEFINITION. Host requests on programs, memory, contexts and models (R140, R141, R205–R207, R224–R226, R363–R368). -/

namespace Sys2Proof.Machine

/-! ### Programs -/

/-- The program a handle names, where it is loaded and its generation is current (R133). -/
def programAt (s : State) (d handle : Nat) : Option Program :=
  match tfind (deckle s d).programs (handle % 64) with
  | some g => if g.live && g.gen == handle / 64 then some g else none
  | none => none

/-- R363: a stream of quire `q` starts. -/
def startStream (s : State) (r : Nat) (d : Desc) (q st : Nat) (g : Program) (entry handle : Nat) : State :=
  let x := stream s q st
  let y := { x with
    state := .running, prog := handle, ring := r, desc := d.id, pc := nth 0 g.entries entry, ending := false, fault := none
    sregs := startRegs q st (par d 0x20 8) (g.base + g.constOff) handle, vregs := [], pregs := [], mslots := []
    recorded := false, leaving := false, step := none, rung := [] }
  setStream (setDesc s r { d with busy := true }) q st y

/-- DISPATCH. -/
def dispatchReq (r : Nat) (s : State) (d : Desc) : State :=
  let q := par d 0x13 1
  let want := par d 0x14 1
  let handle := par d 0x10 2
  let entry := par d 0x12 1
  if q ≥ 64 || deckleOfQuire s q != some d.deckle then faultReq s r d 3
  else if (quire s q).role = 0 || (want > 7 && want != 0xFF) then faultReq s r d 1
  else match programAt s d.deckle handle with
    | none => faultReq s r d 1
    | some g =>
      if entry ≥ g.entries.length || (want != 0xFF && want ≥ g.streams) then faultReq s r d 1
      else
        let free (st : Nat) : Bool := (stream s q st).state == .idle
        let pick := if want = 0xFF then (List.range g.streams).find? free else if free want then some want else none
        match pick with
        | some st => startStream s r d q st g entry handle
        | none => s

/-- Table 05.3: what a load finds in a header: 0, VERSION or ILLEGAL_OP. -/
def imageCheck (b : List Byte) : Nat :=
  let f := fieldAt b 8 8
  let vminor := fieldAt b 4 1
  let size := fieldAt b 16 4
  let (co, cs, ko, ks) := (fieldAt b 20 4, fieldAt b 24 4, fieldAt b 28 4, fieldAt b 32 4)
  let n := fieldAt b 0x27 1
  if fieldAt b 5 1 != 3 || vminor > 1 || f ≥ 2 ^ 12 || (vminor = 0 && [3, 5, 8, 11].any (bit f)) then 2
  else if fieldAt b 0 4 != 0x334C445A || fieldAt b 6 2 != 128 || size % 64 != 0 || size < 256 || size > 67108864
    || co % 64 != 0 || co < 128 || cs % 8 != 0 || cs < 8 || co + cs > size
    || (ks != 0 && (ko % 64 != 0 || ko < 128 || ko + ks > size || overlaps (co, cs) (ko, ks)))
    || fieldAt b 0x24 1 < 1 || fieldAt b 0x24 1 > 8 || fieldAt b 0x25 1 < 1 || fieldAt b 0x25 1 > 64 || fieldAt b 0x26 1 > 32
    || n < 1 || n > 16 || fieldAt b 0x28 4 > 2097152 || fieldAt b 0x2C 4 != 0 || !allZero (sliceB b 0x70 16)
    || (List.range 16).any (fun i =>
        let e := fieldAt b (0x30 + 4 * i) 4
        if i < n then e % 8 != 0 || decide (e ≥ cs) else e != 0) then 1
  else 0

/-- The bytes of a source: host or device memory; the fault that ends the request where it has none. -/
def sourceRead (s : State) (d sspace src n : Nat) (h : HostRead) : State × (List Byte ⊕ (Nat × Nat × Option Nat)) :=
  if sspace = 0 then (s, if hostStatus h = 0 then .inl (hostRead s src n) else .inr (hostStatus h, 0, none))
  else match dkRead s d .hostDma src n with
    | (s1, .ok bs) => (s1, .inl bs)
    | (s1, .bad c p) => (s1, .inr (5, c, p))

/-- A request completes as its source's failure says. -/
def sourceFail (s : State) (r : Nat) (d : Desc) (e : Nat × Nat × Option Nat) : State :=
  if e.1 = 5 then localReq s r d e.2.1 e.2.2 else complete s r d.id e.1 0 0

/-- The program of an image that has been copied to `base`. -/
def programFrom (b : List Byte) (gen base : Nat) (digest : List Byte) : Program :=
  { gen := gen, live := true, base := base, size := fieldAt b 16 4, codeOff := fieldAt b 20 4, codeSize := fieldAt b 24 4
    constOff := fieldAt b 28 4, constSize := fieldAt b 32 4, features := fieldAt b 8 8, vminor := fieldAt b 4 1
    streams := fieldAt b 0x24 1, spadBytes := fieldAt b 0x28 4, entries := (List.range (fieldAt b 0x27 1)).map (fun i => fieldAt b (0x30 + 4 * i) 4), digest := digest }

/-- The lowest free entry of a program table. -/
def freeProgram (s : State) (d : Nat) : Option Nat :=
  (List.range 64).find? (fun i => match tfind (deckle s d).programs i with
    | some g => !g.live
    | none => true)

/-- Write as much of a range as its checks admit: the refusal, if any. -/
def writePrefix (s : State) (k va : Nat) (bs : List Byte) : State × Option (Nat × Option Nat) :=
  let s1 := reachTouch s k va bs.length
  let w := reach s1 k .hostDma true va bs.length
  (segsWrite s1 (viaOf k .hostDma) w.segs bs, w.bad.map (·.2))

/-- LOAD. -/
def loadReq (r : Nat) (h : HostRead) (s : State) (d : Desc) : State :=
  let (src, dst, sp) := (par d 0x10 8, par d 0x18 8, par d 0x20 1)
  let k := d.deckle
  if sp > 1 then faultReq s r d 1 else
  match sourceRead s k sp src 128 h with
  | (s1, .inr e) => sourceFail s1 r d e
  | (s1, .inl hdr) =>
    let size := fieldAt hdr 16 4
    if size % 64 != 0 || size < 256 || size > 67108864 then faultReq s1 r d (max 1 (imageCheck hdr)) else
    match sourceRead s1 k sp src size h with
    | (s2, .inr e) => sourceFail s2 r d e
    | (s2, .inl bs) =>
      match writePrefix s2 k dst bs with
      | (s3, some (c, p)) => localReq s3 r d c p
      | (s3, none) =>
        if imageCheck bs != 0 then faultReq s3 r d (imageCheck bs)
        else if fieldAt bs 0x25 1 > (quiresOf s3 k).length then faultReq s3 r d 0x60
        else match freeProgram s3 k with
          | none => faultReq s3 r d 0x60
          | some i =>
            let gen := ((((tfind (deckle s3 k).programs i).map (·.gen)).getD 0) + 1) % 1024
            let dig := sha256 bs
            let handle := i + 64 * gen
            let s4 := setDeckle s3 k { deckle s3 k with programs := tupd (deckle s3 k).programs i (programFrom bs gen dst dig) }
            let s5 := addProt s4 k { kind := .program, base := dst, len := size }
            let s6 := addMeasure s5 k ⟨1, handle, leBytes 2 handle ++ zeros 2 ++ leBytes 4 size ++ zeros 8 ++ dig⟩
            okReq s6 r d handle

/-- UNLOAD. -/
def unloadReq (r : Nat) (s : State) (d : Desc) : State :=
  let handle := par d 0x10 2
  let k := d.deckle
  match programAt s k handle with
  | none => faultReq s r d 1
  | some g =>
    let runs := (quiresOf s k).any (fun q => (List.range 8).any (fun st =>
      let x := stream s q st
      (x.state == .running || x.state == .draining) && x.prog == handle))
    if runs then faultReq s r d 3
    else
      let s1 := setDeckle s k { deckle s k with programs := tupd (deckle s k).programs (handle % 64) { gen := g.gen, live := false } }
      okReq (dropMeasure (delProt s1 k .program g.base) k 1 handle) r d 0

/-! ### DMA and measured load (R366–R368) -/

/-- DMA from the device to the host: it stops at the first refused byte, and at the first poisoned code word, which halts the
channel. -/
def dmaOut (r : Nat) (s : State) (d : Desc) (src dst n : Nat) : State :=
  let k := d.deckle
  let s1 := reachTouch s k src n
  let rd := reach s1 k .hostDma false src n
  let s2 := segsTouch s1 (viaOf k .hostDma) rd.segs
  match (poisonOffs rd.segs (s2.dram.poison.map (fun c => (c, cwSize c)))).foldl
      (fun (m : Option Nat) o => some (min (m.getD o.1) o.1)) none with
  | some o =>
    let s3 := hostWrite s2 dst ((segsRead s2 rd.segs).take o)
    let fn := ringFn s3 r
    let s4 := match segsPoison s3 rd.segs with
      | some p => raisePoison s3 3 fn (some k) p
      | none => s3
    faultReq (fset s4 .hqiFnSts (r % 2) (r % 2) 1 fn) r d 0x30
  | none =>
    let s3 := hostWrite s2 dst (segsRead s2 rd.segs)
    match rd.bad with
    | some (_, c, p) => localReq s3 r d c p
    | none => okReq s3 r d n

/-- DMA. -/
def dmaReq (r : Nat) (h : HostRead) (s : State) (d : Desc) : State :=
  let (src, dst, n, dir) := (par d 0x10 8, par d 0x18 8, par d 0x20 8, par d 0x28 1)
  if n = 0 || n > 2 ^ 32 || dir > 2 then faultReq s r d 1
  else if dir = 1 then dmaOut r s d src dst n
  else if dir = 2 then
    match moveRange s d.deckle .hostDma src dst n with
    | (s1, _, some (c, p)) => localReq s1 r d c p
    | (s1, _, none) => okReq s1 r d n
  else if hostStatus h != 0 then complete s r d.id (hostStatus h) 0 0
  else match writePrefix s d.deckle dst (hostRead s src n) with
    | (s1, some (c, p)) => localReq s1 r d c p
    | (s1, none) => okReq s1 r d n

/-- MLOAD. -/
def mloadReq (r : Nat) (h : HostRead) (s : State) (d : Desc) : State :=
  let (src, dst, n, obj, fin) := (par d 0x10 8, par d 0x18 8, par d 0x20 8, par d 0x28 8, par d 0x30 1)
  let k := d.deckle
  let gone (s : State) : State := dropObj s k obj (some r)
  if fin > 1 || objElsewhere s k obj (some r) then faultReq (gone s) r d 1
  else if !objRoom s k obj (some r) then faultReq s r d 0x60
  else if hostStatus h != 0 then complete (gone s) r d.id (hostStatus h) 0 0
  else
    let bs := hostRead s src n
    match writePrefix s k dst bs with
    | (s1, some (c, p)) => localReq (gone s1) r d c p
    | (s1, none) =>
      let s2 := extendObj s1 k obj (some r) bs
      if fin = 0 then okReq s2 r d 0
      else match finalObj s2 k obj (some r) with
        | (s3, true) => okReq s3 r d 0
        | (s3, false) => faultReq s3 r d 0x60

/-! ### Contexts (R205–R207) -/

/-- What a context request finds: PERMISSION, CONTEXT_STATE or nothing. -/
def ctxReqCheck (s : State) (d : Desc) : Nat :=
  let c := par d 0x10 2
  if c ≥ 4096 then 3
  else
    let x := ctxOf s c
    if x.state = .idle then 0x61 else if x.deckle != d.deckle then 3 else 0

/-- SUBMIT. -/
def submitReq (r : Nat) (h : HostRead) (s : State) (d : Desc) : State :=
  let c := par d 0x10 2
  let (src, n, g, sp) := (par d 0x18 8, par d 0x20 4, par d 0x24 4, par d 0x28 1)
  let x := ctxOf s c
  if ctxReqCheck s d != 0 then faultReq s r d (ctxReqCheck s d)
  else if sp > 1 || n = 0 || n > 65536 then faultReq s r d 1
  else if n > 2 ^ x.tokcap - x.pendingIn then faultReq s r d 0x60
  else match sourceRead s d.deckle sp src (4 * n) h with
    | (s1, .inr e) => sourceFail s1 r d e
    | (s1, .inl bs) =>
      let cap := 2 ^ x.tokcap
      let at_ := (x.position + x.pendingIn) % cap
      let n1 := min n (cap - at_)
      match writePrefix s1 d.deckle (x.tokbuf + 4 * at_) (bs.take (4 * n1)) with
      | (s2, some (e, p)) => localReq s2 r d e p
      | (s2, none) =>
        match (if n1 = n then (s2, none) else writePrefix s2 d.deckle x.tokbuf (bs.drop (4 * n1))) with
        | (s3, some (e, p)) => localReq s3 r d e p
        | (s3, none) =>
          let s4 := setCtx s3 c { x with
            pendingIn := x.pendingIn + n, genLimit := g, state := if x.state = .resident then .active else x.state }
          okReq (if x.state = .active then s4 else renewReady s4 c) r d 0

/-- CANCEL. -/
def cancelReq (r : Nat) (s : State) (d : Desc) : State :=
  let c := par d 0x10 2
  let x := ctxOf s c
  if ctxReqCheck s d != 0 then faultReq s r d (ctxReqCheck s d)
  else if x.instep then
    setCtx (setDesc s r { d with busy := true }) c { x with cancelLater := x.cancelLater ++ [(r, d.id)], stepStopped := true }
  else okReq (ctxCancel s c) r d 0

/-- DETACH. -/
def detachReq (r : Nat) (s : State) (d : Desc) : State :=
  let c := par d 0x10 2
  let x := ctxOf s c
  if ctxReqCheck s d != 0 then faultReq s r d (ctxReqCheck s d)
  else
    let s1 := setCtx (setDesc s r { d with busy := true }) c { x with detachLater := x.detachLater ++ [(r, d.id)], stepStopped := x.instep }
    ctxSettle s1 c

/-- SETPARAM. -/
def setparamReq (r : Nat) (s : State) (d : Desc) : State :=
  let c := par d 0x10 2
  let x := ctxOf s c
  if ctxReqCheck s d != 0 then faultReq s r d (ctxReqCheck s d)
  else if par d 0x12 1 > 1 then faultReq s r d 1
  else
    let (mode, temp, topp, topk, _) := adjust (par d 0x12 1) (par d 0x14 4) (par d 0x18 4) (par d 0x1C 2) x.chunk
    okReq (setCtx s c { x with
      mode := mode, temp := temp, topp := topp, topk := topk, stops := (List.range 4).map (fun i => par d (0x20 + 4 * i) 4) }) r d 0

/-! ### Models (R224–R226) -/

/-- The segments of a placement table (Table 07.6). -/
def segsOf (n : Nat) (bs : List Byte) : List Seg :=
  (chunksOf 64 n bs).map (fun e => { obj := fieldAt e 0 8, src := fieldAt e 8 8, bytes := fieldAt e 16 8, tier := fieldAt e 0x20 1
                                     rank := fieldAt e 0x22 2 })

/-- Assign addresses to the segments of one fixed tier, in table order: the next free address and the segments; none where they do
not fit. -/
def placeTier (tier lim : Nat) : Nat → List Seg → Option (Nat × List Seg)
  | n, [] => some (n, [])
  | n, g :: gs =>
    if g.tier != tier then (placeTier tier lim n gs).map (fun r => (r.1, g :: r.2))
    else if n + roundUp 65536 g.bytes > lim then none
    else (placeTier tier lim (n + roundUp 65536 g.bytes) gs).map (fun r => (r.1, { g with addr := n } :: r.2))

/-- Put an index into a list ordered by rank, ties in table order. -/
def insertSeg (gs : List Seg) (i : Nat) : List Nat → List Nat
  | [] => [i]
  | e :: es =>
    let rank (k : Nat) : Nat := ((gs[k]?).map (·.rank)).getD 0
    if rank i < rank e then i :: e :: es else e :: insertSeg gs i es

/-- Assign the AUTO segments in the order given. -/
def placeAuto (he le : Nat) : List Nat → Nat → Nat → Bool → List Seg → Option (Nat × Nat × List Seg)
  | [], hn, ln, _, gs => some (hn, ln, gs)
  | i :: is, hn, ln, spill, gs =>
    match gs[i]? with
    | none => none
    | some g =>
      let n := roundUp 65536 g.bytes
      if !spill && decide (hn + n ≤ he) then placeAuto he le is (hn + n) ln false (gs.set i { g with addr := hn })
      else if ln + n > le then none
      else placeAuto he le is hn (ln + n) true (gs.set i { g with addr := ln })

/-- R225: the addresses of every segment, with the ends of the HBM and LPDDR ranges used. -/
def assignSegs (hb hs lb ls : Nat) (gs : List Seg) : Option (Nat × Nat × List Seg) :=
  match placeTier 0 (hb + hs) hb gs with
  | none => none
  | some (hn, g1) => match placeTier 1 (lb + ls) lb g1 with
    | none => none
    | some (ln, g2) =>
      let autos := ((List.range g2.length).filter (fun i => ((g2[i]?).map (·.tier)) == some 2)).foldl
        (fun l i => insertSeg g2 i l) []
      placeAuto (hb + hs) (lb + ls) autos hn ln false g2

/-- The range overlaps a pool of the deckle, or a range of another model. -/
def rangeTaken (s : State) (k m : Nat) (x : Nat × Nat) : Bool :=
  x.2 != 0 && ((poolRanges s k).any (fun p => p.2 != 0 && overlaps p x)
    || (List.range 16).any (fun j =>
      let y := modelOf s k j
      j != m && y.state != .free && (overlaps (y.hbase, y.hsize) x || overlaps (y.lbase, y.lsize) x)))

/-- MODEL_LOAD: the checks of R224 in table order, then the assignment. -/
def modelLoadReq (r : Nat) (s : State) (d : Desc) : State :=
  let k := d.deckle
  let (m, sp, kvb, pt) := (par d 0x10 1, par d 0x11 1, par d 0x14 4, par d 0x18 8)
  let (hb, lb, hs, ls, n) := (par d 0x20 8, par d 0x28 8, par d 0x30 4 * 65536, par d 0x34 4 * 65536, par d 0x38 4)
  if m < 16 && (modelOf s k m).state != .free then faultReq s r d 0x61
  else if m > 15 || kvb = 0 || kvb > 1048576 || n = 0 || n > 65536 || sp > 1 then faultReq s r d 1
  else
    match dkProbe s k .hostDma false pt (64 * n) with
    | (s0, some (c, some p)) => localReq s0 r d c (some p)
    | (s0, some (c, none)) => faultReq s0 r d c
    | (s0, none) =>
      if meetsProt s0 k pt (64 * n) then faultReq s0 r d 3
      else match dkRead s0 k .hostDma pt (64 * n) with
      | (s1, .bad c p) => localReq s1 r d c p
      | (s1, .ok bs) =>
        let es := chunksOf 64 n bs
        let gs := segsOf n bs
        if es.any (fun e => fieldAt e 0x21 1 != 0 || !allZero (sliceB e 0x24 28)) then faultReq s1 r d 1
        else if !(rangeOf s1 k (some false) hb hs && rangeOf s1 k (some true) lb ls) then faultReq s1 r d 3
        else if rangeTaken s1 k m (hb, hs) || rangeTaken s1 k m (lb, ls) then faultReq s1 r d 3
        else if gs.any (fun g => decide (g.tier > 2)) || hb % 65536 != 0 || lb % 65536 != 0
            || gs.any (fun g => g.bytes == 0 || decide (g.bytes > 2 ^ 36)) then faultReq s1 r d 1
        else match assignSegs hb hs lb ls gs with
          | none => faultReq s1 r d 0x60
          | some (hn, ln, out) =>
            setModel (setDesc s1 r { d with busy := true }) k m
              { state := .loading, kvb := kvb, hbytes := hn - hb, lbytes := ln - lb, ptable := pt, segs := out, hbase := hb, hsize := hs
                lbase := lb, lsize := ls, ring := r, desc := d.id, sspace := sp }

/-- Copy the segments of a model in table order, hashing each; the failure that ends the load, if any. -/
def copySegs (k sp : Nat) (h : HostRead) : List Seg → State → List Seg → State × List Seg × Option (Nat × Nat × Option Nat)
  | [], s, acc => (s, acc, none)
  | g :: gs, s, acc =>
    match sourceRead s k sp g.src g.bytes h with
    | (s1, .inr e) => (s1, acc, some e)
    | (s1, .inl bs) =>
      match writePrefix s1 k g.addr bs with
      | (s2, some (c, p)) => (s2, acc, some (5, c, p))
      | (s2, none) => copySegs k sp h gs s2 (acc ++ [{ g with digest := sha256 bs }])

/-- MODEL_LOADED: every copy of a LOADING model has ended. -/
def modelLoadedStep (k m : Nat) (h : HostRead) (s : State) : State :=
  let x := modelOf s k m
  let goes := match findDesc s x.ring x.desc with
    | some d => carries s x.ring d
    | none => true
  if m > 15 || x.state != .loading || !goes then s else
  match copySegs k x.sspace h x.segs s [] with
  | (s1, _, some e) =>
    let s2 := setModel s1 k m {}
    (match findDesc s2 x.ring x.desc with
      | some d => sourceFail s2 x.ring d e
      | none => s2)
  | (s1, gs, none) =>
    let s2 := (tpairs 0 gs).foldl (fun s p => (dkWrite s k .hostDma (x.ptable + 64 * p.1 + 0x18) (leBytes 8 p.2.addr)).1) s1
    let triples := gs.flatMap (fun g => leBytes 8 g.obj ++ leBytes 8 g.bytes ++ g.digest)
    let s3 := addMeasure s2 k ⟨2, m, leBytes 1 m ++ zeros 3 ++ leBytes 4 gs.length ++ zeros 8 ++ sha256 triples⟩
    complete (setModel s3 k m { x with state := .loaded, segs := gs }) x.ring x.desc 0 0 0

/-- MODEL_UNLOAD. -/
def modelUnloadReq (r : Nat) (s : State) (d : Desc) : State :=
  let m := par d 0x10 1
  let x := modelOf s d.deckle m
  if m > 15 then faultReq s r d 1
  else if x.state != .loaded || x.binds != 0 then faultReq s r d 0x61
  else okReq (setModel (dropMeasure s d.deckle 2 m) d.deckle m {}) r d 0

/-! ### Meanings -/

/-- DISPATCH. -/
def execDispatch (ring id : Nat) (s : State) : Res := .next (runReq s ring id 1 (dispatchReq ring))
/-- LOAD. -/
def execLoad (ring id : Nat) (h : HostRead) (s : State) : Res := .next (runReq s ring id 2 (loadReq ring h))
/-- UNLOAD. -/
def execUnload (ring id : Nat) (s : State) : Res := .next (runReq s ring id 3 (unloadReq ring))
/-- DMA. -/
def execDma (ring id : Nat) (h : HostRead) (s : State) : Res := .next (runReq s ring id 4 (dmaReq ring h))
/-- MLOAD. -/
def execMload (ring id : Nat) (h : HostRead) (s : State) : Res := .next (runReq s ring id 5 (mloadReq ring h))
/-- SUBMIT. -/
def execSubmit (ring id : Nat) (h : HostRead) (s : State) : Res := .next (runReq s ring id 0x10 (submitReq ring h))
/-- CANCEL. -/
def execCancel (ring id : Nat) (s : State) : Res := .next (runReq s ring id 0x11 (cancelReq ring))
/-- DETACH. -/
def execDetach (ring id : Nat) (s : State) : Res := .next (runReq s ring id 0x12 (detachReq ring))
/-- SETPARAM. -/
def execSetparam (ring id : Nat) (s : State) : Res := .next (runReq s ring id 0x13 (setparamReq ring))
/-- MODEL_LOAD. -/
def execModelLoad (ring id : Nat) (s : State) : Res := .next (runReq s ring id 0x14 (modelLoadReq ring))
/-- MODEL_LOADED. -/
def execModelLoaded (d m : Nat) (h : HostRead) (s : State) : Res := .next (modelLoadedStep d m h s)
/-- MODEL_UNLOAD. -/
def execModelUnload (ring id : Nat) (s : State) : Res := .next (runReq s ring id 0x15 (modelUnloadReq ring))

end Sys2Proof.Machine
end

