-- ==== Sys2Proof/Machine/Poly.lean ====
section
/-! DEFINITION. The P. instructions and the requests of the polynomial engine (ch. 08, 09). -/

namespace Sys2Proof.Machine

/-! ### Raw transforms (R240) -/

/-- LOGN of P.NTT and P.INTT: the field holds its low four bits, so that 0 and 1 are 16 and 17. -/
def lognOf (w : IWord) : Nat := if optF w 21 18 < 2 then 16 + optF w 21 18 else optF w 21 18

/-- Issue checks of P.NTT and P.INTT. -/
def planNtt (q : Nat) (s : State) (f : Flight) : Issue :=
  let n := 8 * 2 ^ lognOf f.w
  let slot := tget {} (stream s q f.stream).mslots (optF f.w 17 15)
  let (dst, src, tab) := ((f.val 0, n), (f.val 1, n), (f.val 2, n))
  { fault := firstFault [
      if slot.kind = .invalid || (f.val 0 != f.val 1 && overlaps dst src) || overlaps tab dst || overlaps tab src then 1 else 0,
      spadCheck (f.val 0) n 64, spadCheck (f.val 1) n 64, spadCheck (f.val 2) n 64]
    f := { f with part := .beater, spRd := [src, tab], spWr := [dst] } }

/-- R116, R126: an out-of-range result sets the stream's RANGE bit. -/
def noteRange (s : State) (q st : Nat) (ws : List Nat) : State :=
  if ws.any (· == ones64) then fset s .qreBtrSts st st 1 (pOf s q) else s

/-! ### Checks on the Beater work (R121, R243, R244) -/

/-- DUAL of the word; P.GATE and P.LUT do not offer it. -/
def isDual (f : Flight) : Bool := !(f.sub == 6 || f.sub == 7) && bit f.w.low.toNat 22

/-- R244: the comparisons of the `n` destination limbs of an instruction with DUAL.  A cured difference is counted; the answer is the
first limb that differs again. -/
def dualCheck (q : Nat) (f : Flight) (n : Nat) (s : State) : State × Option Nat :=
  if !isDual f || (quire s q).strikes.isEmpty then (s, none) else
  let p := pOf s q
  let hits (again : Bool) : List Nat := (strikesOf (quire s q) .dual again).map (·.1)
  let (once, twice) := (hits false, hits true)
  (List.range n).foldl (fun a i =>
    if a.2.isSome || !once.contains i then a
    else if twice.contains i then (qreError a.1 p 2 0x08, some i)
    else (qreError (fadd a.1 .plyDualCnt 31 0 1 (dkOf a.1 q)) p 0 0x07, none)) (dropStrikes s q .dual, none)

/-- The checks of a P. instruction that gives `n` limbs: its lanes, the stages of its transforms, whose sums are `sums`, and its second
execution.  False where a lane or a stage fails twice; the first limb that the executions leave unequal. -/
def polyChecks (q : Nat) (f : Flight) (logn : Nat) (sums : Nat → Nat) (n : Nat) (s : State) : State × Bool × Option Nat :=
  let (v, s0) := if (quire s q).strikes.isEmpty then (0, s) else takeFree s
  let (s1, lanes) := pathCheck q f .add 1 512 (fun _ => v) s0
  let (s2, stages) := if lanes then pathCheck q f .stage 3 logn sums s1 else (s1, true)
  if !(lanes && stages) then (s2, false, none)
  else
    let (s3, limb) := dualCheck q f n s2
    (s3, true, limb)

/-- P.NTT and P.INTT transform one limb. -/
def nttRun (q : Nat) (inv : Bool) (s : State) (f : Flight) : State :=
  let n := lognOf f.w
  let m := (tget {} (stream s q f.stream).mslots (optF f.w 17 15)).q
  match spadRead s q (f.val 1) (8 * 2 ^ n) with
  | (s1, none) => exFault s1 q f 0x30
  | (s1, some a) =>
    match spadRead s1 q (f.val 2) (8 * 2 ^ n) with
    | (s2, none) => exFault s2 q f 0x30
    | (s2, some t) =>
      let (a, t) := (wordsOf a, wordsOf t)
      let out := if inv then inttRaw m n t a else nttRaw m n t a
      let sums := if inv then inttSums m (montQ m) t.toArray n 1 a else nttSums m (montQ m) t.toArray n 1 a
      match polyChecks q f n (nth 0 sums) 1 s2 with
      | (s3, true, none) => noteRange (spadWrite s3 q (f.val 0) (out.flatMap (leBytes 8))) q f.stream out
      | (s3, _, _) => exFault s3 q f 0x31

/-! ### The execution of a tagged instruction (R245–R247) -/

/-- Why a tagged instruction stops: an access check, or a check that is no part of Table 08.4, before anything is written; a
failed check of Table 08.4; a fault in step 3, which leaves the tag of step 2. -/
inductive PStop where
  | mem (code : Nat) (dpa : Option Nat)
  | bad (code : Nat)
  | late (code : Nat) (dpa : Option Nat)
  deriving DecidableEq, Repr

/-- A computation over the state that may stop. -/
abbrev PM := ExceptT PStop (StateM State)

/-- What a tagged instruction leaves: the final tag with the SERIAL of step 2, and the coefficient words. -/
structure POut where
  tag : Tag
  words : List Nat

/-- R151 on a range. -/
def pProbe (d : Nat) (write : Bool) (a n : Nat) : PM Unit := do
  match dkProbe (← get) d .poly write a n with
  | (s1, none) => set s1
  | (s1, some (c, p)) => set s1; throw (.mem c p)

/-- Read device memory as the polynomial engine, before step 2 or after it. -/
def pRead (d a n : Nat) (late : Bool) : PM (List Byte) := do
  match dkRead (← get) d .poly a n with
  | (s1, .ok b) => set s1; pure b
  | (s1, .bad c p) => set s1; throw (if late then .late c p else .mem c p)

/-- A check of Table 08.4. -/
def pNeed (ok : Bool) (code : Nat) : PM Unit := if ok then pure () else throw (.bad code)

/-- R245: the work area fits above the scratchpad bytes of the program, and in the other quires of a gang above those of the programs
that run there. -/
def areaFits (s : State) (q st g w : Nat) : Bool :=
  if g = q then decide ((programOf s q st).spadBytes + w ≤ spadSize)
  else (List.range 8).all (fun n => (stream s g n).state == .idle || decide ((programOf s g n).spadBytes + w ≤ spadSize))

/-- R245, R263: the work areas of the quires of a gang. -/
def pArea (q st w : Nat) (gang : List Nat) : PM Unit := do
  let s ← get
  if gang.all (fun g => areaFits s q st g w) then pure () else throw (.mem 0x60 none)

/-- The basis a basis ID names, where it is current (R232). -/
def basisAt (s : State) (d id : Nat) : Option BasisSlot :=
  match tfind (polyOf s d).bases (id % 64) with
  | some b => if b.current && b.gen == id / 64 then some b else none
  | none => none

/-- A header says how far its object extends: its tag is sound, and its sizes are ones that an object can have. -/
def extends_ (b : List Byte) : Bool := tagSound b && decide ((readTag b).logn ≤ 17) && decide ((readTag b).level ≤ 63)

/-- The bytes of the object of a header: the object, or the header alone where that says no size. -/
def extent (b : List Byte) : Nat := if !extends_ b then 64 else if (readTag b).kind = 5 then bitSize (readTag b) else tagSize (readTag b)

/-- R151 on the header of a source, and on the object. -/
def pSource (d a : Nat) : PM (List Byte) := do
  pProbe d false a 64
  let b ← pRead d a 64 false
  pProbe d false a (extent b)
  pure b

/-- R151 on another object of `n` bytes, and its first `m` bytes. -/
def pHead (d a n m : Nat) : PM (List Byte) := do
  pProbe d false a n
  pRead d a m false

/-- R151 on the destination, whose size the headers of the sources give. -/
def pDest (d dst size : Nat) (heads : List (List Byte)) : PM Unit := pProbe d true dst (if heads.all extends_ then size else 64)

/-- The tag of an RLWE source, checked as far as Table 08.4 order 1 goes. -/
def pTag (d a : Nat) (b : List Byte) : PM (Tag × BasisSlot) := do
  let t := readTag b
  pNeed (a % 64 == 0 && tagSound b && t.kind != 5) 0x23
  match basisAt (← get) d t.basis with
  | none => throw (.bad 0x23)
  | some x => pure (t, x)

/-- Table 08.4 order 2 for one operand and its basis. -/
def pShape (t : Tag) (b : BasisSlot) : PM Unit :=
  pNeed (t.logn == b.logn && decide (t.level < b.l) && (t.kind % 2 == 1 && b.scheme == 0 || t.kind % 2 == 0 && b.scheme == 1)) 0x22

/-- A destination off its boundary (R234), or one that overlaps a source other than exactly. -/
def pApart (dst dn src sn : Nat) : PM Unit :=
  pNeed (dst % 64 == 0 && (dst == src || !overlaps (dst, dn) (src, sn))) 0x23

/-- Take a SERIAL (R236). -/
def takeSerial (s : State) : Nat × State :=
  let n := s.tagSerial
  (n, { s with tagSerial := if (n + 1) % 2 ^ 32 = 0 then 1 else n + 1 })

/-- Write a tag with the zero bytes that follow it. -/
def writeTag (s : State) (d dst : Nat) (t : Tag) : State := (dkWrite s d .poly dst (tagBytes t ++ zeros 32)).1

/-- R246 step 2: the destination's tag is INVALID with a new SERIAL. -/
def pBegin (d dst : Nat) : PM Nat := do
  let (n, s1) := takeSerial (← get)
  set (writeTag s1 d dst { faultTag with serial := n })
  pure n

/-- A word in ordinary form; out of range it is all ones. -/
def toOrd (q : Nat) (mont : Bool) (w : Nat) : Nat :=
  if w ≥ q then ones64 else if mont then w * invMod q (2 ^ 64 % q) % q else w
/-- A word in the form of a result. -/
def fromOrd (q : Nat) (mont : Bool) (w : Nat) : Nat := if w ≥ q then ones64 else if mont then w * 2 ^ 64 % q else w

/-- The components of a source, each a list of its limbs 0 … `lvl` in ordinary form. -/
def pObj (d a : Nat) (t : Tag) (b : BasisSlot) (lvl : Nat) : PM (List (List (List Nat))) := do
  let bytes ← pRead d a (tagSize t) true
  let n := 2 ^ t.logn
  let limbs := chunksOf n (tagComps t * (t.level + 1)) (wordsOf (bytes.drop 64))
  let comps := chunksOf (t.level + 1) (tagComps t) limbs
  pure (comps.map (fun c => ((c.take (lvl + 1)).zipIdx).map (fun p => p.1.map (toOrd (modAt b p.2) t.mont))))

/-- The coefficient words of a result's components. -/
def pWords (b : BasisSlot) (mont : Bool) (cs : List (List (List Nat))) : List Nat :=
  cs.flatMap (fun c => (c.zipIdx).flatMap (fun p => p.1.map (fromOrd (modAt b p.2) mont)))

/-- Limb by limb over two components. -/
def zipLimbs (b : BasisSlot) (g : Nat → Nat → Nat → Nat) (x y : List (List Nat)) : List (List Nat) :=
  ((x.zip y).zipIdx).map (fun p => List.zipWith (g (modAt b p.2)) p.1.1 p.1.2)

/-- A registered key at an address, of a kind the instruction accepts; `none` where it is not. -/
def keyAt (s : State) (d a : Nat) (kinds : List Nat) : Option PolyKey :=
  (polyOf s d).keys.find? (fun k => k.addr == a && kinds.contains k.kind)

/-- R151 on a key: its first `m` bytes, and the whole object where it is registered. -/
def pKeyHead (d a m : Nat) (kinds : List Nat) : PM (List Byte) := do
  match keyAt (← get) d a kinds with
  | some k => pHead d a k.size m
  | none => pHead d a 128 128

/-! ### Element-wise instructions and P.RESCALE (R248, R249) -/

/-- Saturate a 16-bit estimate. -/
def sat16 (n : Nat) : Nat := min n 0xFFFF

/-- P.ADD (`sub` 8), P.SUB (9), P.MULP (10), P.MULC (11). -/
def pElem (q d : Nat) (f : Flight) : PM POut := do
  let (dst, a, b) := (f.val 0, f.val 1, f.val 2)
  let ct (k : Nat) : Bool := k == 1 || k == 2
  let ha ← pSource d a
  let hb ← pSource d b
  let (ta, tb) := (readTag ha, readTag hb)
  let lvl := min ta.level tb.level
  let comps := if f.sub = 11 then 3 else if ta.deg2 || (ct tb.kind && tb.deg2) then 3 else 2
  let size := 64 + 8 * 2 ^ ta.logn * comps * (lvl + 1)
  pDest d dst size [ha, hb]
  let (t, x) ← pTag d a ha
  let (u, y) ← pTag d b hb
  pNeed (ct t.kind) 0x23
  pNeed (if f.sub = 10 then !ct u.kind else if f.sub = 11 then ct u.kind && !t.deg2 && !u.deg2 else true) 0x23
  let deg2 := comps == 3
  pApart dst size a (tagSize t)
  pApart dst size b (tagSize u)
  pNeed (t.basis == u.basis) 0x22
  pShape t x
  pShape u y
  pNeed (!ct u.kind || t.keyset == u.keyset) 0x21
  pNeed (f.sub < 10 || (t.state == 1 && u.state == 1)) 0x20
  pArea q f.stream 65536 [q]
  let serial ← pBegin d dst
  let A ← pObj d a t x lvl
  let B ← pObj d b u x lvl
  let z : List (List Nat) := (List.range (lvl + 1)).map (fun _ => List.replicate (2 ^ t.logn) 0)
  let at_ (C : List (List (List Nat))) (i : Nat) : List (List Nat) := nth z C i
  let out := match f.sub with
    | 10 => (List.range comps).map (fun i => zipLimbs x mulQ (at_ A i) (at_ B 0))
    | 11 => [zipLimbs x mulQ (at_ A 0) (at_ B 0),
        zipLimbs x addQ (zipLimbs x mulQ (at_ A 0) (at_ B 1)) (zipLimbs x mulQ (at_ A 1) (at_ B 0)),
        zipLimbs x mulQ (at_ A 1) (at_ B 1)]
    | k => (List.range comps).map (fun i => zipLimbs x (if k = 8 then addQ else subQ) (at_ A i) (at_ B i))
  let mul := f.sub ≥ 10
  let noise := match f.sub with
    | 10 => t.noise + u.noise
    | 11 => t.noise + u.noise + 128 * t.logn
    | _ => max t.noise u.noise + 256
  let state := if mul then (if lvl = 0 then 2 else 1) else if t.state = 2 || u.state = 2 then 2 else 1
  pure { tag := { t with level := lvl, state := state, deg2 := deg2, noise := sat16 noise, serial := serial
                         scale := if mul && x.scheme = 0 then sat16 (t.scale + u.scale) else t.scale }
         words := pWords x t.mont out }

/-- P.RESCALE. -/
def pRescale (q d : Nat) (f : Flight) : PM POut := do
  let (dst, a) := (f.val 0, f.val 1)
  let ha ← pSource d a
  let ta := readTag ha
  let size := 64 + 8 * 2 ^ ta.logn * tagComps ta * ta.level
  pDest d dst size [ha]
  let (t, x) ← pTag d a ha
  pNeed (t.kind == 1 || t.kind == 2) 0x23
  pApart dst size a (tagSize t)
  pShape t x
  pNeed (decide (t.level ≥ 1) && t.state == 1) 0x20
  pArea q f.stream (16 * 2 ^ t.logn) [q]
  let serial ← pBegin d dst
  let A ← pObj d a t x t.level
  let lq := log2x256 (modAt x t.level)
  pure { tag := { t with level := t.level - 1, scale := if x.scheme = 0 then t.scale - lq else t.scale, serial := serial
                         noise := sat16 (max (t.noise - lq) (128 * t.logn + 256)) }
         words := pWords x t.mont (A.map (rescaleComp x t.level)) }

/-! ### Key switching (R250, R253–R256) -/

/-- The stored half of digit `i`, limb `j` of a key object, in ordinary form. -/
def storedHalf (b : BasisSlot) (body : Array Nat) (i j : Nat) : List Nat :=
  let n := 2 ^ b.logn
  let o := n * ((b.l + b.k) * i + j)
  (List.range n).map (fun k => toOrd (modAt b j) true (body.getD (o + k) 0))

/-- The halves of a key at an address. -/
def pKeyHalves (d a : Nat) (b : BasisSlot) : PM ((Nat → Nat → List Nat) × (Nat → Nat → List Nat)) := do
  let digits := ceilDiv b.l (max 1 b.alpha)
  let bytes ← pRead d a (128 + 8 * 2 ^ b.logn * digits * (b.l + b.k)) true
  let body := (wordsOf (bytes.drop 128)).toArray
  pure (storedHalf b body, uniformHalf b (readKey bytes).seed)

/-- P.AUTO (`sub` 2) and P.KSW (3). -/
def pSwitch (q d : Nat) (f : Flight) : PM POut := do
  let (dst, a, ka) := (f.val 0, f.val 1, f.val 3)
  let kinds := if f.sub = 2 then [2] else [1, 3]
  let ha ← pSource d a
  let hb ← pKeyHead d ka 128 kinds
  let size := 64 + 8 * 2 ^ (readTag ha).logn * 2 * ((readTag ha).level + 1)
  pDest d dst size [ha]
  let (t, x) ← pTag d a ha
  pNeed (t.kind == 1 || t.kind == 2) 0x23
  match keyAt (← get) d ka kinds with
  | none => throw (.bad 0x23)
  | some k =>
    let h := readKey hb
    pNeed (if k.kind = 1 then t.deg2 else !t.deg2) 0x23
    pApart dst size a (tagSize t)
    pNeed (k.basis == t.basis) 0x22
    pShape t x
    pNeed (h.logn == x.logn && decide (x.k ≥ 1)) 0x22
    pNeed (if k.kind = 3 then t.keyset == h.srcset else t.keyset == h.keyset) 0x21
    pNeed (f.sub != 2 || f.val 2 == h.galois) 0x21
    pArea q f.stream (16 * 2 ^ t.logn) [q]
    let serial ← pBegin d dst
    let A0 ← pObj d a t x t.level
    let (bh, ah) ← pKeyHalves d ka x
    let A := if f.sub = 2 then A0.map (fun c => c.map (autoLimb t.logn (f.val 2))) else A0
    let (u0, u1) := keySwitch x t.level (nth [] A (if k.kind = 1 then 2 else 1)) bh ah
    let c0 := zipLimbs x addQ (nth [] A 0) u0
    let c1 := if k.kind = 1 then zipLimbs x addQ (nth [] A 1) u1 else u1
    pure { tag := { t with deg2 := false, keyset := if k.kind = 3 then h.keyset else t.keyset, serial := serial
                           noise := sat16 (max t.noise h.ksnoise + 256) }
           words := pWords x t.mont [c0, c1] }

/-! ### P.BOOT (R261–R263) -/

/-- The library of the running image: the digest of its PLYLIB section. -/
def libDigest (s : State) : List Byte := ((s.boot.running.map (fun i => nth [] i.digests 2)).getD [])

/-- Field `i` of a library entry, of the width that Table 08.11 gives it. -/
def libField (dig : List Byte) (e i : Nat) : Nat := Config.libField dig e i % 2 ^ nth 64 [16, 8, 8, 8, 8, 8, 8, 16, 16, 64] i

/-- The entry of the library with a SEQ. -/
def libEntry (s : State) (seq : Nat) : Option Nat :=
  (List.range (Config.libCount (libDigest s) % 256)).find? (fun n => libField (libDigest s) n 0 == seq)

/-- The gang of a P.BOOT parameter block, where all of it stands in deckle `d`, with the issuing quire. -/
def gangIn (s : State) (d q : Nat) (pb : List Byte) : Option (List Nat) :=
  let l := setBitsOf 64 (fieldAt pb 8 8)
  if l.all (fun g => deckleOfQuire s g == some d) && l.contains q then some l else none

/-- P.BOOT. -/
def pBoot (q d : Nat) (f : Flight) : PM POut := do
  let (dst, a, pa, ka) := (f.val 0, f.val 1, f.val 2, f.val 3)
  let ha ← pSource d a
  let pb ← pHead d pa 64 64
  let hb ← pKeyHead d ka 136 [5]
  let s ← get
  let gang := fieldAt pb 8 8
  let (sc, sb) := (fieldAt pb 0x10 8, fieldAt pb 0x18 8)
  let dig := libDigest s
  let e := libEntry s (fieldAt pb 4 2)
  let lf (i : Nat) : Nat := libField dig (e.getD 0) i
  let size := 64 + 8 * 2 ^ (readTag ha).logn * 2 * (lf 6 + 1)
  if (setBitsOf 64 gang).any (fun g => deckleOfQuire s g != some d) then throw (.mem 3 none)
  pProbe d true sc sb
  pProbe d false sc sb
  pDest d dst (if e.isSome then size else 64) [ha]
  let k? := keyAt s d ka [5]
  let n := if k?.isSome then fieldAt hb 128 4 else 0
  let mb ← (if n = 0 then pure [] else pRead d (ka + 136) (8 * n) false)
  let members := (wordsOf mb).map (fun m => keyAt s d m [1, 2, 3, 4, 5])
  let heads ← (members.filterMap id).mapM (fun m => pHead d m.addr m.size 128)
  let hs := heads.map readKey
  let (t, x) ← pTag d a ha
  pNeed (t.kind == 1 && !t.deg2) 0x23
  pNeed (fieldAt pb 0 4 == 0x31504251 && fieldAt pb 6 2 == 0 && allZero (sliceB pb 0x20 32) && pa % 64 == 0 && sc % 65536 == 0) 0x23
  pNeed (members.all Option.isSome && e.isSome) 0x23
  match k? with
  | none => throw (.bad 0x23)
  | some k =>
    pNeed (popcount 64 gang == lf 5 && bit gang q) 0x23
    pApart dst size a (tagSize t)
    pNeed (k.basis == t.basis && hs.all (fun h => h.kind == 4 || h.basis == t.basis)) 0x22
    pShape t x
    pNeed (lf 1 == x.logn && lf 2 == x.l && lf 3 == x.k && lf 4 == x.alpha && decide (x.k ≥ 1) && decide (lf 6 < x.l)) 0x22
    pNeed ((readKey hb).keyset == t.keyset && hs.all (fun h => h.keyset == t.keyset) && hs.any (fun h => h.kind == 1)
      && (Config.libGalois dig (e.getD 0)).all (fun g => hs.any (fun h => h.kind == 2 && h.galois == g))) 0x21
    if sb < lf 9 then throw (.mem 0x60 none)
    pArea q f.stream (16 * 2 ^ t.logn) (setBitsOf 64 gang)
    let serial ← pBegin d dst
    let src ← pRead d a (tagSize t) true
    let keys ← (members.filterMap id).mapM (fun m => pRead d m.addr m.size true)
    let lvl := lf 6
    let n2 := 2 ^ t.logn * 2 * (lvl + 1)
    let words := (List.range n2).map (fun i =>
      Config.bootWord dig (e.getD 0) (src.drop 64 ++ keys.flatten) i % modAt x (i / 2 ^ t.logn % (lvl + 1)))
    -- the bytes the sequence leaves in SCRATCH are not stated: free values
    let (v, s1) := takeFree (← get)
    set (dkWrite s1 d .poly sc (leBytes (min sb (lf 9)) v)).1
    pure { tag := { t with level := lvl, state := 1, scale := lf 7, noise := lf 8, serial := serial }, words := words }

/-! ### Encrypted bits (R265, R273–R276) -/

/-- The tag of a bit object, checked against Table 09.1. -/
def pBit (a : Nat) (b : List Byte) : PM Tag := do
  let t := readTag b
  pNeed (a % 64 == 0 && tagSound b && t.kind == 5 && (t.logn == 10 || t.logn == 11) && decide (t.level ≤ 31) && t.state == 1
    && decide (512 ≤ t.basis) && decide (t.basis ≤ 1024) && !t.mont && !t.deg2 && decide (1 ≤ t.scale) && decide (t.scale ≤ 6)) 0x23
  pure t

/-- The ciphertexts of a bit object. -/
def pBits (d a : Nat) (t : Tag) : PM (List (List Nat)) := do
  let b ← pRead d a (bitSize t) true
  pure (chunksOf (t.basis + 1) (t.level + 1) (wordsOf (b.drop 64)))

/-- P.GATE (`sub` 6) and P.LUT (7). -/
def pGates (q d : Nat) (f : Flight) : PM POut := do
  let gate := f.sub == 6
  let (dst, a, b, ka) := (f.val 0, f.val 1, f.val 2, f.val 3)
  let logt := optF f.w 22 20
  let ha ← pSource d a
  let hb ← (if gate then pSource d b else pure ha)
  let tab ← (if gate then pure [] else pHead d b (64 + 2 ^ logt) (64 + 2 ^ logt))
  let kb ← pKeyHead d ka 192 [4]
  let g := readGate kb
  let size := bitSize (readTag ha)
  pDest d dst size [ha]
  let t ← pBit a ha
  let u ← (if gate then pBit b hb else pure t)
  let obits := if gate then 1 else fieldAt tab 5 1
  let entries := (List.range (2 ^ logt)).map (fun e => fieldAt tab (64 + e) 1)
  pNeed (gate || (fieldAt tab 0 4 == 0x31544C51 && fieldAt tab 28 4 == crc32c (sliceB tab 0 28) && fieldAt tab 4 1 == logt
    && decide (1 ≤ obits) && decide (obits ≤ 6) && allZero (sliceB tab 6 22) && allZero (sliceB tab 32 32)
    && entries.all (fun e => decide (e < 2 ^ obits)) && b % 64 == 0)) 0x23
  match keyAt (← get) d ka [4] with
  | none => throw (.bad 0x23)
  | some k =>
    pApart dst size a size
    (if gate then pApart dst size b (bitSize u) else pApart dst size b (64 + 2 ^ logt))
    pNeed (t.logn == g.logn && t.basis == g.n && u.logn == g.logn && u.basis == g.n && t.level == u.level
      && (if gate then t.scale == 1 && u.scale == 1 else t.scale == logt)) 0x22
    pNeed (t.keyset == g.keyset && u.keyset == g.keyset) 0x21
    pArea q f.stream (16 * (t.level + 1) * 2 ^ g.logn) [q]
    let serial ← pBegin d dst
    let A ← pBits d a t
    let B ← (if gate then pBits d b u else pure A)
    let kbytes ← pRead d ka (gateSize g) true
    let words := (chunksOf 8 (kbytes.length / 8) kbytes).toArray
    let tt := optF f.w 22 19
    let tbl := if gate then (List.range 4).map (fun m => bits tt m m) else entries
    let e := if gate then 3 else logt + 2
    let one (p : List Nat × List Nat) : List Nat :=
      if p.1.any (fun x => decide (x ≥ g.q)) || (gate && p.2.any (fun x => decide (x ≥ g.q))) then List.replicate (g.n + 1) ones64
      else
        let ct := if gate then List.zipWith (fun x y => (2 * x + y) % g.q) p.1 p.2 else p.1
        refresh g words e obits tbl ct
    let nin := if gate then max (t.noise + 256) u.noise + 256 else t.noise
    let satIn := t.noise == 0xFFFF || (gate && u.noise == 0xFFFF)
    pure { tag := ⟨5, g.logn, t.level, 1, g.n, false, false, obits, gateNoise k.lq g.outnoise g.msnoise e nin satIn, g.keyset, serial⟩
           words := (A.zip B).flatMap one }

/-! ### The steps around the computation (R246) -/

/-- Count a fault of Table 08.4 in PLY_FLT_CNT. -/
def plyCount (s : State) (d code : Nat) : State :=
  if code = 0x23 then fadd s .plyFltCnt 15 0 1 d
  else if code = 0x22 then fadd s .plyFltCnt 31 16 1 d
  else if code = 0x21 then fadd s .plyFltCnt 47 32 1 d
  else if code = 0x20 then fadd s .plyFltCnt 63 48 1 d
  else s

/-- The bytes at a deckle address as they stand; fewer where it does not translate. -/
def peek (s : State) (d va n : Nat) : List Byte := segsRead s (reach s d .engine false va n).segs

/-- R245, R277: the bytes of the work area: 64 KiB, or 16N of the source as its tag stands. -/
def workOf (s : State) (q : Nat) (f : Flight) : Nat :=
  if f.sub ≥ 8 then 65536
  else
    let b := peek s (dkOf s q) (f.val 1) 64
    if !extends_ b then 0
    else min spadSize (16 * 2 ^ (readTag b).logn * (if (readTag b).kind = 5 then (readTag b).level % 32 + 1 else 1))

/-- The quires whose polynomial engine a tagged instruction uses (R263). -/
def gangOf (s : State) (q : Nat) (f : Flight) : List Nat :=
  if f.sub = 5 then (gangIn s (dkOf s q) q (peek s (dkOf s q) (f.val 2) 64)).getD [q] else [q]

/-- The work areas of `w` bytes are zeroed at the end, where they lie above the scratchpad bytes of the programs (R245). -/
def zeroAreas (q : Nat) (f : Flight) (w : Nat) (gang : List Nat) (s : State) : State :=
  if gang.all (fun g => areaFits s q f.stream g w) then gang.foldl (fun s g => spadWrite s g (spadSize - w) (zeros w)) s else s

/-- The sources of a tagged instruction that have a tag. -/
def sourcesOf (f : Flight) : List Nat := if f.sub = 6 || f.sub ≥ 8 then [f.val 1, f.val 2] else [f.val 1]

/-- R246, the end of step 3 and the steps after it: the coefficient words are checked and written; a source whose tag has changed, or a
destination that another write has reached, gives the fault tag. -/
def tagEnd (q : Nat) (f : Flight) (tags : List (Nat × List Byte)) (s : State) (o : POut) : State :=
  let d := dkOf s q
  let dst := f.val 0
  let n := 2 ^ o.tag.logn
  let put (s : State) (ws : List Nat) : State := (dkWrite s d .poly (dst + 64) (ws.flatMap (leBytes 8))).1
  let (v, s0) := if (quire s q).strikes.isEmpty then (0, s) else takeFree s
  match polyChecks q f (if f.sub ≥ 8 then 0 else o.tag.logn) (fun _ => v) (o.words.length / n) s0 with
  | (s1, false, _) => exFault s1 q f 0x31
  | (s1, true, some i) => exFault (put s1 (o.words.take (i * n))) q f 0x31
  | (s1, true, none) =>
    let s2 := noteRange (put s1 o.words) q f.stream o.words
    if tags.any (fun t => t.1 != dst && peek s2 d t.1 32 != t.2)
        || peek s2 d dst 32 != tagBytes { faultTag with serial := o.tag.serial } then
      plyCount (exFault (writeTag s2 d dst faultTag) q f 0x23) d 0x23
    else dropFlight (writeTag s2 d dst o.tag) q f.stream f.seq

/-- A tagged instruction, and what R246 leaves in every case. -/
def tagged (q : Nat) (g : Nat → Nat → Flight → PM POut) (s : State) (f : Flight) : State :=
  let d := dkOf s q
  let dst := f.val 0
  let tags := (sourcesOf f).map (fun a => (a, peek s d a 32))
  match (do pProbe d true dst 64; g q d f : PM POut).run s with
  | (.error (.mem c p), s1) => memFault s1 q f c p
  | (.error (.bad c), s1) => plyCount (exFault (writeTag s1 d dst faultTag) q f c) d c
  | (.error (.late c p), s1) => memFault s1 q f c p
  | (.ok o, s1) => tagEnd q f tags s1 o

/-- The computation of a tagged instruction by its minor opcode. -/
def polyBody (sub : Nat) : Nat → Nat → Flight → PM POut :=
  match sub with
  | 2 | 3 => pSwitch
  | 4 => pRescale
  | 5 => pBoot
  | 6 | 7 => pGates
  | _ => pElem

/-! ### The engines of the quires (R245, R263) -/

/-- The polynomial engine of quire `g` is held by another instruction that has not ended. -/
def engineHeld (s : State) (g q : Nat) (f : Flight) : Bool :=
  match (quire s g).polyHeld with
  | some (a, b, c) => (a, b, c) != (q, f.stream, f.seq) && (findFlight s a b c).isSome
  | none => false

/-- Another instruction in flight holds a reservation on the work area of quire `g` (R46). -/
def areaBusy (s : State) (g q w : Nat) (f : Flight) : Bool :=
  (quire s g).flights.any (fun h => !(g == q && h.stream == f.stream && h.seq == f.seq) && reserves h
    && rangesMeet [(spadSize - w, w)] h.spRd)

/-- Acquire the engines of quires in ascending order; false at the first that is not free. -/
def takeEngines (q w : Nat) (f : Flight) : List Nat → State → State × Bool
  | [], s => (s, true)
  | g :: gs, s =>
    if engineHeld s g q f || areaBusy s g q w f then (s, false)
    else takeEngines q w f gs (setQuire s g { quire s g with polyHeld := some (q, f.stream, f.seq) })

/-- The engines are free again. -/
def freeEngines (s : State) (gang : List Nat) : State := gang.foldl (fun s g => setQuire s g { quire s g with polyHeld := none }) s

/-- A tagged instruction acts once it has its engines; until then it waits, and holds those it has. -/
def polyAct (q : Nat) (s : State) (f : Flight) : State :=
  let gang := gangOf s q f
  let w := workOf s q f
  match takeEngines q w f gang s with
  | (s1, true) => freeEngines (zeroAreas q f w gang (tagged q (polyBody f.sub) s1 f)) gang
  | (s1, false) => putFlight s1 q { f with phase := .held }

/-- The reservation of the work area. -/
def planPoly (q : Nat) (s : State) (f : Flight) : Issue :=
  let w := workOf s q f
  let r := if w = 0 then [] else [(spadSize - w, w)]
  { fault := if f.sub = 2 && (f.val 2 % 2 == 0 || decide (f.val 2 ≥ 2 ^ 18)) then 1 else 0
    f := { f with part := .beater, spRd := r, spWr := r, mem := [(0, 2 ^ 64)] } }

/-- The word of a tagged instruction. -/
def polyOp (sub : Nat) (w : IWord) (f3 f4 : Slot) : Op :=
  let bitsI := sub == 6 || sub == 7
  { maj := 0x18, sub := sub, f1 := .s, f2 := .s, f3 := f3, f4 := f4, ord := true, effect := true
    opt := if sub = 6 then maskOf 22 19 else if sub = 7 then maskOf 22 20 else maskOf 22 22
    codes := sub != 7 || (optF w 22 20 != 0 && optF w 22 20 != 7)
    gates := (if bitsI then 3 else 2) :: (if !bitsI && optF w 22 22 == 1 then [11] else []) }

/-- The issue of a tagged instruction. -/
def runPoly (s : State) (q st : Nat) (w : IWord) (sub : Nat) (f3 f4 : Slot) : Res :=
  .next (issue s q st w (polyOp sub w f3 f4) (planPoly q) (fun s f => ordered s q f (polyAct q)))

/-- The issue of P.NTT or P.INTT. -/
def runNtt (s : State) (q st : Nat) (w : IWord) (inv : Bool) : Res :=
  .next (issue s q st w
    { maj := 0x18, sub := b2n inv, f1 := .s, f2 := .s, f3 := .s, opt := maskOf 22 15, effect := true
      codes := decide (10 ≤ lognOf w)
      gates := 2 :: (if optF w 22 22 = 1 then [11] else []) }
    (planNtt q) (nttRun q inv))

/-! ### Requests (R231–R233, R258–R260, R270) -/

/-- BASIS_REGISTER. -/
def basisReg (r : Nat) (s : State) (dd : Desc) : State :=
  let d := dd.deckle
  let (rec_, area, size) := (par dd 0x10 8, par dd 0x18 8, par dd 0x20 8)
  let y := polyOf s d
  let isCur (i : Nat) : Bool := ((tfind y.bases i).map (·.current)).getD false
  match (List.range 64).find? (fun i => !isCur i) with
  | none => faultReq s r dd 0x60
  | some i =>
    match dkRead s d .poly rec_ 64 with
    | (s1, .bad c p) => if c = 0x30 then localReq s1 r dd c p else faultReq s1 r dd 3
    | (s1, .ok hdr) =>
      match dkRead s1 d .poly rec_ (64 + 16 * (fieldAt hdr 1 1 + fieldAt hdr 2 1)) with
      | (s2, .bad c p) => if c = 0x30 then localReq s2 r dd c p else faultReq s2 r dd 3
      | (s2, .ok bs) =>
        match (if rec_ % 64 = 0 then parseBasis bs else none) with
        | none => faultReq s2 r dd 1
        | some b =>
          match dkProbe s2 d .engine true area size with
          | (s3, some (0x30, p)) => localReq s3 r dd 0x30 p
          | (s3, some _) => faultReq s3 r dd 3
          | (s3, none) =>
            if area % 65536 != 0 || size < basisAreaMin b.logn b.l b.k || meetsProt s3 d area size then faultReq s3 r dd 3
            else
              let gen := (((tfind y.bases i).map (·.gen)).getD 0 + 1) % 1024
              let s4 := (dkWrite s3 d .engine area (basisArea b)).1
              let s5 := setPoly s4 d { polyOf s4 d with
                bases := tupd (polyOf s4 d).bases i { b with current := true, gen := gen, area := area, areaSize := size } }
              okReq (addProt s5 d { kind := .basis, base := area, len := size }) r dd (i + 64 * gen)

/-- A release waits for the instructions before its release point. -/
def beginRelease (s : State) (d r : Nat) (dd : Desc) (y : Poly) (ranges : List Nat) : State :=
  setPoly (setDesc s r { dd with busy := true }) d { y with releases := y.releases ++ [⟨r, dd.id, ranges⟩] }

/-- BASIS_RELEASE: the basis and every key registered on it become unavailable. -/
def basisRel (r : Nat) (s : State) (dd : Desc) : State :=
  let d := dd.deckle
  let id := par dd 0x10 2
  let y := polyOf s d
  match basisAt s d id with
  | none => faultReq s r dd 0x23
  | some b =>
    let mine (k : PolyKey) : Bool := k.kind != 4 && k.basis == id
    beginRelease s d r dd
      { y with bases := tupd y.bases (id % 64) { b with current := false }, keys := y.keys.filter (fun k => !mine k) }
      (b.area :: (y.keys.filter mine).map (·.addr))

/-- The size a key object of a kind needs (R253, R269). -/
def keySize (bs : List Byte) (kind : Nat) (b : Option BasisSlot) : Nat :=
  if kind = 4 then gateSize (readGate bs)
  else if kind = 5 then 136 + 8 * fieldAt bs 128 4
  else match b with
    | some x => 128 + 8 * 2 ^ x.logn * ceilDiv x.l (max 1 x.alpha) * (x.l + x.k)
    | none => 128

/-- The bytes of a key object that registration reads: its header, a gate key's parameters, or a BOOTSET's members. -/
def keyBytes (s : State) (d a : Nat) : State × Rd :=
  match dkRead s d .poly a 128 with
  | (s1, .ok h) =>
    if !keySound h then (s1, .ok h)
    else if (readKey h).kind = 4 then dkRead s1 d .poly a 192
    else if (readKey h).kind = 5 then
      match dkRead s1 d .poly a 136 with
      | (s2, .ok c) => if fieldAt c 128 4 ≤ 64 then dkRead s2 d .poly a (136 + 8 * fieldAt c 128 4) else (s2, .ok c)
      | r => r
    else (s1, .ok h)
  | r => r

/-- The range checks of a key: every page of it reached, and the table area of a gate key written. -/
def keyProbe (s : State) (d a size : Nat) (table : Option Nat) : State × Option (Nat × Option Nat) :=
  match dkProbe s d .engine false a size with
  | (s1, none) => (match table with
    | some n => dkProbe s1 d .engine true (a + 0xC0) n
    | none => (s1, none))
  | e => e

/-- KEY_REGISTER. -/
def keyReg (r : Nat) (s : State) (dd : Desc) : State :=
  let d := dd.deckle
  let (a, size) := (par dd 0x10 8, par dd 0x18 8)
  let y := polyOf s d
  if y.keys.length ≥ 256 then faultReq s r dd 0x60 else
  match keyBytes s d a with
  | (s1, .bad c p) => if c = 0x30 then localReq s1 r dd c p else faultReq s1 r dd 3
  | (s1, .ok bs) =>
    let h := readKey bs
    let g := readGate bs
    let n := fieldAt bs 128 4
    let setOk := h.kind != 5 || (decide (1 ≤ n) && decide (n ≤ 64) && allZero (sliceB bs 132 4)
      && (wordsOf (bs.drop 136)).all (fun m => y.keys.any (fun k => k.addr == m)))
    let b := basisAt s1 d h.basis
    if a % 64 != 0 || !keySound bs || !allZero (sliceB bs 74 54) || !setOk || (h.kind = 4 && !gateOk bs) then faultReq s1 r dd 0x23
    else if h.kind != 4 && !(match b with
        | some x => x.logn == h.logn && decide (x.k ≥ 1)
        | none => false) then faultReq s1 r dd 0x22
    else match keyProbe s1 d a size (if h.kind = 4 then some (16 * 2 ^ g.logn) else none) with
      | (s2, some (0x30, p)) => localReq s2 r dd 0x30 p
      | (s2, some _) => faultReq s2 r dd 3
      | (s2, none) =>
        if size < keySize bs h.kind b || meetsProt s2 d a size then faultReq s2 r dd 3
        else
          let lq := if h.kind = 4 then log2x256 g.q else 0
          let s3 := if h.kind = 4 then (dkWrite s2 d .engine (a + 0xC0) (gateTables g)).1 else s2
          let s4 := setPoly s3 d { polyOf s3 d with keys := (polyOf s3 d).keys ++ [⟨a, size, h.kind, h.keyset, h.basis, lq⟩] }
          okReq (addProt s4 d { kind := .key, base := a, len := size }) r dd 0

/-- KEY_RELEASE. -/
def keyRel (r : Nat) (s : State) (dd : Desc) : State :=
  let d := dd.deckle
  let a := par dd 0x10 8
  let y := polyOf s d
  if y.keys.any (fun k => k.addr == a) then
    beginRelease s d r dd { y with keys := y.keys.filter (fun k => k.addr != a) } [a]
  else faultReq s r dd 0x23

/-- RELEASE_DRAIN_END: the release request number `n` of a deckle completes, and its ranges return to ordinary use. -/
def drainEnd (d n : Nat) (s : State) : State :=
  let y := polyOf s d
  match y.releases[n]? with
  | none => s
  | some x =>
    let s1 := setPoly s d { y with releases := dropNth y.releases n }
    let s2 := setDeckle s1 d { deckle s1 d with prot := (deckle s1 d).prot.filter (fun p =>
      !((p.kind == .basis || p.kind == .key) && x.ranges.contains p.base)) }
    complete s2 x.ring x.desc 0 0 0

/-! ### Meanings -/

/-- P.NTT. -/
def execPNtt (q st : Nat) (w : IWord) (s : State) : Res := runNtt s q st w false
/-- P.INTT. -/
def execPIntt (q st : Nat) (w : IWord) (s : State) : Res := runNtt s q st w true
/-- P.AUTO. -/
def execPAuto (q st : Nat) (w : IWord) (s : State) : Res := runPoly s q st w 2 .s .s
/-- P.KSW. -/
def execPKsw (q st : Nat) (w : IWord) (s : State) : Res := runPoly s q st w 3 .none .s
/-- P.RESCALE. -/
def execPRescale (q st : Nat) (w : IWord) (s : State) : Res := runPoly s q st w 4 .none .none
/-- P.BOOT. -/
def execPBoot (q st : Nat) (w : IWord) (s : State) : Res := runPoly s q st w 5 .s .s
/-- P.GATE. -/
def execPGate (q st : Nat) (w : IWord) (s : State) : Res := runPoly s q st w 6 .s .s
/-- P.LUT. -/
def execPLut (q st : Nat) (w : IWord) (s : State) : Res := runPoly s q st w 7 .s .s
/-- P.ADD. -/
def execPAdd (q st : Nat) (w : IWord) (s : State) : Res := runPoly s q st w 8 .s .none
/-- P.SUB. -/
def execPSub (q st : Nat) (w : IWord) (s : State) : Res := runPoly s q st w 9 .s .none
/-- P.MULP. -/
def execPMulp (q st : Nat) (w : IWord) (s : State) : Res := runPoly s q st w 10 .s .none
/-- P.MULC. -/
def execPMulc (q st : Nat) (w : IWord) (s : State) : Res := runPoly s q st w 11 .s .none
/-- BASIS_REGISTER. -/
def execBasisRegister (ring id : Nat) (s : State) : Res := .next (runReq s ring id 0x20 (basisReg ring))
/-- BASIS_RELEASE. -/
def execBasisRelease (ring id : Nat) (s : State) : Res := .next (runReq s ring id 0x21 (basisRel ring))
/-- KEY_REGISTER. -/
def execKeyRegister (ring id : Nat) (s : State) : Res := .next (runReq s ring id 0x22 (keyReg ring))
/-- KEY_RELEASE. -/
def execKeyRelease (ring id : Nat) (s : State) : Res := .next (runReq s ring id 0x23 (keyRel ring))
/-- RELEASE_DRAIN_END. -/
def execReleaseDrainEnd (d n : Nat) (s : State) : Res := .next (drainEnd d n s)

end Sys2Proof.Machine
end

