-- ==== Sys2Proof/Machine/Agg.lean ====
section
/-! DEFINITION. The A. instructions and AGG_ABANDON: sessions, admission, seed expansion, staging, finalisation (ch. 10).  An A.
instruction other than A.OPEN and A.FINAL is one step from its admission point to its end; slice updates of different operations
commute (R285, R290). -/

namespace Sys2Proof.Machine

/-! ### Sessions -/

/-- Why an A. instruction stops: a refusal of Table 10.6, a fault of the tag checks, a duplicate, another execution fault, a fault in
the add phase (R291), and a wait for an entry that is PENDING (R296). -/
inductive AStop where
  | rej (reason : Nat)
  | tag (code : Nat)
  | dup
  | mem (code : Nat) (dpa : Option Nat)
  | brk (code : Nat) (dpa : Option Nat)
  | wait
  deriving DecidableEq, Repr

/-- A computation over the state that may stop. -/
abbrev AM := ExceptT AStop (StateM State)

/-- Store a session. -/
def setSession (s : State) (n : Nat) (x : Session) : State := { s with sessions := tupd s.sessions n x }

/-- The element width EB (Table 10.4). -/
def elemBytes (x : Session) : Nat := if x.typ = 0 then 4 else 8
/-- Elements per AES block. -/
def perBlock (x : Session) : Nat := if x.typ = 0 then 4 else if x.typ = 1 then 2 else 1
/-- Round up to 64 KiB. -/
def rnd64 (n : Nat) : Nat := roundUp 65536 n
/-- The bytes of SUM or of a partial sum. -/
def sumBytes (x : Session) : Nat := rnd64 (elemBytes x * x.elements)
/-- Deckle address of the bitmap. -/
def mapBase (x : Session) : Nat := x.area + sumBytes x
/-- Deckle address of seed-log entry `i`. -/
def logAt (x : Session) (i : Nat) : Nat := mapBase x + 2097152 + 48 * i
/-- Deckle address of the STAGE part of transaction slot `k`. -/
def stageAt (x : Session) (k : Nat) : Nat :=
  mapBase x + 2097152 + rnd64 (48 * x.maxid) + k * (sumBytes x + rnd64 (4 * x.txids))
/-- Table 10.2: the bytes the layout needs. -/
def layoutBytes (x : Session) : Nat := stageAt x x.txslots - x.area

/-- The modulus of element `e` (Table 10.4). -/
def elemMod (x : Session) (e : Nat) : Nat :=
  match x.typ with
  | 0 => 2 ^ 32
  | 1 => 2 ^ 64
  | 2 => x.q
  | _ => nth 1 x.mods (e / 2 ^ x.logn % (x.level + 1))

/-- Add, or subtract, elements in the session's arithmetic. -/
def addElems (x : Session) (neg : Bool) (a b : List Nat) : List Nat :=
  ((a.zip b).zipIdx).map (fun p =>
    let m := max 1 (elemMod x p.2)
    if neg then (p.1.1 + m - p.1.2 % m) % m else (p.1.1 + p.1.2 % m) % m)

/-- The elements that bytes hold, and the bytes of elements. -/
def elemsOfBytes (x : Session) (b : List Byte) : List Nat := (chunksOf (elemBytes x) x.elements b).map leNat
/-- The bytes of elements. -/
def bytesOfElems (x : Session) (l : List Nat) : List Byte := l.flatMap (leBytes (elemBytes x))

/-- R292: element `e` of a seeded contribution. -/
def seedElem (x : Session) (ks : List (List Nat)) (e : Nat) : Nat :=
  let p := perBlock x
  let o := aesEnc ks (x.nonce ++ beBytes 8 (e / p * p))
  if x.typ = 2 then leNat o % max 1 x.q else fieldAt o (elemBytes x * (e % p)) (elemBytes x)

/-- Elements `from … from + n - 1` of a seed; those past ELEMENTS are zero. -/
def seedElems (x : Session) (seed : List Byte) (start n : Nat) : List Nat :=
  let ks := aesKeys seed
  (List.range n).map (fun i => if start + i < x.elements then seedElem x ks (start + i) else 0)

/-! ### Accesses -/

/-- Read device memory as an A. instruction; `brk` in the add phase. -/
def aRead (d a n : Nat) (add : Bool) : AM (List Byte) := do
  match dkRead (← get) d .agg a n with
  | (s1, .ok b) => set s1; pure b
  | (s1, .bad c p) => set s1; throw (if add then .brk c p else .mem c p)

/-- Write device memory as an A. instruction. -/
def aWrite (d a : Nat) (b : List Byte) : AM Unit := do
  match dkWrite (← get) d .agg a b with
  | (s1, none) => set s1
  | (s1, some (c, p)) => set s1; throw (.mem c p)

/-- A check of Table 10.6. -/
def aNeed (ok : Bool) (reason : Nat) : AM Unit := if ok then pure () else throw (.rej reason)

/-- The session at an admission point: OPEN, or reason 0x01. -/
def aSession (n : Nat) : AM Session := do
  match tfind (← get).sessions n with
  | some x => if x.state = .opn then pure x else throw (.rej 1)
  | none => throw (.rej 1)

/-- Change the session. -/
def aSet (n : Nat) (x : Session) : AM Unit := do set (setSession (← get) n x)

/-- The bitmap byte of an identity. -/
def mapByte (d : Nat) (x : Session) (i : Nat) : AM Nat := do pure (leNat (← aRead d (mapBase x + i / 8) 1 false))

/-- R289 step 2: test and set the bitmap bit. -/
def admitIdent (d : Nat) (x : Session) (i : Nat) : AM Unit := do
  let b ← mapByte d x i
  if bit b (i % 8) then throw .dup else
  aWrite d (mapBase x + i / 8) [BitVec.ofNat 8 (setBits b (i % 8) (i % 8) 1)]

/-- A seed-log entry (Table 10.7). -/
def logEntry (i st : Nat) (seed tag : List Byte) : List Byte := leBytes 3 i ++ leBytes 1 st ++ fitB 32 seed ++ fitB 12 tag

/-- The IV of an entry (R295). -/
def logIv (x : Session) (i : Nat) : List Byte := leBytes 4 i ++ x.nonce

/-- The lanes' checks in the add phase (R122, R291). -/
def aLanes (q : Nat) (f : Flight) : AM Unit := do
  let s ← get
  if !(quire s q).strikes.isEmpty then
    let (v, s1) := takeFree s
    let r := pathCheck q f .add 1 512 (fun _ => v) s1
    set r.1
    if !r.2 then throw (.brk 0x31 none)

/-- Elements are added to, or subtracted from, the sum at an address. -/
def addInto (q : Nat) (f : Flight) (d : Nat) (x : Session) (base : Nat) (neg : Bool) (b : List Nat) : AM Unit := do
  aLanes q f
  let cur ← aRead d base (elemBytes x * x.elements) true
  aWrite d base (bytesOfElems x (addElems x neg (elemsOfBytes x cur) b))

/-! ### Messages (R286–R288) -/

/-- A message that has passed its checks. -/
structure AMsg where
  ident : Nat
  seeded : Bool
  seed : List Byte
  /-- The tag of an RLWE body. -/
  tag : Option Tag

/-- The bytes of an EXPLICIT body. -/
def bodyBytes (x : Session) : Nat :=
  if x.typ = 3 then 64 + 8 * x.elements else elemBytes x * x.elements

/-- R288 for RLWE: the tag of BODY. -/
def aTag (d : Nat) (x : Session) (va : Nat) : AM Tag := do
  let b ← aRead d va 64 false
  let t := readTag b
  let cur := (basisAt (← get) d t.basis).isSome
  if !(tagSound b && t.kind != 5 && cur) || t.mont || t.deg2 then throw (.tag 0x23)
  else if t.kind != x.ckind || t.basis != x.basis || t.logn != x.logn || t.level != x.level
      || (x.ckind == 1 && t.scale != x.scale) then throw (.tag 0x22)
  else if t.keyset != x.keyset then throw (.tag 0x21)
  else pure t

/-- R288: the checks of Table 10.6 on the message at `va`; `kinds` are the kinds the instruction accepts. -/
def aMessage (d : Nat) (x : Session) (va : Nat) (kinds : List Nat) (b : List Byte) : AM AMsg := do
  let kind := fieldAt b 4 1
  aNeed (fieldAt b 0 4 == 0x31434151 && fieldAt b 0x14 4 == crc32c (sliceB b 0 20 ++ sliceB b 24 40) && fieldAt b 6 2 == 0
    && (kind != 1 || allZero (sliceB b 0x20 32))) 2
  aNeed (kinds.contains kind && (kind != 2 || x.typ != 3)) 3
  aNeed (fieldAt b 5 1 == x.typ) 4
  aNeed (sliceB b 8 8 == x.nonce) 5
  aNeed (decide (fieldAt b 0x10 4 < x.maxid)) 6
  aNeed (fieldAt b 0x18 8 == (if kind = 1 then bodyBytes x else 32)) 7
  let t ← (if x.typ = 3 then some <$> aTag d x (va + 64) else pure none)
  let n := 64 + (if kind = 1 then bodyBytes x else 0)
  aNeed (decide (x.inbox ≤ va) && decide (va + n ≤ x.inbox + x.inboxSize)) 8
  pure ⟨fieldAt b 0x10 4, kind == 2, sliceB b 0x20 32, t⟩

/-- The elements a message contributes, read in the add phase. -/
def aElems (d : Nat) (x : Session) (va : Nat) (m : AMsg) : AM (List Nat) := do
  if m.seeded then pure (seedElems x m.seed 0 x.elements)
  else
    let o := if x.typ = 3 then 128 else 64
    pure (elemsOfBytes x (← aRead d (va + o) (elemBytes x * x.elements) true))

/-- MAGIC is zeroed: the message is consumed (R287). -/
def aConsume (d va : Nat) : AM Unit := aWrite d va (zeros 4)

/-! ### A.INGEST, A.EXPAND, A.STAGE, A.COMMIT, A.ABORT, A.RETRACT -/

/-- A.INGEST (R289). -/
def aIngest (q d n : Nat) (f : Flight) : AM Unit := do
  let va := f.val 1
  let b ← aRead d va 64 false
  let x ← aSession n
  let m ← aMessage d x va [1, 2] b
  admitIdent d x m.ident
  let (c, t) := gcmEnc x.logKey (logIv x m.ident) [] m.seed
  aWrite d (logAt x m.ident) (if m.seeded then logEntry m.ident 1 c (t.take 12) else logEntry m.ident 4 [] [])
  addInto q f d x x.area false (← aElems d x va m)
  if m.seeded then aWrite d (logAt x m.ident + 3) [2#8]
  aConsume d va
  let y := { x with count := x.count + 1 }
  aSet n (match m.tag with
    | some g => { y with maxNoise := max x.maxNoise g.noise, exhausted := x.exhausted || g.state == 2 }
    | none => y)

/-- A.EXPAND (R294). -/
def aExpand (q d n : Nat) (f : Flight) : AM Unit := do
  let va := f.val 1
  let b ← aRead d va 64 false
  let x ← aSession n
  let m ← aMessage d x va [2] b
  aNeed x.expose 0x0E
  set (spadWrite (← get) q (f.val 2) (bytesOfElems x (seedElems x m.seed (f.val 3) (2048 / elemBytes x))))

/-- The open transaction slot that holds an identifier. -/
def slotFor (x : Session) (ident : Nat) : Option (Nat × TxSlot) := x.slots.find? (fun p => p.2.ident == ident)

/-- A.STAGE (R297). -/
def aStage (q d n : Nat) (f : Flight) : AM Unit := do
  let va := f.val 1
  let ident := f.val 2
  let b ← aRead d va 64 false
  let x ← aSession n
  let m ← aMessage d x va [1] b
  aNeed (ident != 0 && x.txslots != 0) 9
  let pick := match slotFor x ident with
    | some (k, t) => some (k, t)
    | none => (tfree x.slots x.txslots).map (fun k => (k, { ident := ident }))
  match pick with
  | none => throw (.mem 0x60 none)
  | some (k, t) =>
    if t.count ≥ x.txids then throw (.mem 0x60 none) else
    admitIdent d x m.ident
    let t1 : TxSlot := { t with
      count := t.count + 1
      noise := max t.noise ((m.tag.map (·.noise)).getD 0)
      exhausted := t.exhausted || (m.tag.map (·.state)).getD 1 == 2 }
    aSet n { x with slots := tupd x.slots k t1 }
    aWrite d (stageAt x k + sumBytes x + 4 * t.count) (leBytes 4 m.ident)
    aWrite d (logAt x m.ident) (logEntry m.ident 5 [] [])
    addInto q f d x (stageAt x k) false (← aElems d x va m)
    aConsume d va

/-- The identities listed in a slot. -/
def slotList (d : Nat) (x : Session) (k : Nat) (t : TxSlot) : AM (List Nat) := do
  pure ((chunksOf 4 t.count (← aRead d (stageAt x k + sumBytes x) (4 * t.count) true)).map leNat)

/-- Zero a slot's partial sum and list, and free it. -/
def slotFree (d n : Nat) (k : Nat) : AM Unit := do
  match tfind (← get).sessions n with
  | none => pure ()
  | some x =>
    aWrite d (stageAt x k) (zeros (sumBytes x + rnd64 (4 * x.txids)))
    aSet n { x with slots := tdel x.slots k }

/-- A.COMMIT (R298). -/
def aCommit (q d n : Nat) (f : Flight) : AM Unit := do
  let x ← aSession n
  match slotFor x (f.val 2) with
  | none => throw (.rej 9)
  | some (k, t) =>
    addInto q f d x x.area false (elemsOfBytes x (← aRead d (stageAt x k) (elemBytes x * x.elements) true))
    let ids ← slotList d x k t
    ids.forM (fun i => aWrite d (logAt x i) (logEntry i 4 [] []))
    aSet n { x with count := x.count + t.count, maxNoise := max x.maxNoise t.noise, exhausted := x.exhausted || t.exhausted }
    slotFree d n k

/-- A.ABORT (R298). -/
def aAbort (d n : Nat) (f : Flight) : AM Unit := do
  let x ← aSession n
  match slotFor x (f.val 2) with
  | none => throw (.rej 9)
  | some (k, t) =>
    let ids ← slotList d x k t
    ids.forM (fun i => do
      let b := leNat (← aRead d (mapBase x + i / 8) 1 true)
      aWrite d (mapBase x + i / 8) [BitVec.ofNat 8 (setBits b (i % 8) (i % 8) 0)]
      aWrite d (logAt x i) (logEntry i 0 [] []))
    slotFree d n k

/-- A.RETRACT (R296). -/
def aRetract (q d n : Nat) (f : Flight) : AM Unit := do
  let i := f.val 1
  let x ← aSession n
  aNeed (decide (i < x.maxid)) 6
  let e ← aRead d (logAt x i) 48 false
  if fieldAt e 3 1 = 1 then throw .wait
  aNeed (fieldAt e 3 1 == 2) 0x0D
  let ct := sliceB e 4 32
  let seed := gcmCrypt (aesKeys x.logKey) (logIv x i) ct
  let tag := (gcmTag (aesKeys x.logKey) (logIv x i) [] ct).take 12
  if tag != sliceB e 36 12 then throw (.mem 0x30 none) else
  aWrite d (logAt x i + 3) [3#8]
  addInto q f d x x.area true (seedElems x seed 0 x.elements)
  aWrite d (logAt x i) (logEntry i 3 [] [])
  aSet n { x with count := x.count - 1, retracted := x.retracted + 1 }

/-! ### The end of an A. instruction -/

/-- A refusal is counted, and its reason stands in LASTREJ (R288). -/
def aggRej (s : State) (n reason : Nat) : State := fset (fadd s .aggSesRej 55 32 1 n) .aggSesRej 63 56 reason n

/-- Run an A. instruction on session `n` to its end. -/
def aRun (q n : Nat) (act : AM Unit) (s : State) (f : Flight) : State :=
  match act.run s with
  | (.ok _, s1) => dropFlight s1 q f.stream f.seq
  | (.error (.rej r), s1) => exFault (aggRej s1 n r) q f 0x71
  | (.error (.tag c), s1) => exFault (aggRej s1 n 2) q f c
  | (.error .dup, s1) => exFault (fadd s1 .aggSesRej 31 0 1 n) q f 0x70
  | (.error (.mem c p), s1) => memFault s1 q f c p
  | (.error .wait, s1) => putFlight s1 q { f with phase := .held }
  | (.error (.brk c p), s1) =>
    let s2 := match tfind s1.sessions n with
      | some x => setSession s1 n { x with state := .broken }
      | none => s1
    -- an admitted message is consumed when its instruction ends (R287)
    let s3 := if f.sub = 1 || f.sub = 3 then (dkWrite s2 (dkOf s2 q) .agg (f.val 1) (zeros 4)).1 else s2
    memFault s3 q f c p

/-! ### A.OPEN (R279–R282) -/

/-- The session that a parameter block describes. -/
def parseSession (d : Nat) (b : List Byte) : Session :=
  { state := .opening, deckle := d, typ := fieldAt b 4 1, noise := bit (fieldAt b 5 1) 0, expose := bit (fieldAt b 5 1) 1
    txslots := fieldAt b 6 1, elements := fieldAt b 8 8, maxid := fieldAt b 0x10 4, txids := fieldAt b 0x14 4
    mincount := fieldAt b 0x18 4, nonce := sliceB b 0x20 8, q := fieldAt b 0x28 8, basis := fieldAt b 0x30 2
    level := fieldAt b 0x32 1, scale := fieldAt b 0x34 2, keyset := fieldAt b 0x38 8, snum := fieldAt b 0x40 8
    sden := fieldAt b 0x48 8, area := fieldAt b 0x50 8, areaSize := fieldAt b 0x58 8, inbox := fieldAt b 0x60 8
    inboxSize := fieldAt b 0x68 8 }

/-- Table 10.1: every field is in range, apart from the primality of Q. -/
def blockOk (b : List Byte) (x : Session) (basis : Option BasisSlot) : Bool :=
  let r := x.typ == 3
  fieldAt b 0 4 == 0x31534151 && decide (x.typ < 4) && decide (fieldAt b 5 1 < 4) && decide (x.txslots ≤ 16) && fieldAt b 7 1 == 0
    && decide (1 ≤ x.elements) && decide (x.elements ≤ 2 ^ 34) && decide (1 ≤ x.maxid) && decide (x.maxid ≤ 2 ^ 24)
    && (if x.txslots = 0 then x.txids == 0 else decide (1 ≤ x.txids) && decide (x.txids ≤ 2 ^ 24))
    && decide (x.mincount ≤ 2 ^ 24) && fieldAt b 0x1C 4 == 0 && fieldAt b 0x33 1 == 0 && fieldAt b 0x36 2 == 0
    && (if x.typ = 2 then decide (3 ≤ x.q) && decide (x.q < 2 ^ 60) else x.q == 0)
    && (match basis with
      | some y => if r then decide (x.level < y.l) && x.elements == 2 * 2 ^ y.logn * (x.level + 1) && (y.scheme == 0 || x.scale == 0)
        else x.basis == 0 && x.level == 0 && x.scale == 0 && x.keyset == 0
      | none => !r && x.basis == 0 && x.level == 0 && x.scale == 0 && x.keyset == 0)
    && (if x.noise then !r && decide (1 ≤ x.snum) && decide (x.snum ≤ 2 ^ 62) && decide (1 ≤ x.sden) && decide (x.sden ≤ 2 ^ 62)
        && decide (x.sden ≤ x.snum) && decide (x.snum ≤ 2 ^ 60 * x.sden)
      else x.snum == 0 && x.sden == 0)
    && !(r && x.expose) && x.area % 65536 == 0 && x.areaSize % 65536 == 0 && x.inbox % 65536 == 0 && x.inboxSize % 65536 == 0
    && decide (65536 ≤ x.inboxSize) && allZero (sliceB b 0x70 16)

/-- A.OPEN: its checks, then the session is taken and its area is zeroed by a zero engine. -/
def openAct (q : Nat) (s : State) (f : Flight) : State :=
  let d := dkOf s q
  match dkRead s d .agg (f.val 1) 128 with
  | (s1, .bad c p) => memFault s1 q f c p
  | (s1, .ok b) =>
    let x0 := parseSession d b
    let basis := if x0.typ = 3 then basisAt s1 d x0.basis else none
    let x := match basis with
      | some y => { x0 with mods := y.mods, logn := y.logn, ckind := if y.scheme = 0 then 1 else 2 }
      | none => x0
    if !blockOk b x basis then exFault s1 q f 0x71
    else if x.typ = 2 && !isPrime64 x.q then exFault s1 q f 0x71
    else match dkProbes d .engine true [(x.area, x.areaSize), (x.inbox, x.inboxSize)] s1 with
      | (s2, some (0x30, p)) => memFault s2 q f 0x30 p
      | (s2, some _) => exFault s2 q f 3
      | (s2, none) =>
        if overlaps (x.area, x.areaSize) (x.inbox, x.inboxSize) || meetsProt s2 d x.area x.areaSize || meetsProt s2 d x.inbox x.inboxSize
        then exFault s2 q f 3
        else if x.areaSize < layoutBytes x then exFault s2 q f 0x60
        else match tfree s2.sessions 64 with
          | none => exFault s2 q f 0x60
          | some n =>
            let s3 := addProt (addProt (setSession s2 n x) d { kind := .session, base := x.area, len := x.areaSize }) d
              { kind := .inbox, base := x.inbox, len := x.inboxSize, rlwe := x.typ == 3 }
            let s4 := putFlight s3 q { f with vals := f.vals ++ [n], phase := .transfer }
            zeroStart s4 { ranges := dpaRanges s4 d x.area x.areaSize, why := 2, arg := n }

/-- The A.OPEN that opens session `n`: its quire and its flight. -/
def opener (s : State) (n : Nat) : Option (Nat × Flight) :=
  (List.range 64).findSome? (fun q =>
    ((quire s q).flights.find? (fun f => f.maj == 0x1C && f.sub == 0 && nth 64 f.vals 6 == n)).map (fun f => (q, f)))

/-- The area of an opening session is zero: A.OPEN waits for its log key, unless its stream no longer runs or no block can come. -/
def openZeroed (n : Nat) (s : State) : State :=
  match opener s n with
  | none => s
  | some (q, f) =>
    if s.rng.failed then settleQuire (exFault (freeSession s n) q f 0x40) q
    else if (stream s q f.stream).state != .running then settleQuire (dropFlight (freeSession s n) q f.stream f.seq) q
    else askBlock (putFlight s q { f with phase := .drawing 1 [] }) 2 { who := .stream q f.stream f.seq }

/-- A.OPEN takes its log key, and its session is OPEN (R282). -/
def openDrawn (q : Nat) (s : State) (f : Flight) (block : List Byte) : State :=
  let n := nth 64 f.vals 6
  match tfind s.sessions n with
  | none => dropFlight s q f.stream f.seq
  | some x =>
    let s1 := setSession s n { x with state := .opn, logKey := if s.fe then [] else block.take 32 }
    let m := leBytes 1 n ++ leBytes 1 x.typ ++ leBytes 1 (b2n x.noise + 2 * b2n x.expose) ++ zeros 5
    wrS (dropFlight (addMeasure s1 x.deckle ⟨4, n, m⟩) q f.stream f.seq) q f.stream f.w.f1.toNat n

/-! ### A.FINAL (R300–R302) -/

/-- A session enters RELEASING: its log key is destroyed and its area and inbox are zeroed (R303). -/
def releaseSession (s : State) (n : Nat) : State :=
  match tfind s.sessions n with
  | none => s
  | some x =>
    let s1 := setSession s n { x with state := .releasing, logKey := [] }
    zeroStart s1 { ranges := dpaRanges s1 x.deckle x.area x.areaSize ++ dpaRanges s1 x.deckle x.inbox x.inboxSize, why := 1, arg := n }

/-- The bytes of the result. -/
def resultBytes (x : Session) : Nat := 64 + bodyBytes x

/-- `ceil (log₂ n)`. -/
def log2ceil (n : Nat) : Nat := if n ≤ 1 then 0 else (n - 1).log2 + 1

/-- The tag of an RLWE result, but for its SERIAL. -/
def resultTag (x : Session) : Tag :=
  { kind := x.ckind, logn := x.logn, level := x.level, state := if x.exhausted then 2 else 1, basis := x.basis, mont := false
    deg2 := false, scale := x.scale
    noise := if x.count = 0 then 0 else min 0xFFFF (x.maxNoise + 256 * log2ceil x.count), keyset := x.keyset, serial := 0 }

/-- The result header (Table 10.8). -/
def resultHeader (x : Session) : List Byte :=
  leBytes 4 0x31524151 ++ leBytes 1 x.typ ++ leBytes 1 (b2n x.noise) ++ zeros 2 ++ leBytes 4 x.count ++ leBytes 4 x.retracted
    ++ leBytes 8 x.elements ++ x.nonce ++ leBytes 8 x.snum ++ leBytes 8 x.sden ++ zeros 16

/-- R302: the draws that 64-byte blocks give, batch by batch of up to 256 elements from 64 KiB each; a batch whose bits do not suffice
gives none, and is drawn again. -/
def noiseDraws (x : Session) (blocks : List (List Byte)) : List Int :=
  if !x.noise then [] else
  (chunksOf 1024 (blocks.length / 1024) blocks).foldl (fun zs c =>
    zs ++ (gaussBatch x.snum x.sden (min 256 (x.elements - zs.length)) (leNat c.flatten, 524288)).getD []) []

/-- The blocks still to be drawn for session `n`, given those that came. -/
def noiseNeed (s : State) (n : Nat) (blocks : List (List Byte)) : Nat :=
  match tfind s.sessions n with
  | some x => if x.noise then 1024 * ceilDiv (x.elements - (noiseDraws x blocks).length) 256 else 0
  | none => 0

/-- R300 steps 4 and 5: the sum with the noise of `blocks` is written, and the session is RELEASING. -/
def finalWrite (q n : Nat) (blocks : List (List Byte)) (s : State) (f : Flight) : State :=
  match tfind s.sessions n with
  | none => dropFlight s q f.stream f.seq
  | some x =>
    let d := x.deckle
    match dkRead s d .agg x.area (elemBytes x * x.elements) with
    | (s1, .bad c p) => memFault (delProt (setSession s1 n { x with state := .broken }) d .aggResult x.dst) q f c p
    | (s1, .ok b) =>
      let sum := elemsOfBytes x b
      let out := if !x.noise then sum else ((sum.zip (noiseDraws x blocks)).zipIdx).map (fun p =>
        wrapMod (elemMod x p.2) ((p.1.1 : Int) + p.1.2))
      let (k, sk) := takeSerial s1
      let s3 := if x.typ = 3 then sk else s1
      let tag := if x.typ = 3 then tagBytes { resultTag x with serial := k } ++ zeros 32 else []
      let s4 := (dkWrite s3 d .agg x.dst (resultHeader x ++ tag ++ bytesOfElems x out)).1
      dropFlight (releaseSession (delProt s4 d .aggResult x.dst) n) q f.stream f.seq
where
  /-- An integer modulo a modulus. -/
  wrapMod (m : Nat) (z : Int) : Nat := (z % ((max 1 m : Nat) : Int)).toNat

/-- The checks of R300 step 1 on the destination, then those at the final point. -/
def finalChecks (d n : Nat) (f : Flight) : AM Session := do
  match tfind (← get).sessions n with
  | none => throw (.rej 1)
  | some y =>
    let len := resultBytes y
    match dkProbe (← get) d .agg true (f.val 1) len with
    | (s1, some (c, p)) => set s1; throw (.mem c p)
    | (s1, none) =>
      set s1
      if meetsProt s1 d (f.val 1) len then throw (.mem 3 none)
      let x ← aSession n
      aNeed (x.slots.isEmpty && decide (x.mincount ≤ x.count)) 0x0C
      pure x

/-- The noise of A.FINAL cannot be drawn: the destination is zeroed, and the session is OPEN again (R300). -/
def finalFailed (q n : Nat) (s : State) (f : Flight) : State :=
  match tfind s.sessions n with
  | none => exFault s q f 0x40
  | some x =>
    let s1 := (dkWrite s x.deckle .agg x.dst (zeros (resultBytes x))).1
    exFault (delProt (setSession s1 n { x with state := .opn }) x.deckle .aggResult x.dst) q f 0x40

/-- A.FINAL passes its final point; with NOISE it waits for 1,024 blocks a batch of 256 elements (R302). -/
def finalAct (q n : Nat) (s : State) (f : Flight) : State :=
  let d := dkOf s q
  match (finalChecks d n f).run s with
  | (.error e, s1) => aRun q n (throw e) s1 f
  | (.ok x, s1) =>
    let s2 := addProt (setSession s1 n { x with state := .finalising, dst := f.val 1 }) d
      { kind := .aggResult, base := f.val 1, len := resultBytes x }
    let g := { f with vals := f.vals ++ [n] }
    if !x.noise then finalWrite q n [] s2 g
    else if s.rng.failed then finalFailed q n s2 g
    else
      askBlock (putFlight s2 q { g with phase := .drawing (noiseNeed s2 n []) [] }) 1 { who := .stream q f.stream f.seq }

/-! ### Issue (R156) -/

/-- The session number of F1. -/
def aNum (f : Flight) : Nat := f.val 0

/-- R601 order 3: the stream's deckle holds the session. -/
def aHeld (s : State) (q n : Nat) : Bool :=
  decide (n < 64) && match tfind s.sessions n with
    | some x => x.deckle == dkOf s q && x.state != .opening
    | none => false

/-- The memory that an A. instruction touches and other instructions may (R173): for A.OPEN, which zeroes the area that its block names,
all; a message with its body; the destination of A.FINAL. -/
def aRanges (s : State) (f : Flight) : List (Nat × Nat) :=
  let body := match tfind s.sessions (aNum f) with
    | some x => bodyBytes x
    | none => 0
  match f.sub with
  | 0 => [(0, 2 ^ 64)]
  | 1 | 2 | 3 | 7 => [(f.val 1, 64 + body)]
  | _ => []

/-- Issue checks of the A. instructions. -/
def planAgg (q : Nat) (s : State) (f : Flight) : Issue :=
  let addr := f.sub ≤ 3 || f.sub == 7
  { fault := firstFault [
      if addr && f.val 1 % 64 != 0 then 1 else 0,
      if f.sub = 6 && f.val 1 ≥ 2 ^ 24 then 1 else 0,
      if 3 ≤ f.sub && f.sub ≤ 5 && f.val 2 ≥ 2 ^ 32 then 1 else 0,
      if f.sub != 0 && !aHeld s q (aNum f) then 3 else 0,
      if f.sub = 2 then spadCheck (f.val 2) 2048 2048 else 0]
    full := f.sub == 2 && expanderFull (quire s q)
    f := { f with
      part := if f.sub = 2 then .expander else .beater
      mem := aRanges s f
      spWr := if f.sub = 2 then [(f.val 2, 2048)] else [] } }

/-- The word of an A. instruction. -/
def aggOp (sub : Nat) (f1 f2 f3 f4 : Slot) : Op :=
  { maj := 0x1C, sub := sub, f1 := f1, f2 := f2, f3 := f3, f4 := f4, ord := true, effect := true
    gates := [if sub = 6 then 5 else 4] }

/-- What an A. instruction does once its order field lets it. -/
def aggAct (q : Nat) (s : State) (f : Flight) : State :=
  let d := dkOf s q
  let n := aNum f
  match f.sub with
  | 0 => openAct q s f
  | 1 => aRun q n (aIngest q d n f) s f
  | 2 => aRun q n (aExpand q d n f) s f
  | 3 => aRun q n (aStage q d n f) s f
  | 4 => aRun q n (aCommit q d n f) s f
  | 5 => aRun q n (aAbort d n f) s f
  | 6 => aRun q n (aRetract q d n f) s f
  | _ => finalAct q n s f

/-- The issue of an A. instruction. -/
def runAgg (s : State) (q st : Nat) (w : IWord) (o : Op) : Res :=
  .next (issue s q st w o (planAgg q) (fun s f => ordered s q f (aggAct q)))

/-! ### Release (R303) -/

/-- AGG_ABANDON. -/
def abandonReq (r : Nat) (s : State) (dd : Desc) : State :=
  let n := par dd 0x10 1
  match tfind s.sessions n with
  | none => faultReq s r dd 3
  | some x =>
    if x.deckle != dd.deckle || x.state == .opening then faultReq s r dd 3
    else if x.state == .opn || x.state == .broken then okReq (releaseSession s n) r dd 0
    else faultReq s r dd 0x71

/-- SESSION_RELEASED: the area and the inbox are zero. -/
def sessionFreed (n : Nat) (s : State) : State :=
  match tfind s.sessions n with
  | none => s
  | some x => if x.state != .releasing || zeroRuns s 1 n then s else dropMeasure (freeSession s n) x.deckle 4 n

/-! ### Meanings -/

/-- A.OPEN. -/
def execAOpen (q st : Nat) (w : IWord) (s : State) : Res := runAgg s q st w (aggOp 0 .sw .s .none .none)
/-- A.INGEST. -/
def execAIngest (q st : Nat) (w : IWord) (s : State) : Res := runAgg s q st w (aggOp 1 .s .s .none .none)
/-- A.EXPAND. -/
def execAExpand (q st : Nat) (w : IWord) (s : State) : Res := runAgg s q st w (aggOp 2 .s .s .s .s)
/-- A.STAGE. -/
def execAStage (q st : Nat) (w : IWord) (s : State) : Res := runAgg s q st w (aggOp 3 .s .s .s .none)
/-- A.COMMIT. -/
def execACommit (q st : Nat) (w : IWord) (s : State) : Res := runAgg s q st w (aggOp 4 .s .none .s .none)
/-- A.ABORT. -/
def execAAbort (q st : Nat) (w : IWord) (s : State) : Res := runAgg s q st w (aggOp 5 .s .none .s .none)
/-- A.RETRACT. -/
def execARetract (q st : Nat) (w : IWord) (s : State) : Res := runAgg s q st w (aggOp 6 .s .s .none .none)
/-- A.FINAL. -/
def execAFinal (q st : Nat) (w : IWord) (s : State) : Res := runAgg s q st w (aggOp 7 .s .s .none .none)
/-- AGG_ABANDON. -/
def execAggAbandon (ring id : Nat) (s : State) : Res := .next (runReq s ring id 0x28 (abandonReq ring))
/-- SESSION_RELEASED. -/
def execSessionReleased (session : Nat) (s : State) : Res := .next (sessionFreed session s)

end Sys2Proof.Machine
end

