-- ==== Sys2Proof/Machine/MemSys.lean ====
section
/-! DEFINITION. The memory system's own commands: translation requests, controller requests, zeroing, patrol scrub, flip mask,
post-package repair (ch. 11). -/

namespace Sys2Proof.Machine

/-! ### Translation tables (R312–R315) -/

/-- The lowest free unit of `u` bytes in the translation area of deckle `d`, above its level-1 table. -/
def freeTable (s : State) (d u : Nat) : Option Nat :=
  let b := xltBase s d
  ((List.range (xltSize s d / u)).find? (fun k =>
    decide (8192 ≤ u * k) && !(deckle s d).tables.any (fun t => overlaps t (b + u * k, u)))).map (fun k => b + u * k)

/-- The device writes a table entry. -/
def putEntry (d : Nat) (s : State) (a v : Nat) : State := memPut s (walkVia d) a (leBytes 8 v)

/-- A table of `u` bytes is taken and zeroed, and `at_` points to it. -/
def newTable (s : State) (d u at_ : Nat) : Option (State × Nat) :=
  (freeTable s d u).map (fun t =>
    let s1 := setDeckle s d { deckle s d with tables := (deckle s d).tables ++ [(t, u)] }
    (putEntry d (memPut s1 (walkVia d) t (zeros u)) at_ (t + 1), t))

/-- Map one page; `none` where the area lacks table space. -/
def mapPage (d : Nat) (big w : Bool) (s : State) (p : Nat × Nat) : Option State := do
  let (va, dpa) := p
  let a1 := l1At s d va
  let (s1, _) ← if bit (entryAt s a1) 0 then some (s, 0) else newTable s d 4096 a1
  let a2 := l2At (entryAt s1 a1) va
  if big then some (putEntry d s1 a2 (dpa + 3 + 4 * b2n w))
  else
    let (s2, _) ← if bit (entryAt s1 a2) 0 then some (s1, 0) else newTable s1 d 256 a2
    some (putEntry d s2 (l3At (entryAt s2 a2) va) (dpa + 1 + 4 * b2n w))

/-- The first obstacle that the walks of a range meet: a page already mapped, or poison. -/
def mapObstacle (s : State) (d va n : Nat) : Option Walk :=
  (List.range (n / 65536)).findSome? (fun i => match walk s d (va + 65536 * i) with
    | .miss => none
    | x => some x)

/-- XLT_MAP (Table 11.3). -/
def xltMapReq (r : Nat) (s : State) (dd : Desc) : State :=
  let d := dd.deckle
  let (va, dpa, n, ps, w) := (par dd 0x10 8, par dd 0x18 8, par dd 0x20 8, par dd 0x28 1, par dd 0x29 1)
  let page := if ps = 0 then 65536 else 2097152
  if !xltOn s d || ps > 1 || w > 1 || n = 0 || va % page != 0 || dpa % page != 0 || n % page != 0 || va + n > 2 ^ 40 then faultReq s r dd 1
  else if !ownsRange s d dpa n || s.dram.mapped.any (fun m => overlaps m (dpa / 65536, n / 65536)) then faultReq s r dd 3
  else
    let s1 := reachTouch s d va n
    match mapObstacle s1 d va n with
    | some (.poison p) => localReq s1 r dd 0x30 (some p)
    | some _ => faultReq s1 r dd 3
    | none =>
      let pages := (List.range (n / page)).map (fun i => (va + page * i, dpa + page * i))
      match pages.foldlM (mapPage d (ps == 1) (w == 1)) s1 with
      | none => faultReq s1 r dd 0x60
      | some s2 => okReq { s2 with dram.mapped := addRange s2.dram.mapped (dpa / 65536) (n / 65536) } r dd 0

/-- The pages that make up a range exactly, each with its DPA and size; the walk that stopped where they do not. -/
def pagesOf (s : State) (d : Nat) : Nat → Nat → Nat → List (Nat × Nat × Nat) ⊕ Walk
  | 0, _, _ => .inr .miss
  | k + 1, va, n =>
    if n = 0 then .inl [] else
    match walk s d va with
    | .hit dpa _ =>
      let big := bit (entryAt s (l2At (entryAt s (l1At s d va)) va)) 1
      let page := if big then 2097152 else 65536
      if va % page != 0 || n < page then .inr .miss
      else match pagesOf s d k (va + page) (n - page) with
        | .inl l => .inl ((va, dpa, page) :: l)
        | .inr x => .inr x
    | x => .inr x

/-- A table whose last entry became invalid is freed, and the entry that led to it becomes invalid. -/
def freeTableAt (s : State) (d t u at_ : Nat) : State :=
  if (List.range (u / 8)).any (fun i => bit (entryAt s (t + 8 * i)) 0) then s
  else putEntry d (setDeckle s d { deckle s d with tables := (deckle s d).tables.filter (fun x => x.1 != t) }) at_ 0

/-- The entry of one page becomes invalid. -/
def unmapPage (d : Nat) (s : State) (p : Nat × Nat × Nat) : State :=
  let (va, _, page) := p
  let a1 := l1At s d va
  let e1 := entryAt s a1
  let a2 := l2At e1 va
  let e2 := entryAt s a2
  let s1 := if page = 65536 then freeTableAt (putEntry d s (l3At e2 va) 0) d (e2 / 256 * 256) 256 a2 else putEntry d s a2 0
  freeTableAt s1 d (e1 / 4096 * 4096) 4096 a1

/-- R315 step 2: the request completes where no X.WAIT or X.BAR still waits on an address translated through a removed entry, and waits
with its descriptor otherwise. -/
def xltDrain (r : Nat) (s : State) (dd : Desc) : State :=
  if s.waits.any (fun w => w.met.isNone && dd.drain.any (fun g => overlaps g (w.dpa, w.width))) then setDesc s r { dd with busy := true }
  else okReq { s with dram.mapped := dd.drain.foldl (fun m g => delRange m (g.1 / 65536) (g.2 / 65536)) s.dram.mapped } r dd 0

/-- XLT_UNMAP (R315): the removal point, then the drain; a request that waits for its drain looks again. -/
def xltUnmapReq (r : Nat) (s : State) (dd : Desc) : State :=
  if dd.busy then xltDrain r s dd else
  let d := dd.deckle
  let (va, n) := (par dd 0x10 8, par dd 0x18 8)
  let s1 := reachTouch s d va n
  match pagesOf s1 d (n / 65536 + 1) va n with
  | .inr (.poison p) => localReq s1 r dd 0x30 (some p)
  | .inr _ => faultReq s1 r dd 1
  | .inl pages =>
    if n = 0 then faultReq s1 r dd 1
    else if meetsProt s1 d va n then faultReq s1 r dd 3
    else xltDrain r (pages.foldl (unmapPage d) s1) { dd with drain := pages.map (·.2) }

/-- The bases of a deckle's translation area and its protection. -/
def xltProt (s : State) (d : Nat) : Prot := { kind := .xlt, base := xltBase s d, len := xltSize s d }

/-- MEM_DCTL.ENABLE written 1 (R313). -/
def xltEnable (d : Nat) (s : State) : State :=
  if xltOn s d then fset s .memDctl 2 2 0 d
  else if deckleExists s d && rget s .memXltSize d ≥ 1 && ownsRange s d (xltBase s d) (xltSize s d) then
    let s1 := addProt (memPut s (walkVia d) (xltBase s d) (zeros 8192)) d (xltProt s d)
    fset (fset s1 .memDctl 0 0 1 d) .memDctl 2 2 0 d
  else fset s .memDctl 2 2 1 d

/-- Some level-1 entry is valid: a page is mapped. -/
def anyMapped (s : State) (d : Nat) : Bool := (List.range 1024).any (fun i => bit (entryAt s (xltBase s d + 8 * i)) 0)

/-- MEM_DCTL.ENABLE written 0 (R313). -/
def xltDisable (d : Nat) (s : State) : State :=
  if !xltOn s d then fset s .memDctl 2 2 0 d
  else if anyMapped s d then fset s .memDctl 2 2 1 d
  else
    let s1 := fset (fset (delProt s d .xlt (xltBase s d)) .memDctl 0 0 0 d) .memDctl 2 2 0 d
    setDeckle s1 d { deckle s1 d with tables := [] }

/-! ### Controllers (R325, R333–R336, R338–R342) -/

/-- CONTROLLER_REQUEST: a request for one code word is served. -/
def serveRequest (dpa : Nat) (r : CtlReq) (s : State) : State :=
  if !dpaExists dpa || !s.boot.ready || !s.power.rails then s else
  let cw := cwBase dpa
  let n := cwSize dpa
  let v : Via := { alloc := false }
  match r with
  | .read => touchRange s v cw n
  | .writeWhole b => memPut s v cw (fitB n b)
  | .writePart o b => if o + b.length ≤ n then memPut s v (cw + o) b else s

/-- ZERO_FILL (R319). -/
def zeroFillStep (f : Nat) (s : State) : State := if inRanges s.dram.fresh f then memZero s (f * 65536) 65536 else s

/-- Code words of a controller's tier that it homes. -/
def cwsOf (c : Nat) : Nat := if c < 8 then 36 * 2 ^ 24 else 31 * 2 ^ 23

/-- The slice writes the line of a code word back, its L1 data merged and its words decoded first (R339). -/
def sliceWriteBack (s : State) (cw : Nat) : State :=
  (s.dram.cache.filter (fun l => l.base == lineOf cw)).foldl (fun s l =>
    modLine (writeBack (sliceRead (l1Merge s l) { l with dirty := true } 0 128) l.base) l (fun x => { x with dirty := false })) s

/-- A scrub finds an uncorrectable code word (R339). -/
def scrubUc (s : State) (cw : Nat) : State :=
  let c := ctlOf cw
  if lineHeld s cw then
    raise (eccLog (sliceWriteBack s cw) cw 4 0) { mkEvent 0 7 c 0x01 (ownerOf s cw) 4 with addr := some cw }
  else raise (eccUc s cw 3 0) { mkEvent 1 7 c 0x02 (ownerOf s cw) with addr := some cw }

/-- The scrub's next code word: errors are corrected in DRAM, whatever the cache holds. -/
def scrubCw (s : State) (cw : Nat) : State :=
  match decodeCw s cw with
  | .clean => s
  | .corrected n => eccCe s cw 2 n true
  | .poisoned => if lineHeld s cw then s else foundPoison s cw
  | .uncorrectable => scrubUc s cw
  | .wild =>
    let (f, s1) := takeFree s
    if f % 2 = 0 then scrubUc s1 cw
    else
      let (v, s2) := takeFree s1
      let bs := leBytes (cwSize cw) v
      let s3 := if lineHeld s cw then { s2 with dram.under := tupd s2.dram.under cw bs }
        else { s2 with dram.data := tputs blankByte s2.dram.data cw bs }
      eccCe s3 cw 2 (if isLp cw then 1 else 1 + f / 2 % 3) true

/-- An upset can strike a cell: its line is held, its check line exists. -/
def cellHeld (s : State) : Cell → Bool
  | .slice d b => s.dram.cache.any (fun l => l.dk == d && l.base == b)
  | .tag _ d b => s.dram.cache.any (fun l => l.dk == d && l.base == b)
  | .l1 p b => s.dram.cache.any (fun l => l.base == b && l.l1.contains p)
  | .check c k => decide (8 ≤ c) && decide (c < 24) && decide (k < 31 * 2 ^ 19)
  | .flit q => decide (q < 64)
  | .handler _ => true

/-- PATROL_SCRUB_READ: upsets that have struck since the last one, then the controller's next code word. -/
def scrubStep (c : Nat) (us : List CellUpset) (s : State) : State :=
  if c ≥ 24 || fget s .memScrubCtl 0 0 = 0 || !s.boot.ready || !s.power.rails then s else
  let sU := handlerUse { s with dram.upsets := s.dram.upsets ++ us.filter (fun u => cellHeld s u.cell) } (.scrubEngine c) 7 2
  let x := ctl sU c
  let cw := scrubDpa c (x.scrubPos % cwsOf c)
  let next := x.scrubPos + 1
  let s0 := setCtl sU c (if next ≥ cwsOf c then { x with scrubPos := 0, passes := x.passes + 1 } else { x with scrubPos := next })
  if isPoison s0 cw || inRanges s0.dram.fresh (cw / 65536) then s0 else scrubCw (dramRead (checkBuffer (checkLine s0 cw) cw) cw (cwSize cw)) cw

/-! ### Zero engines (R320) -/

/-- Granules return to no owner: the granule numbers of MEM_GOWN (Table 11.11). -/
def freeGranules (s : State) (gs : List Nat) : State :=
  { s with dram.owner := s.dram.owner.filter (fun p => !gs.contains p.1) }

/-- The granules of DPA ranges of whole granules. -/
def granulesOf (rs : List (Nat × Nat)) : List Nat := rs.flatMap (fun r => (List.range (r.2 / 2 ^ 30)).map (fun i => granuleOf r.1 + i))

/-- ZERO_REQUEST_END: the engine has zeroed its ranges; the granules of a RECLAIM become free (R478). -/
def zeroEnd (e : Nat) (s : State) : State :=
  if e ≥ 8 then s else
  match tfind s.zeros e with
  | none => s
  | some r =>
    let s0 := handlerUse s (.zeroEngine e) 7 0
    let s1 := zeroFree ((r.ranges.flatMap (staleOf s0)).foldl (fun s g => memZero s g.1 g.2) s0) e
    if r.why = 2 then openZeroed r.arg s1
    else if r.why = 3 then freeGranules s1 (granulesOf r.ranges)
    else s1

/-! ### Post-package repair (R343) -/

/-- The address of a repair request lies on the controller. -/
def pprHere (c a : Nat) : Bool := dpaExists a && ctlOf a == c

/-- MEM_PPR_CMD.GO written 1; `spare` says whether the device reports a spare row for the bank. -/
def pprStart (c : Nat) (spare : Bool) (s : State) : State :=
  let a := fget s .memPprCmd 33 0 c * 64
  let hard := fget s .memPprCmd 60 60 c == 1
  let res (s : State) (k : Nat) : State := fset s .memPprSts 2 1 k c
  if !pprHere c a || (!hard && c ≥ 8) then res s 3
  else if hard then
    let x := ctl s c
    if !spare then raise (res s 2) { mkEvent 2 7 c 0x07 (ownerOf s a) 1 with addr := some a }
    else if x.pendingHard.length ≥ 255 then res s 3
    else
      raise (res (setCtl s c { x with pendingHard := x.pendingHard ++ [a] }) 1)
        { mkEvent 0 7 c 0x06 (ownerOf s a) 1 with addr := some a }
  else
    let s1 := setCtl (fset s .memPprSts 0 0 1 c) c { ctl s c with pprSoft := some a }
    fset s1 .memPprCmd 63 63 1 c

/-- A write of MEM_PPR_CMD with GO. -/
def pprWrite (fn c v : Nat) (spare : Bool) (s : State) : State :=
  if fget s .memPprSts 0 0 c = 1 then s
  else ownWrite s fn .memPprCmd c v (fun s => if bit v 63 then pprStart c spare s else s)

/-- The code words of the row that holds a DPA of an HBM3E controller: 1 KiB of its local addresses. -/
def rowCws (c a : Nat) : List Nat := (List.range 16).map (fun i => scrubDpa c ((a / 1024 * 128 + a % 128) / 64 / 16 * 16 + i))

/-- A soft repair copies a code word into the controller, as a read that takes its errors as its own rule states (Table 17.8), and
writes it back. -/
def rowCw (s : State) (cw : Nat) : State :=
  let under := lineHeld s cw
  let s1 := match decodeCw s cw with
    | .clean => s
    | .poisoned => if under then s else foundPoison s cw
    | .corrected n => eccCe s cw 0 n false
    | .uncorrectable => eccUc s cw 1 1 under
    | .wild => if under then eccUc s cw 1 1 under else eccWild s cw 1 1
  if under then flipAt s1 cw else writeCw s1 cw

/-- SOFT_REPAIR_END. -/
def pprEnd (c : Nat) (spare : Bool) (s : State) : State :=
  match (ctl s c).pprSoft with
  | none => s
  | some a =>
    let s0 := setCtl (fset (fset s .memPprSts 0 0 0 c) .memPprCmd 63 63 0 c) c { ctl s c with pprSoft := none }
    let s1 := if spare then handlerUse ((rowCws c a).foldl rowCw s0) (.rowBuffer c) 7 6 else s0
    raise (fset s1 .memPprSts 2 1 (if spare then 1 else 2) c)
      { mkEvent (if spare then 0 else 2) 7 c (if spare then 0x06 else 0x07) (ownerOf s a) with addr := some a }

/-! ### Meanings -/

/-- XLT_MAP. -/
def execXltMap (ring id : Nat) (s : State) : Res := .next (runReq s ring id 0x30 (xltMapReq ring))
/-- XLT_UNMAP. -/
def execXltUnmap (ring id : Nat) (s : State) : Res := .next (runDrain s ring id 0x31 (xltUnmapReq ring))
/-- CONTROLLER_REQUEST. -/
def execControllerRequest (dpa : Nat) (r : CtlReq) (s : State) : Res := .next (serveRequest dpa r s)
/-- ZERO_FILL. -/
def execZeroFill (frame : Nat) (s : State) : Res := .next (zeroFillStep frame s)
/-- ZERO_REQUEST_END. -/
def execZeroRequestEnd (engine : Nat) (s : State) : Res := .next (zeroEnd engine s)
/-- PATROL_SCRUB_READ. -/
def execPatrolScrubRead (c : Nat) (us : List CellUpset) (s : State) : Res := .next (scrubStep c us s)
/-- TRANSLATION_ENABLE. -/
def execTranslationEnable (fn d : Nat) (value : Word) (s : State) : Res :=
  .next (ownWrite s fn .memDctl d (value.toNat % 2 ^ 32) (fun s => if bit value.toNat 0 then xltEnable d s else s))
/-- TRANSLATION_DISABLE. -/
def execTranslationDisable (fn d : Nat) (value : Word) (s : State) : Res :=
  .next (ownWrite s fn .memDctl d (value.toNat % 2 ^ 32) (fun s => if bit value.toNat 0 then s else xltDisable d s))
/-- FLIP_ARM. -/
def execFlipArm (fn c : Nat) (value : Word) (s : State) : Res := .next (armStep fn .memFlipPos c value.toNat s)
/-- SOFT. -/
def execSoft (fn c : Nat) (value : Word) (s : State) : Res :=
  .next (if bit value.toNat 60 then s else pprWrite fn c value.toNat true s)
/-- HARD. -/
def execHard (fn c : Nat) (r : RepairWrite) (s : State) : Res :=
  .next (if bit r.value.toNat 60 then pprWrite fn c r.value.toNat r.spare s else s)
/-- SOFT_REPAIR_END. -/
def execSoftRepairEnd (c : Nat) (spare : Bool) (s : State) : Res := .next (pprEnd c spare s)

end Sys2Proof.Machine
end

