-- ==== Sys2Proof/Machine/IzkFrame.lean ====
section
/-! DEFINITION. Izkai frames: headers, both layers of encryption, transmission and parsing (R380, R382–R388). -/

namespace Sys2Proof.Machine

/-- A data packet (R384). -/
def isData (op : Nat) : Bool := op == 1 || op == 2 || op == 3 || op == 5
/-- A packet that takes a PSN: data or READ_REQ. -/
def hasPsn (op : Nat) : Bool := isData op || op == 4

/-- Table 13.3. -/
def izkHeader (x : Pkt) : List Byte :=
  leBytes 1 x.ver ++ leBytes 1 x.op ++ leBytes 1 x.flags ++ leBytes 1 x.path ++ leBytes 4 (x.dqpn % 2 ^ 24)
    ++ leBytes 4 (x.psn % 2 ^ 24) ++ leBytes 4 x.msn ++ leBytes 4 x.rkey ++ leBytes 4 x.rsn ++ leBytes 8 x.va ++ leBytes 4 x.offset
    ++ leBytes 2 x.payload.length ++ leBytes 2 0 ++ leBytes 4 x.mlen ++ leBytes 4 x.imm

/-- The Internet checksum of an even number of bytes. -/
def inetSum (bs : List Byte) : Nat :=
  let t := (chunksOf 2 (bs.length / 2 + 1) bs).foldl (fun a c => a + beNat (fitB 2 c)) 0
  let u := t / 65536 + t % 65536
  let v := u / 65536 + u % 65536
  65535 - v

/-- IPv6 header and UDP header in front of a datagram (R382). -/
def ipUdp (tc hop : Nat) (src dst : List Byte) (sport dport : Nat) (body : List Byte) : List Byte :=
  let n := 8 + body.length
  let ip := beBytes 4 (6 * 2 ^ 28 + tc * 2 ^ 20) ++ beBytes 2 n ++ beBytes 1 17 ++ beBytes 1 hop ++ src ++ dst
  let pseudo := src ++ dst ++ beBytes 4 n ++ beBytes 4 17
  let udp (c : Nat) : List Byte := beBytes 2 sport ++ beBytes 2 dport ++ beBytes 2 n ++ beBytes 2 c ++ body
  let c := inetSum (pseudo ++ udp 0 ++ (if body.length % 2 = 1 then [0#8] else []))
  ip ++ udp (if c = 0 then 65535 else c)

/-- ENCAP is IPv6/UDP. -/
def encapIp (s : State) (p : Nat) : Bool := fget s .izkPortCfg 1 1 p == 1
/-- LSEC of a port. -/
def lsec (s : State) (p : Nat) : Bool := fget s .izkPortCfg 6 6 p == 1
/-- The priority of a packet: 1 DATA_PRI, 0 CTRL_PRI (R380). -/
def prioOf (s : State) (p : Nat) (data : Bool) : Nat := if data then fget s .izkPortCfg 18 16 p else fget s .izkPortCfg 21 19 p
/-- The port's IPv6 address. -/
def portIp (s : State) (p : Nat) : List Byte := beBytes 8 (rget s .izkPortIph p) ++ beBytes 8 (rget s .izkPortIpl p)

/-- The outer header, the body and the FCS of a frame. -/
def frameOf (s : State) (p : Nat) (data : Bool) (path : Nat) (entry body : List Byte) : List Byte :=
  let mac := beBytes 6 (fget s .izkPortMac 47 0 p)
  let pri := prioOf s p data
  let tag (vid : Nat) : List Byte := beBytes 2 0x8100 ++ beBytes 2 (pri * 8192 + vid % 4096)
  let f :=
    if encapIp s p then
      let vid := fieldAt entry 16 2
      let hop := fget s .izkPortL3 23 16 p
      let dscp := if data then fget s .izkPortL3 5 0 p else fget s .izkPortL3 13 8 p
      sliceB entry 18 6 ++ mac ++ (if vid % 4096 = 0 then [] else tag vid) ++ beBytes 2 0x86DD
        ++ ipUdp (4 * dscp) (if hop = 0 then 64 else hop) (portIp s p) (sliceB entry 0 16)
          ((fget s .izkPortL3 47 32 p + path) % 65536) (fget s .izkPortCfg 63 48 p) body
    else sliceB entry 0 6 ++ mac ++ tag (fieldAt entry 6 2) ++ beBytes 2 (fget s .izkPortCfg 47 32 p) ++ body
  f ++ leBytes 4 (crcEth f)

/-! ### Transmission -/

/-- The link key slot a port transmits under. -/
def txKey (s : State) (p : Nat) : Option LinkKey := tfind (port s p).keys (fget s .izkPortCfg 7 7 p)
/-- The transport key slot a deckle transmits under. -/
def ptkSlot (s : State) (d : Nat) : Nat := fget s .secPtkCtl 2 2 d

/-- The port may start a packet now: its state, the pause of the priority, and the keys the packet needs. -/
def txReady (s : State) (p : Nat) (x : TxPkt) : Bool :=
  let st := (port s p).state
  !s.fe && (st == .up || (x.pkt.op == 0x20 && st == .negotiate))
    && !bit (port s p).paused (prioOf s p (isData x.pkt.op))
    && (!lsec s p || (match txKey s p with | some k => decide (k.pn < 2 ^ 63) | none => false))
    && (!s.sealed || (match x.deckle with | some d => (tfind (deckle s d).ptk (ptkSlot s d)).isSome | none => true))

/-- The Izkai header, and with ENC the partition security header, encrypted payload and tag (R388). -/
def partBody (s : State) (p : Nat) (x : TxPkt) : State × List Byte :=
  let ver := if x.pkt.op = 0x20 then x.pkt.ver else (port s p).vsel + 1
  match x.deckle with
  | none => (s, izkHeader { x.pkt with ver := ver } ++ x.pkt.payload)
  | some d =>
    if !s.sealed then (s, izkHeader { x.pkt with ver := ver } ++ x.pkt.payload) else
    let slot := ptkSlot s d
    match tfind (deckle s d).ptk slot with
    | none => (s, [])
    | some k =>
      let ctr := tget 0 k.ctrs p
      let h := izkHeader { x.pkt with ver := ver, flags := x.pkt.flags ||| 2 }
      let iv := leBytes 4 x.snode ++ beBytes 8 ctr
      let (ct, t) := gcmEnc k.key iv h x.pkt.payload
      (setDeckle s d { deckle s d with ptk := tupd (deckle s d).ptk slot { k with ctrs := tset 0 k.ctrs p (ctr + 1) } },
        h ++ leBytes 4 x.snode ++ zeros 4 ++ leBytes 8 ctr ++ ct ++ t)

/-- Link encryption of a body (R387). -/
def linkBody (s : State) (p : Nat) (body : List Byte) : State × List Byte :=
  if !lsec s p then (s, body) else
  let slot := fget s .izkPortCfg 7 7 p
  match txKey s p with
  | none => (s, [])
  | some k =>
    let h := leBytes 1 slot ++ zeros 7 ++ leBytes 8 k.pn
    let (ct, t) := gcmEnc k.tx (k.salt ++ beBytes 8 k.pn) h body
    let s1 := setPort s p { port s p with keys := tupd (port s p).keys slot { k with pn := k.pn + 1 } }
    (if k.pn + 1 = 2 ^ 63 then raise s1 (mkEvent 2 8 p 0x07) else s1, h ++ ct ++ t)

/-- Send a packet whose port is ready. -/
def txNow (s : State) (p : Nat) (x : TxPkt) : State :=
  let (s1, b) := partBody s p x
  let (s2, c) := linkBody s1 p b
  emit s2 (.frame p (frameOf s2 p (isData x.pkt.op) x.pkt.path x.entry c))

/-- Send a packet, or let it wait for its port. -/
def txSend (s : State) (p : Nat) (x : TxPkt) : State :=
  if txReady s p x then txNow s p x
  else if (port s p).state == .disabled || s.fe then s
  else setPort s p { port s p with txq := (port s p).txq ++ [x] }

/-- Packets that wait are sent where they now can be. -/
def txFlush (s : State) (p : Nat) : State :=
  let l := (port s p).txq
  l.foldl (fun s x => txSend s p x) (setPort s p { port s p with txq := [] })

/-! ### Reception (R385 steps 1–3) -/

/-- R380: the priority a received frame is classified into. -/
def frameClass (s : State) (p : Nat) (f : List Byte) : Nat :=
  if encapIp s p then
    let o := if beNat (sliceB f 12 2) = 0x8100 then 18 else 14
    let dscp := (beNat (sliceB f o 2) / 64) % 64
    if dscp = fget s .izkPortL3 5 0 p then prioOf s p true
    else if dscp = fget s .izkPortL3 13 8 p then prioOf s p false
    else prioOf s p true
  else beNat (sliceB f 14 2) / 8192

/-- What the outer layers of a frame give: the bytes after the outer header and before the FCS. -/
def outerBody (s : State) (p : Nat) (f : List Byte) : Option (List Byte) :=
  let n := f.length
  if n < 22 || n > 9216 || fieldAt f (n - 4) 4 != crcEth (f.take (n - 4)) then none else
  let g := f.take (n - 4)
  if encapIp s p then
    let o := if beNat (sliceB g 12 2) = 0x8100 then 18 else 14
    let ip := g.drop o
    let udp := ip.drop 40
    let body := udp.drop 8
    if ip.length < 48 || beNat (sliceB g (o - 2) 2) != 0x86DD || (fieldAt ip 0 1) / 16 != 6 || fieldAt ip 6 1 != 17 then none
    else if beNat (sliceB udp 2 2) != fget s .izkPortCfg 63 48 p || beNat (sliceB udp 4 2) != udp.length
        || beNat (sliceB ip 4 2) != udp.length then none
    else if inetSum (sliceB ip 8 32 ++ beBytes 4 udp.length ++ beBytes 4 17 ++ udp ++ (if udp.length % 2 = 1 then [0#8] else [])) != 0 then none
    else some body
  else if beNat (sliceB g 12 2) != 0x8100 || beNat (sliceB g 16 2) != fget s .izkPortCfg 47 32 p then none
  else some (g.drop 18)

/-- R387: a received link-protected body, decrypted under its key slot. -/
def linkOpen (s : State) (p : Nat) (b : List Byte) : State × Option (List Byte) :=
  if !lsec s p then (s, some b) else
  let slot := fieldAt b 0 1 % 2
  let pn := fieldAt b 8 8
  match tfind (port s p).keys slot with
  | none => (s, none)
  | some k =>
    let n := b.length
    if n < 32 || pn < k.seen then (s, none) else
    match gcmDec k.rx (k.salt ++ beBytes 8 pn) (b.take 16) (sliceB b 16 (n - 32)) (b.drop (n - 16)) with
    | none => (s, none)
    | some m => (setPort s p { port s p with keys := tupd (port s p).keys slot { k with seen := pn + 1 } }, some m)

/-- A LAUTH failure: counted; 1,024 of them within 1 s raise LINK_AUTH. -/
def lauth (s : State) (p : Nat) : State :=
  let x := port s p
  let l := (s.tsc :: x.authTimes).take 1024
  let s1 := fadd s .izkPortCnt 47 32 1 p
  if l.length = 1024 && s.tsc - l.getLastD 0 ≤ 100000000 then
    raise (setPort s1 p { x with authTimes := [] }) (mkEvent 2 8 p 0x08)
  else setPort s1 p { x with authTimes := l }

/-- The fields of a received Izkai header. -/
def parseHeader (b : List Byte) : Pkt :=
  { ver := fieldAt b 0 1, op := fieldAt b 1 1, flags := fieldAt b 2 1, path := fieldAt b 3 1, dqpn := fieldAt b 4 3
    psn := fieldAt b 8 3, msn := fieldAt b 12 4, rkey := fieldAt b 16 4, rsn := fieldAt b 20 4, va := fieldAt b 24 8
    offset := fieldAt b 32 4, mlen := fieldAt b 40 4, imm := fieldAt b 44 4 }

/-- R385 step 3: version, operation and length of a packet. -/
def izkHeaderOk (vsel : Nat) (b : List Byte) (x : Pkt) : Bool :=
  let v3 := bit x.flags 1 || x.op == 2 || x.path != 0
  let known := hasPsn x.op || (decide (0x10 ≤ x.op) && decide (x.op ≤ 0x14))
  let n := 48 + (if bit x.flags 1 then 32 else 0) + (if isData x.op then fieldAt b 36 2 else 0)
  decide (48 ≤ b.length) && decide (b.length = n) && decide (x.path < 8)
    && (if x.op = 0x20 then x.ver == 2 || x.ver == 3
        else vsel != 0 && x.ver == vsel + 1 && known && !(v3 && vsel == 1))

/-- R479, R481: the keys of deckle `d` have been destroyed for its removal or reset. -/
def keysGone (s : State) (d : Nat) : Bool :=
  (deckle s d).phase == .erasing || ((deckle s d).phase == .scrubbing && (deckle s d).mek.isNone)

/-- R388: the payload of a packet of deckle `d`; none of a packet that arrives after the destruction of its keys (R481). -/
def partOpen (s : State) (d : Nat) (b : List Byte) (x : Pkt) : Option (List Byte) :=
  let n := b.length
  if keysGone s d then none
  else if !bit x.flags 1 then (if s.sealed then none else some (b.drop 48)) else
  let iv := sliceB b 48 4 ++ beBytes 8 (fieldAt b 56 8)
  (deckle s d).ptk.findSome? (fun k => gcmDec k.2.key iv (b.take 48) (sliceB b 64 (n - 80)) (b.drop (n - 16)))

/-- A partition tag failure (R388). -/
def pauth (s : State) (p d : Nat) : State :=
  let x := deckle s d
  if x.phase = .none || x.ptk.isEmpty then fadd s .izkPortCnt 63 48 1 p
  else
    let s1 := fadd s .izkDkCnt 31 0 1 d
    if (match x.authAt with | some t => decide (s.tsc < t + 1000 * tscUs) | none => false) then s1
    else raise (setDeckle s1 d { x with authAt := some s.tsc }) (mkEvent 0 8 p 0x11 (some d))

end Sys2Proof.Machine
end

