-- ==== Sys2Proof/Machine/IzkQp.lean ====
section
/-! DEFINITION. Queue pairs: completions, errors, the send side, credit (R389–R407). -/

namespace Sys2Proof.Machine

/-! ### Lookups -/

/-- Queue pair `i`. -/
def qpOf (s : State) (i : Nat) : Qp := tget {} s.izk.qps i
/-- Store it. -/
def setQp (s : State) (i : Nat) (q : Qp) : State := { s with izk.qps := tset {} s.izk.qps i q }
/-- Path `k` of a queue pair. -/
def Qp.path (q : Qp) (k : Nat) : Path := tget {} q.paths k
/-- Store it. -/
def Qp.setPath (q : Qp) (k : Nat) (x : Path) : Qp := { q with paths := tset {} q.paths k x }
/-- The QPN of queue pair `i`. -/
def qpnOf (s : State) (i : Nat) : Nat := i + 8192 * (qpOf s i).gen
/-- A queue pair that receives. -/
def receives (q : Qp) : Bool := q.state == .rtr || q.state == .rts
/-- The queue pairs of port `p`. -/
def qpsOfPort (s : State) (p : Nat) : List Nat := (s.izk.qps.filter (fun x => x.2.state != .free && x.2.ctx.port == p)).map (·.1)
/-- Registration `i`. -/
def mrOf (s : State) (i : Nat) : Mr := (tfind s.izk.mrs i).getD { deckle := 0, base := 0, len := 0, rights := 0, gen := 0, rand := 0, live := false }

/-- R397 steps 1–3: the key admits an access of deckle `d` to `[va, va + n)` under right bit `r`, where one is asked. -/
def keyAdmits (s : State) (d key : Nat) (r : Option Nat) (va n : Nat) : Bool :=
  let m := mrOf s (key % 65536)
  m.live && m.ready && !m.revoked && m.deckle == d && m.gen == bits key 23 16 && m.rand == bits key 31 24
    && decide (m.base ≤ va) && decide (va + n ≤ m.base + m.len) && (match r with | some b => bit m.rights b | none => true)

/-- A queue pair sends a packet. -/
def qpSend (s : State) (i : Nat) (x : Pkt) : State :=
  let q := qpOf s i
  txSend s q.ctx.port
    { deckle := some q.deckle, snode := q.ctx.snode, entry := nth [] q.ctx.paths x.path, pkt := { x with dqpn := q.ctx.peer }, qp := some i }

/-- Microseconds of a timer field as TSC units. -/
def rtoOf (s : State) (p : Nat) : Nat := max 1 (fget s .izkPortTmr 9 0 p) * tscUs

/-! ### Completion queues (R395) -/

/-- Read a naturally aligned little-endian word of deckle memory. -/
def wordRead (s : State) (d va n : Nat) : State × Option Nat :=
  match dkRead s d .izkai va n with
  | (s1, .ok b) => (s1, some (leNat b))
  | (s1, .bad _ _) => (s1, none)

/-- Add to a counter word; address 0 names none. -/
def counterAdd (s : State) (d va : Nat) : State :=
  if va = 0 then s else
  match wordRead s d va 8 with
  | (s1, some v) => (dkWrite s1 d .izkai va (leBytes 8 (v + 1))).1
  | (s1, none) => s1

/-- Write one record to completion queue `c` for a queue pair of port `p`. -/
def izkCqWrite (s : State) (p c : Nat) (body : List Byte) : State :=
  match tfind s.izk.cqs c with
  | none => s
  | some x =>
    if x.overrun then s else
    let (s1, h) := wordRead s x.deckle x.head 4
    let x1 := { x with seen := h.getD x.seen }
    let n := 2 ^ x.log
    if subMod (2 ^ 32) x1.pi x1.seen ≥ n then
      raise { s1 with izk.cqs := tupd s1.izk.cqs c { x1 with overrun := true } } (mkEvent 2 8 p 0x10 (some x.deckle))
    else
      let b := setNth body 0x0B (BitVec.ofNat 8 (b2n ((x1.pi / n) % 2 == 0)))
      let (s2, _) := dkWrite s1 x.deckle .izkai (x.base + 32 * (x1.pi % n)) b
      let s3 := counterAdd { s2 with izk.cqs := tupd s2.izk.cqs c { x1 with pi := (x1.pi + 1) % 2 ^ 32 } } x.deckle x.ctr
      if x.irqen then sendMsix s3 (x.deckle + 1) x.vector else s3

/-- A record; BYTES of an entry that did not succeed is a value the spec does not give. -/
def izkRecord (s : State) (i wrid status fault op n imm : Nat) : State × List Byte :=
  let (f, s1) := if status = 0 then (n, s) else takeFree s
  (s1, leBytes 8 wrid ++ leBytes 1 status ++ leBytes 1 fault ++ leBytes 1 op ++ leBytes 1 0 ++ leBytes 4 (qpnOf s i)
    ++ leBytes 4 f ++ leBytes 4 imm ++ zeros 8)

/-- The record of a send entry. -/
def sendRecord (s : State) (i : Nat) (e : List Byte) (status fault : Nat) : State :=
  let (s1, b) := izkRecord s i (fieldAt e 8 8) status fault (fieldAt e 0 1 % 16) (fieldAt e 28 4) 0
  izkCqWrite s1 (qpOf s i).ctx.port (qpOf s i).ctx.scq b

/-! ### Queue entries -/

/-- Bytes of entry `k` of a send queue. -/
def sqEntry (s : State) (i k : Nat) : State × Rd :=
  let q := qpOf s i
  dkRead s q.deckle .izkai (q.ctx.sq + 64 * (k % 2 ^ q.ctx.sqLog)) 64

/-- Bytes of entry `k` of a receive queue. -/
def rqEntry (s : State) (i k : Nat) : State × Rd :=
  let q := qpOf s i
  dkRead s q.deckle .izkai (q.ctx.rq + 32 * (k % 2 ^ q.ctx.rqLog)) 32

/-- The bytes of a read entry; zeros where it cannot be read. -/
def rdBytes (n : Nat) : Rd → List Byte
  | .ok b => b
  | .bad _ _ => zeros n

/-- Receive entry `rsn` is posted. -/
def posted (q : Qp) (rsn : Nat) : Bool :=
  q.ctx.rqLog != 0 && decide (subMod (2 ^ 32) rsn q.rqCi < subMod (2 ^ 32) q.rqPi q.rqCi)

/-! ### Errors (R407) -/

/-- R407 step 2: the first waiting send entry completes: with the status of the error where it caused it, else FLUSHED. -/
def flushSend (i : Nat) (who : Option Nat) (status fault : Nat) (s : State) : State :=
  let q := qpOf s i
  let k := q.sqCi
  let (s1, e) := match q.started.find? (fun x => x.index == k) with
    | some x => (s, x.entry)
    | none => let (s1, r) := sqEntry s i k; (s1, rdBytes 64 r)
  let mine := who == some k
  let st := if mine then status else if q.owes != 0 then q.owes else 1
  let s2 := sendRecord s1 i e st (if mine then fault else 0)
  let q2 := qpOf s2 i
  setQp s2 i { q2 with sqCi := (k + 1) % 2 ^ 32, owes := if mine then q2.owes else 0, started := q2.started.filter (fun x => x.index != k) }

/-- R407 step 3: the first receive entry completes: with LOCAL_PROTECTION and the fault where it is the one at fault. -/
def flushRecv (i : Nat) (who : Option Nat) (fault : Nat) (s : State) : State :=
  let q := qpOf s i
  let k := q.rqCi
  let (s1, r) := rqEntry s i k
  let mine := who == some k
  let (s2, b) := izkRecord s1 i (fieldAt (rdBytes 32 r) 0 8) (if mine then 5 else 1) (if mine then fault else 0) 0x80 0 0
  let s3 := izkCqWrite s2 q.ctx.port q.ctx.rcq b
  setQp s3 i { qpOf s3 i with rqCi := (k + 1) % 2 ^ 32 }

/-- Repeat `f` `n` times. -/
def times (f : State → State) : Nat → State → State
  | 0, s => s
  | n + 1, s => times f n (f s)

/-- Flush what a queue pair in ERROR holds. -/
def flushAll (i : Nat) (send recv : Option Nat) (status fault : Nat) (s : State) : State :=
  let q := qpOf s i
  let s1 := times (flushSend i send status fault) (subMod (2 ^ 32) q.sqPi q.sqCi) s
  let s2 := times (flushRecv i recv fault) (subMod (2 ^ 32) q.rqPi q.rqCi) s1
  let q2 := qpOf s2 i
  setQp s2 i { q2 with sqNext := q2.sqPi, started := [], flushed := true }

/-- Data packets of queue pair `i` that wait for its port are not sent (R407 step 1). -/
def dropData (s : State) (p i : Nat) : State :=
  setPort s p { port s p with txq := (port s p).txq.filter (fun x => !(x.qp == some i && isData x.pkt.op)) }

/-- A queue pair enters ERROR (R407): no further data packets, TERMINATE, the entry at fault, the flushed entries, the messages that end. -/
def qpFail (i status fault : Nat) (send recv : Option Nat) (s : State) : State :=
  let q := qpOf s i
  if !(q.state == .init || receives q) then s else
  let s1 := setQp s i { q with state := .error, cause := status, msgs := [], reads := [], recvDone := [], paths := [] }
  flushAll i send recv status fault (qpSend (dropData s1 q.ctx.port i) i { op := 0x14, rkey := status })

/-- Queue pairs that name an OVERRUN completion queue enter ERROR (R395). -/
def izkSettle : Nat → State → State
  | 0, s => s
  | n + 1, s =>
    let bad (q : Qp) : Bool := (q.state == .init || receives q) && [q.ctx.scq, q.ctx.rcq].any (fun c =>
      match tfind s.izk.cqs c with | some x => x.overrun | none => false)
    match s.izk.qps.find? (fun p => bad p.2) with
    | none => s
    | some p => izkSettle n (qpFail p.1 5 0 none none s)

/-- The entry a message number belongs to. -/
def entryOfMsn (q : Qp) (msn : Nat) : Option SendEnt := q.started.find? (fun e => e.msn == msn)

/-! ### Send completion (R396) -/

/-- Every packet an entry sent has been acknowledged, or every response byte performed. -/
def entryDone (q : Qp) (e : SendEnt) : Bool :=
  if fieldAt e.entry 0 1 = 4 then e.answered && e.placed == fieldAt e.entry 28 4
  else e.unsent.isEmpty && !q.paths.any (fun p => p.2.unacked.any (fun x => x.op != 5 && x.msn == e.msn))

/-- Send entries complete in queue order. -/
def settleSends (i : Nat) : Nat → State → State
  | 0, s => s
  | n + 1, s =>
    let q := qpOf s i
    match q.started with
    | [] => s
    | e :: es =>
      if !entryDone q e then s else
      let s1 := setQp s i { q with started := es, sqCi := (e.index + 1) % 2 ^ 32 }
      settleSends i n (if bit (fieldAt e.entry 1 1) 0 then sendRecord s1 i e.entry 0 0 else s1)

/-- READ responses that have been transmitted and acknowledged end. -/
def settleReads (s : State) (i : Nat) : State :=
  let q := qpOf s i
  setQp s i { q with reads := q.reads.filter (fun r =>
    !r.unsent.isEmpty || q.paths.any (fun p => p.2.unacked.any (fun x => x.op == 5 && x.msn == r.msn))) }

/-! ### Sending (R399, R401, R402, R404) -/

/-- The next packet a queue pair has to send. -/
def nextTx (q : Qp) : Option Pkt :=
  match q.started.findSome? (fun e => e.unsent.head?) with
  | some x => some x
  | none => q.reads.findSome? (fun r => r.unsent.head?)

/-- The queue pair without its next packet. -/
def dropTx (q : Qp) : Qp :=
  match findIx (fun (e : SendEnt) => !e.unsent.isEmpty) q.started with
  | some k => { q with started := q.started.zipIdx.map (fun (e, j) => if j = k then { e with unsent := e.unsent.drop 1 } else e) }
  | none =>
    match findIx (fun (e : ReadOut) => !e.unsent.isEmpty) q.reads with
    | some k => { q with reads := q.reads.zipIdx.map (fun (e, j) => if j = k then { e with unsent := e.unsent.drop 1 } else e) }
    | none => q

/-- Packets a queue pair has still to send that need credit. -/
def backlog (q : Qp) : Nat :=
  q.started.foldl (fun n e => n + (e.unsent.filter (fun x => isData x.op)).length) 0 + q.reads.foldl (fun n r => n + r.unsent.length) 0

/-- R399: one more data packet may be sent. -/
def hasCredit (q : Qp) : Bool :=
  let k := subMod (2 ^ 24) q.limit q.sent
  decide (1 ≤ k) && decide (k < 2 ^ 23)

/-- The path of the next packet (R404). -/
def nextPath (q : Qp) : Option Nat :=
  ((List.range q.ctx.npaths).map (fun j => (q.turn + j) % q.ctx.npaths)).find? (fun k =>
    decide ((q.path k).unacked.length < 64) && !(q.path k).rnrWait)

/-- A sender short of credit asks for its backlog, at most once per RTO. -/
def askCredit (s : State) (i : Nat) : State :=
  let q := qpOf s i
  if (match q.askedAt with | some t => decide (s.tsc < t + rtoOf s q.ctx.port) | none => false) then s
  else qpSend (setQp s i { q with askedAt := some s.tsc }) i { op := 0x13, msn := backlog q }

/-- Send while packets, credit, a path and the port allow. -/
def pump (i : Nat) : Nat → State → State
  | 0, s => s
  | n + 1, s =>
    let q := qpOf s i
    match nextTx q with
    | none => s
    | some x =>
      if !receives q || (port s q.ctx.port).state != .up then s
      else if isData x.op && !hasCredit q then askCredit s i
      else match nextPath q with
        | none => s
        | some k =>
          let y := { x with path := k, psn := (q.path k).nextPsn }
          let z := { y with flags := y.flags ||| (if bit y.flags 0 || y.psn % 32 = 31 then 4 else 0) }
          let t : TxPkt := { deckle := some q.deckle, snode := q.ctx.snode, entry := nth [] q.ctx.paths k, pkt := z, qp := some i }
          if !txReady s q.ctx.port t then s else
          let q1 := dropTx q
          let q2 := q1.setPath k { q1.path k with nextPsn := (z.psn + 1) % 2 ^ 24, unacked := (q1.path k).unacked ++ [z] }
          let q3 := { q2 with turn := (k + 1) % q.ctx.npaths, sent := if isData x.op then q2.sent + 1 else q2.sent }
          pump i n (qpSend (setQp s i q3) i z)

/-- Every path of a queue pair can hold 64 packets. -/
def pumpMax : Nat := 513

/-- After something has unblocked a queue pair. -/
def wake (s : State) (i : Nat) : State := pump i pumpMax s
/-- After something has unblocked a port. -/
def wakePort (s : State) (p : Nat) : State := (qpsOfPort s p).foldl wake (txFlush s p)

/-- Retransmit a path from its oldest unacknowledged packet (R402). -/
def resend (s : State) (i k : Nat) : State :=
  let l := ((qpOf s i).path k).unacked
  l.foldl (fun s x => qpSend s i x) (fadd s .izkPortCnt2 31 0 l.length (qpOf s i).ctx.port)

/-- The expected PSN and the credit limit of an ACK or NAK are taken (R401, R399). -/
def takeAck (s : State) (i : Nat) (x : Pkt) : State :=
  let q := qpOf s i
  let w := q.path x.path
  let rest := w.unacked.filter (fun y => !decide (1 ≤ subMod (2 ^ 24) x.psn y.psn ∧ subMod (2 ^ 24) x.psn y.psn < 2 ^ 23))
  let moved := rest.length != w.unacked.length
  let q1 := q.setPath x.path { w with unacked := rest, retries := if moved then 0 else w.retries }
  let cl := x.msn % 2 ^ 24
  let up := subMod (2 ^ 24) cl q.limit
  let more := decide (1 ≤ up) && decide (up < 2 ^ 23)
  let q2 := { q1 with
    limit := if more then cl else q1.limit
    started := if moved then q1.started.map (fun e => if (w.unacked.any (fun y => y.msn == e.msn)) then { e with rnr := 0 } else e) else q1.started }
  settleReads (settleSends i (q.started.length + 1) (setQp s i q2)) i

/-! ### Credit granting (R399) -/

/-- Credit granted on a port and not yet received, and the sum of INIT_CREDIT of its queue pairs. -/
def outstanding (s : State) (p : Nat) : Nat × Nat :=
  (qpsOfPort s p).foldl (fun a i =>
    let q := qpOf s i
    if receives q then (a.1 + subMod (2 ^ 24) q.granted q.got, a.2 + q.ctx.initCredit) else a) (0, 0)

/-- Blocks of 16 packets go round-robin to the queue pairs that want credit, while the window lasts. -/
def grantCredit (p : Nat) : Nat → State → State
  | 0, s => s
  | n + 1, s =>
    let l := (qpsOfPort s p).filter (fun i => receives (qpOf s i) && (qpOf s i).wanted != 0)
    let (o, init) := outstanding s p
    let x := port s p
    let next := match l.find? (fun i => decide (i ≥ x.creditTurn)) with | some i => some i | none => l.head?
    match next with
    | none => s
    | some i =>
      if o + 16 > init + max 16 (fget s .izkPortGrant 15 0 p) then s else
      let q := qpOf s i
      let q1 := { q with wanted := q.wanted - 16, granted := (q.granted + 16) % 2 ^ 24 }
      let s1 := setQp (setPort s p { x with creditTurn := i + 1 }) i q1
      grantCredit p n (qpSend s1 i { op := 0x12, msn := q1.granted })

end Sys2Proof.Machine
end

