-- ==== Sys2Proof/Machine/Izkai.lean ====
section
/-! DEFINITION. Izkai ports, received packets, queue-pair events and the deckle's Izkai commands (ch. 13). -/

namespace Sys2Proof.Machine

/-! ### Ports (R377–R381, R386) -/

/-- Every queue pair of a port enters ERROR. -/
def failPort (s : State) (p status : Nat) : State :=
  izkSettle 8193 ((qpsOfPort s p).foldl (fun s i => qpFail i status 0 none none s) s)

/-- R378: the configuration of a port is acceptable. -/
def portAcceptable (s : State) (p : Nat) : Bool :=
  let f (hi lo : Nat) : Nat := fget s .izkPortCfg hi lo p
  let et := f 47 32
  let outer := if f 1 1 = 0 then decide (et ≥ 0x600) && !([0x8100, 0x88A8, 0x8808, 0x86DD].contains et)
    else f 63 48 != 0 && (rget s .izkPortIph p != 0 || rget s .izkPortIpl p != 0)
  outer && (f 2 2 == 1 || f 3 3 == 1) && (!s.sealed || (f 6 6 == 1 && f 3 3 == 1 && (txKey s p).isSome))

/-- ENABLE written 1. -/
def portOn (p : Nat) (s : State) : State :=
  if (port s p).state != .disabled then fset s .izkPortCfg 22 22 0 p
  else if portAcceptable s p then
    setPort (fset (fset s .izkPortCfg 0 0 1 p) .izkPortCfg 22 22 0 p) p { port s p with state := .training }
  else fset s .izkPortCfg 22 22 1 p

/-- ENABLE written 0. -/
def portOff (p : Nat) (s : State) : State :=
  let x := port s p
  let s1 := fset (fset s .izkPortCfg 0 0 0 p) .izkPortCfg 22 22 0 p
  let s2 := setPort s1 p { keys := x.keys, authTimes := x.authTimes, creditTurn := x.creditTurn }
  failPort (if x.state == .up then raise s2 (mkEvent 2 8 p 0x02) else s2) p 1

/-- R376: the widest sound width within MAXW: its code and lanes. -/
def widthOf (maxw sound : Nat) : Option (Nat × Nat) :=
  ([(0, 0xFF), (1, 0x0F), (1, 0xF0), (2, 0x03), (2, 0x0C), (2, 0x30), (2, 0xC0)] : List (Nat × Nat)).find? (fun w =>
    decide (min maxw 2 ≤ w.1) && (sound &&& w.2) == w.2)

/-- The widest width a port may train to: MAXW, and no longer width 8 once it has been narrowed (R379). -/
def maxWidth (s : State) (p : Nat) : Nat := max (fget s .izkPortCfg 5 4 p) (b2n (port s p).narrowed)

/-- Training completes on the sound lanes; without SYS_REFCLK the port has no ZCLK and stays in TRAINING (R416). -/
def trained (p lanes : Nat) (s : State) : State :=
  let x := port s p
  if x.state != .training || !refUp s 2 then s else
  match widthOf (maxWidth s p) (andNot lanes x.excluded) with
  | none => s
  | some (w, l) =>
    let s1 := setPort s p { x with
      state := .negotiate, width := w, lanes := l, vsel := 0, helloSent := false, helloSeen := none, narrowed := x.narrowed || w != 0 }
    if x.wasUp && w > x.width then raise (fadd s1 .izkPortCnt2 63 48 1 p) (mkEvent 0 8 p 0x03) else s1

/-- Loss of lock, or lanes beyond correction. -/
def linkLost (p lanes : Nat) (s : State) : State :=
  let x := port s p
  if x.state != .up then s else
  raise (setPort s p { x with state := .training, excluded := x.excluded ||| lanes, lanes := 0, vsel := 0, holding := true })
    (mkEvent 2 8 p 0x02)

/-- LINK_HOLD has expired. -/
def holdExpired (p : Nat) (s : State) : State :=
  let x := port s p
  if x.holding && (x.state == .training || x.state == .negotiate) then
    failPort (raise (setPort s p { x with holding := false }) (mkEvent 2 8 p 0x04)) p 6
  else s

/-- The versions a port offers, as bits 0 and 1. -/
def offers (s : State) (p : Nat) : Nat := fget s .izkPortCfg 3 2 p

/-- R386: the port enters UP once it has sent and received a HELLO and a version is common. -/
def negotiate (s : State) (p : Nat) : State :=
  let x := port s p
  let common := (x.helloSeen.getD 0) &&& offers s p
  if x.state == .negotiate && x.helloSent && common != 0 then
    wakePort (raise (setPort s p { x with state := .up, vsel := if bit common 1 then 2 else 1, wasUp := true, holding := false }) (mkEvent 0 8 p 0x01)) p
  else s

/-- A HELLO: its VER where both versions are offered, and its destination, are values the spec does not give. -/
def sendHello (p : Nat) (s : State) : State :=
  let x := port s p
  if !(x.state == .negotiate || x.state == .up) then s else
  let o := offers s p
  let (f, s1) := takeFree s
  let (g, s2) := takeFree s1
  let ver := if o = 1 then 2 else if o = 2 then 3 else 2 + f % 2
  let entry := if encapIp s p then leBytes 16 g ++ [0, 0] ++ leBytes 6 (g / 2 ^ 128) else leBytes 6 g ++ [0, 0]
  let t : TxPkt := { deckle := none, snode := 0, entry := entry, pkt := { ver := ver, op := 0x20, msn := 4 * o } }
  if !txReady s2 p t then s else
  let s3 := txNow s2 p t
  negotiate (setPort s3 p { port s3 p with helloSent := true }) p

/-- A received PFC frame (R380). -/
def pfc (p classes : Nat) (quanta : List Nat) (s : State) : State :=
  let x := port s p
  if !(x.state == .negotiate || x.state == .up) then s else
  let m := classes &&& fget s .izkPortCfg 15 8 p
  let go := (List.range 8).foldl (fun a i => if bit m i && quanta.getD i 0 = 0 then a + 2 ^ i else a) 0
  let on := andNot m go
  let x1 := { x with paused := andNot (x.paused ||| on) go, stormed := andNot x.stormed go }
  wakePort (setPort s p x1) p

/-- The pause of a priority ends. -/
def pauseEnds (p i : Nat) (s : State) : State :=
  let x := port s p
  if i < 8 && bit x.paused i then
    wakePort (setPort s p { x with paused := andNot x.paused (2 ^ i), stormed := andNot x.stormed (2 ^ i) }) p
  else s

/-- Bytes that received frames hold of the 8 MiB receive buffer. -/
def inboxBytes (s : State) (p : Nat) : Nat := (port s p).inbox.foldl (fun n x => n + x.size) 0

/-- The priorities that XOFF and XON name. -/
def izkPrios (s : State) (p : Nat) : Nat := (2 ^ prioOf s p true) ||| (2 ^ prioOf s p false)

/-- XOFF (R380): below 1 MiB of free space, and again until XON is due. -/
def sendXoff (p : Nat) (s : State) : State :=
  let x := port s p
  let used := inboxBytes s p
  if (x.state == .negotiate || x.state == .up) && (used + 2 ^ 20 > 2 ^ 23 || (x.xoff && used + 2 ^ 21 ≥ 2 ^ 23)) then
    emit (setPort s p { x with xoff := true }) (.pfc p (izkPrios s p) 0xFFFF)
  else s

/-- XON (R380). -/
def sendXon (p : Nat) (s : State) : State :=
  let x := port s p
  if (x.state == .negotiate || x.state == .up) && x.xoff && inboxBytes s p + 2 ^ 21 < 2 ^ 23 then
    emit (setPort s p { x with xoff := false }) (.pfc p (izkPrios s p) 0)
  else s

/-- PFC_STORM (R381). -/
def storm (p i : Nat) (s : State) : State :=
  let x := port s p
  if i < 8 && bit x.paused i && !bit x.stormed i then
    raise (setPort s p { x with stormed := x.stormed ||| 2 ^ i }) (mkEvent 0 8 p 0x06)
  else s

/-! ### Reception (R385, R401, R402) -/

/-- A DQPN names a queue pair of the port with a current generation, in RTR or RTS. -/
def namesQp (s : State) (p dqpn : Nat) : Bool :=
  let q := qpOf s (dqpn % 8192)
  receives q && q.ctx.port == p && decide (dqpn / 8192 = q.gen)

/-- The packet carries ACK or NAK for a path: its E and the present CL. -/
def sendAck (s : State) (i k : Nat) : State :=
  let q := qpOf s i
  qpSend (setQp s i (q.setPath k { q.path k with sinceAck := 0 })) i { op := 0x10, path := k, psn := (q.path k).expect, msn := q.granted }

/-- A NAK with a syndrome. -/
def sendNak (s : State) (i k syn : Nat) : State :=
  let q := qpOf s i
  qpSend s i { op := 0x11, path := k, psn := (q.path k).expect, msn := q.granted, rkey := syn }

/-- R401: a packet that lies `d` ahead of the PSN `e` that the path takes next: one NAK SEQ goes for the gap at `e`. -/
def outOfSequence (s : State) (i k e d : Nat) : State :=
  let q := qpOf s i
  if d < 2 ^ 23 then
    if (q.path k).gap == some e then s else sendNak (setQp s i (q.setPath k { q.path k with gap := some e })) i k 1
  else sendAck s i k

/-- FRAME_RECEIVE: R385 steps 1 to 6; a packet that passes waits for its own row. -/
def frameIn (p : Nat) (frame : List Byte) (s : State) : State :=
  let x := port s p
  if p ≥ 4 || !(x.state == .negotiate || x.state == .up) then s else
  let other (s : State) : State := fadd s .izkPortCnt2 47 32 1 p
  match outerBody s p frame with
  | none => other s
  | some b =>
    if b.length < (if lsec s p then 80 else 48) then other s else
    match linkOpen s p b with
    | (s1, none) => lauth s1 p
    | (s1, some m) =>
      let h := { parseHeader m with size := frame.length, prio := frameClass s p frame }
      if !izkHeaderOk x.vsel m h then fadd s1 .izkPortCnt 15 0 1 p
      else
        let keep (y : Pkt) (s : State) : State := setPort s p { port s p with inbox := (port s p).inbox ++ [y] }
        if h.op = 0x20 then keep h s1
        else if !namesQp s1 p h.dqpn then fadd s1 .izkPortCnt 31 16 1 p
        else
          let i := h.dqpn % 8192
          let q := qpOf s1 i
          if h.path ≥ q.ctx.npaths then fadd s1 .izkPortCnt 15 0 1 p else
          let ahead := (x.inbox.filter (fun y => y.dqpn == h.dqpn && y.path == h.path && hasPsn y.op)).length
          let e := ((q.path h.path).expect + ahead) % 2 ^ 24
          let d := subMod (2 ^ 24) h.psn e
          if hasPsn h.op && d != 0 then outOfSequence s1 i h.path e d
          else match partOpen s1 q.deckle m h with
            | none => pauth s1 p q.deckle
            | some pl => keep { h with payload := pl } s1

/-- The packet at the head of a port's receive buffer, where it is one of the operation `op`. -/
def takeHead (s : State) (p op : Nat) : Option (Pkt × State) :=
  match (port s p).inbox with
  | [] => none
  | x :: xs => if x.op = op then some (x, setPort s p { port s p with inbox := xs }) else none

/-- Run a control packet's meaning on its queue pair, if it still has one. -/
def onCtl (p op : Nat) (f : State → Nat → Pkt → State) (s : State) : State :=
  match takeHead s p op with
  | none => s
  | some (x, s1) =>
    if namesQp s1 p x.dqpn then izkSettle 8193 (f s1 (x.dqpn % 8192) x) else fadd s1 .izkPortCnt 31 16 1 p

/-! ### Inbound messages (R397, R398, R405) -/

/-- A packet is taken: E and credit advance, and an ACK goes where R402 asks for one. -/
def accept (s : State) (i : Nat) (x : Pkt) : State :=
  let q := qpOf s i
  let w := q.path x.path
  let n := w.sinceAck + 1
  let q1 := q.setPath x.path { w with expect := (w.expect + 1) % 2 ^ 24, gap := if w.gap == some w.expect then none else w.gap, sinceAck := n }
  let s1 := setQp s i { q1 with got := if isData x.op then q1.got + 1 else q1.got }
  let s2 := if bit x.flags 2 || n ≥ 16 then sendAck s1 i x.path else s1
  grantCredit q.ctx.port 8192 s2

/-- A message is refused: NAK with the syndrome, and the queue pair enters ERROR (R407). -/
def refuse (s : State) (i k status : Nat) (recv : Option Nat) : State :=
  let d := (qpOf s i).deckle
  let s1 := sendNak s i k (if status = 3 then 0x10 else 0x11)
  qpFail i status 3 none recv (if status = 3 then fadd s1 .izkDkCnt 63 32 1 d else s1)

/-- Complete messages complete in MSN order, and their receive records are written in RSN order (R396). -/
def settleRecvs (i : Nat) : Nat → State → State
  | 0, s => s
  | n + 1, s =>
    let q := qpOf s i
    match q.recvDone.find? (fun r => r.1 == q.rqCi) with
    | some r =>
      let s1 := setQp s i { q with recvDone := q.recvDone.filter (fun x => x.1 != r.1), rqCi := (q.rqCi + 1) % 2 ^ 32 }
      settleRecvs i n (izkCqWrite s1 q.ctx.port q.ctx.rcq r.2)
    | none =>
      match q.msgs.find? (fun m => m.msn == q.rxMsn && m.whole) with
      | none => s
      | some m =>
        let s1 := setQp s i { q with msgs := q.msgs.filter (fun x => x.msn != m.msn), rxMsn := (q.rxMsn + 1) % 2 ^ 32 }
        if m.op = 4 then settleRecvs i n s1 else
        let s2 := counterAdd s1 q.deckle q.ctx.rxCtr
        if m.op = 1 then settleRecvs i n s2 else
        let (imm, rsn) := m.last.getD (0, m.rsn)
        let (s3, e) := rqEntry s2 i rsn
        let (s4, b) := izkRecord s3 i (fieldAt (rdBytes 32 e) 0 8) 0 0 (0x80 + m.op) m.mlen imm
        settleRecvs i n (setQp s4 i { qpOf s4 i with recvDone := (qpOf s4 i).recvDone ++ [(rsn, b)] })

/-- R403: the port has no free message context, or the MSN lies 64 or more beyond the oldest incomplete one. -/
def noContext (s : State) (i : Nat) (x : Pkt) : Bool :=
  let q := qpOf s i
  decide (subMod (2 ^ 32) x.msn q.rxMsn ≥ 64)
    || decide ((qpsOfPort s q.ctx.port).foldl (fun n j => n + (qpOf s j).msgs.length) 0 ≥ 16384)

/-- The outcome of an admission. -/
inductive Admit where
  | ok (m : MsgCtx)
  | nak (syn : Nat)
  | refuse (status : Nat) (recv : Option Nat)
  deriving DecidableEq, Repr

/-- R397, R398: the check of a new message. -/
def admitPacket (s : State) (i : Nat) (x : Pkt) : State × Admit :=
  let q := qpOf s i
  if noContext s i x then (s, .nak 3)
  else if (deckle s q.deckle).phase != .active then (s, .refuse 4 none)
  else if x.op != 3 && !keyAdmits s q.deckle x.rkey (some 2) x.va x.mlen then (s, .refuse 3 none)
  else if x.op != 1 && !posted q x.rsn then (s, .nak 2)
  else if x.op != 3 then (s, .ok { msn := x.msn, op := x.op, mr := x.rkey % 65536, base := x.va, mlen := x.mlen, rsn := x.rsn })
  else
    let (s1, e) := rqEntry s i x.rsn
    match e with
    | .bad _ _ => (s1, .refuse 3 none)
    | .ok b =>
      if x.mlen > fieldAt b 20 4 then (s1, .refuse 4 (some x.rsn))
      else if !keyAdmits s1 q.deckle (fieldAt b 16 4) (some 0) (fieldAt b 8 8) x.mlen then (s1, .refuse 3 none)
      else (s1, .ok { msn := x.msn, op := 3, mr := fieldAt b 16 4 % 65536, base := fieldAt b 8 8, mlen := x.mlen, rsn := x.rsn })

/-- A packet of an admitted message is placed. -/
def placePkt (s : State) (i : Nat) (x : Pkt) (m : MsgCtx) : State :=
  let q := qpOf s i
  match dkWrite s q.deckle .izkai (m.base + x.offset) x.payload with
  | (s1, some _) => refuse s1 i x.path 3 none
  | (s1, none) =>
    let n := m.placed + x.payload.length
    let m1 := { m with placed := n, last := if bit x.flags 0 then some (x.imm, x.rsn) else m.last, whole := n == m.mlen }
    let q1 := qpOf s1 i
    let rest := q1.msgs.filter (fun y => y.msn != m.msn)
    accept (settleRecvs i 256 (setQp s1 i { q1 with msgs := rest ++ [m1] })) i x

/-- A WRITE, WRITE_IMM or SEND packet. -/
def rxMessage (s : State) (i : Nat) (x : Pkt) : State :=
  match (qpOf s i).msgs.find? (fun m => m.msn == x.msn) with
  | some m => placePkt s i x m
  | none =>
    match admitPacket s i x with
    | (s1, .ok m) => placePkt s1 i x m
    | (s1, .nak syn) => sendNak s1 i x.path syn
    | (s1, .refuse st recv) => refuse s1 i x.path st recv

/-- The packets of a message (R404). -/
def cut (mtu : Nat) (x : Pkt) (bs : List Byte) : List Pkt :=
  let n := max 1 (ceilDiv bs.length mtu)
  (List.range n).map (fun k =>
    { x with offset := k * mtu, payload := (bs.drop (k * mtu)).take mtu, flags := if k + 1 = n then 1 else 0 })

/-- A READ_REQ. -/
def rxReadReq (s : State) (i : Nat) (x : Pkt) : State :=
  let q := qpOf s i
  if noContext s i x then sendNak s i x.path 3
  else if (deckle s q.deckle).phase != .active then refuse s i x.path 4 none
  else if !keyAdmits s q.deckle x.rkey (some 1) x.va x.mlen then refuse s i x.path 3 none
  else match dkRead s q.deckle .izkai x.va x.mlen with
    | (s1, .bad c dpa) =>
      if c = 0x30 then refuse (raisePoison s1 8 q.ctx.port (some q.deckle) (dpa.getD 0)) i x.path 4 none
      else refuse s1 i x.path 3 none
    | (s1, .ok b) =>
      let r : ReadOut := { msn := x.msn, mr := x.rkey % 65536, unsent := cut (2 ^ q.ctx.logmtu) { op := 5, msn := x.msn, mlen := x.mlen } b }
      let m : MsgCtx := { msn := x.msn, op := 4, mr := 65536, base := 0, mlen := 0, whole := true }
      let q1 := qpOf s1 i
      wake (accept (settleRecvs i 256 (setQp s1 i { q1 with reads := q1.reads ++ [r], msgs := q1.msgs ++ [m] })) i x) i

/-- A READ_RESP: one whose MSN names no outstanding READ places nothing. -/
def rxReadResp (s : State) (i : Nat) (x : Pkt) : State :=
  let q := qpOf s i
  match entryOfMsn q x.msn with
  | none => accept s i x
  | some e =>
    if fieldAt e.entry 0 1 != 4 then accept s i x else
    match dkWrite s q.deckle .izkai (fieldAt e.entry 16 8 + x.offset) x.payload with
    | (s1, some (c, _)) => qpFail i 5 c (some e.index) none s1
    | (s1, none) =>
      let q1 := qpOf s1 i
      let upd (y : SendEnt) : SendEnt := if y.msn = x.msn then { y with placed := y.placed + x.payload.length, answered := true } else y
      let s2 := settleSends i (q1.started.length + 1) (setQp s1 i { q1 with started := q1.started.map upd })
      wake (accept s2 i x) i

/-- A packet with a PSN: R385 step 5 again and then credit, admission and placement. -/
def onData (p op : Nat) (f : State → Nat → Pkt → State) (s : State) : State :=
  onCtl p op (fun s i x =>
    let q := qpOf s i
    let d := subMod (2 ^ 24) x.psn (q.path x.path).expect
    let room := subMod (2 ^ 24) q.granted q.got
    if d != 0 then outOfSequence s i x.path (q.path x.path).expect d
    else if isData x.op && !(decide (1 ≤ room) && decide (room < 2 ^ 23)) then sendNak s i x.path 3
    else f s i x) s

/-! ### Control packets (R399, R402, R403, R407) -/

/-- The entry that the packet `psn` of a path belongs to, else the oldest. -/
def entryAtPsn (q : Qp) (k psn : Nat) : Option Nat :=
  let m := ((q.path k).unacked.find? (fun y => y.psn == psn)).bind (fun y => if y.op = 5 then none else entryOfMsn q y.msn)
  ((m.orElse (fun _ => q.started.head?))).map (·.index)

/-- A path waits RNR_DELAY. -/
def rnrHold (s : State) (i k : Nat) : State :=
  let q := qpOf s i
  setQp s i (q.setPath k { q.path k with rnrWait := true })

/-- A NAK. -/
def rxNak (s0 : State) (i : Nat) (x : Pkt) : State :=
  let s := takeAck s0 i x
  let q := qpOf s i
  let syn := x.rkey % 256
  if syn = 1 then if (q.path x.path).rnrWait then s else wake (resend s i x.path) i
  else if syn = 3 then wake (rnrHold s i x.path) i
  else if syn = 2 then
    match ((q.path x.path).unacked.find? (fun y => y.psn == x.psn)).bind (fun y => entryOfMsn q y.msn) with
    | none => wake (rnrHold s i x.path) i
    | some e =>
      if e.rnr + 1 ≥ fget s .izkPortTmr 29 22 q.ctx.port then qpFail i 6 0 (some e.index) none s
      else
        let s1 := setQp s i { q with started := q.started.map (fun y => if y.msn = e.msn then { y with rnr := e.rnr + 1 } else y) }
        wake (rnrHold s1 i x.path) i
  else qpFail i (if syn = 0x10 then 3 else 4) 0 (entryAtPsn q x.path x.psn) none s

/-- A CREDIT packet. -/
def rxCredit (s : State) (i : Nat) (x : Pkt) : State :=
  let q := qpOf s i
  let cl := x.msn % 2 ^ 24
  let up := subMod (2 ^ 24) cl q.limit
  if 1 ≤ up && up < 2 ^ 23 then wake (setQp s i { q with limit := cl }) i else s

/-- A TERMINATE: the oldest incomplete send entry, or the first to be flushed, completes with REMOTE_OP. -/
def rxTerminate (s : State) (i : Nat) (_ : Pkt) : State :=
  let q := qpOf s i
  if q.sqCi = q.sqPi then qpFail i 4 0 none none (setQp s i { q with owes := 4 }) else qpFail i 4 0 (some q.sqCi) none s

/-! ### Timers -/

/-- The queue pair's port is UP, so its timers run (R379). -/
def timersRun (s : State) (i : Nat) : Bool := receives (qpOf s i) && (port s (qpOf s i).ctx.port).state == .up

/-- ACK_TIMER. -/
def ackTimerStep (i k : Nat) (s : State) : State :=
  if timersRun s i && ((qpOf s i).path k).sinceAck != 0 then sendAck s i k else s

/-- RTO_EXPIRY; a path with nothing outstanding lets a sender short of credit ask again. -/
def rtoStep (i k : Nat) (s : State) : State :=
  let q := qpOf s i
  let w := q.path k
  if !timersRun s i || w.rnrWait then s
  else match w.unacked with
    | [] => wake s i
    | x :: _ =>
      if w.retries + 1 ≥ max 1 (fget s .izkPortTmr 13 10 q.ctx.port) then
        izkSettle 8193 (qpFail i 6 0 (if x.op = 5 then none else entryAtPsn q k x.psn) none s)
      else wake (resend (setQp s i (q.setPath k { w with retries := w.retries + 1 })) i k) i

/-- RNR_DELAY_EXPIRY. -/
def rnrStep (i k : Nat) (s : State) : State :=
  let q := qpOf s i
  if timersRun s i && (q.path k).rnrWait then wake (resend (setQp s i (q.setPath k { q.path k with rnrWait := false })) i k) i else s

/-- CREDIT_TIMEOUT. -/
def creditStep (i : Nat) (s : State) : State :=
  let q := qpOf s i
  if !timersRun s i || hasCredit q then s
  else match nextTx q with
    | none => s
    | some x =>
      if !isData x.op then s
      else izkSettle 8193 (qpFail i 7 0 ((q.started.find? (fun e => !e.unsent.isEmpty)).map (·.index)) none s)

/-- MSG_TMO_EXPIRY. -/
def msgTmoStep (i msn : Nat) (s : State) : State :=
  if timersRun s i && (qpOf s i).msgs.any (fun m => m.msn == msn && !m.whole) then izkSettle 8193 (qpFail i 6 0 none none s) else s

/-! ### The send queue (R392–R394, R406) -/

/-- QP_DOORBELL: the port reads SQ_PI or RQ_PI. -/
def doorbell (i : Nat) (recv : Bool) (s : State) : State :=
  let q := qpOf s i
  if q.state == .free || q.state == .reset || (recv && q.ctx.rqLog == 0) then s else
  match wordRead s q.deckle (q.ctx.db + (if recv then 4 else 0)) 4 with
  | (s1, none) => s1
  | (s1, some v) =>
    let ci := if recv then q.rqCi else q.sqCi
    let tooFar := subMod (2 ^ 32) v ci > 2 ^ (if recv then q.ctx.rqLog else q.ctx.sqLog)
    let q1 := qpOf s1 i
    if tooFar then
      izkSettle 8193 (if recv then qpFail i 5 1 none (if q.rqCi = q.rqPi then none else some q.rqCi) s1
        else qpFail i 5 1 (if q.sqCi = q.sqPi then none else some q.sqCi) none s1)
    else
      let s2 := setQp s1 i (if recv then { q1 with rqPi := v } else { q1 with sqPi := v })
      if q.state == .error then izkSettle 8193 (flushAll i none none 1 0 s2) else s2

/-- R393: an entry is well formed. -/
def entryOk (v2 : Bool) (e : List Byte) : Bool :=
  let op := fieldAt e 0 1
  [1, 2, 3, 4, 15].contains op && decide (fieldAt e 1 1 < 8) && fieldAt e 2 2 == 0 && fieldAt e 44 4 == 0
    && decide (fieldAt e 28 4 ≤ 2 ^ 31) && !(v2 && op == 2)

/-- An entry starts (R394). -/
def startEntry (s : State) (i k : Nat) (e : List Byte) : State :=
  let q := qpOf s i
  let fail (s : State) (c : Nat) : State := qpFail i 5 c (some k) none s
  let (op, la, lk, n) := (fieldAt e 0 1, fieldAt e 16 8, fieldAt e 24 4, fieldAt e 28 4)
  let base : SendEnt := { index := k, entry := e, msn := q.txMsn, mr := lk % 65536 }
  let go (s : State) (x : SendEnt) (rsn : Nat) : State :=
    let q := qpOf s i
    wake (setQp s i { q with sqNext := (k + 1) % 2 ^ 32, txMsn := (q.txMsn + 1) % 2 ^ 32, txRsn := (q.txRsn + rsn) % 2 ^ 32, started := q.started ++ [x] }) i
  if op = 15 then
    settleSends i 1 (setQp s i { q with sqNext := (k + 1) % 2 ^ 32, started := q.started ++ [{ base with msn := 2 ^ 32, mr := 65536 }] })
  else if !keyAdmits s q.deckle lk (if op = 4 then some 0 else none) la n then fail s 3
  else if op = 4 then
    go s { base with unsent := [{ op := 4, flags := 1, msn := q.txMsn, rkey := fieldAt e 40 4, va := fieldAt e 32 8, mlen := n }] } 0
  else match dkRead s q.deckle .izkai la n with
    | (s1, .bad c dpa) => fail (if c = 0x30 then raisePoison s1 8 q.ctx.port (some q.deckle) (dpa.getD 0) else s1) c
    | (s1, .ok b) =>
      let x : Pkt := { op := op, msn := q.txMsn, rkey := if op = 3 then 0 else fieldAt e 40 4, va := if op = 3 then 0 else fieldAt e 32 8
                       mlen := n, rsn := if op = 1 then 0 else q.txRsn, imm := if op = 1 then 0 else fieldAt e 4 4 }
      go s1 { base with unsent := cut (2 ^ q.ctx.logmtu) x b } (if op = 1 then 0 else 1)

/-- The entry at the head of the send queue may start, apart from its trigger: its bytes, or the fault that ends it. -/
def headEntry (s : State) (i : Nat) : State × Option (Nat × Rd) :=
  let q := qpOf s i
  if q.state != .rts || (port s q.ctx.port).state != .up || (deckle s q.deckle).phase != .active || q.sqNext = q.sqPi
      || q.started.any (fun e => !e.unsent.isEmpty) then (s, none) else
  match sqEntry s i q.sqNext with
  | (s1, .bad c p) => (s1, some (q.sqNext, .bad c p))
  | (s1, .ok e) =>
    if !entryOk ((port s q.ctx.port).vsel == 1) e then (s1, some (q.sqNext, .bad 1 none))
    else if bit (fieldAt e 1 1) 1 && !q.started.isEmpty then (s, none)
    else if fieldAt e 0 1 = 4 && (q.started.filter (fun x => fieldAt x.entry 0 1 == 4)).length ≥ 16 then (s, none)
    else (s1, some (q.sqNext, .ok e))

/-- SEND_ENTRY_START and TRIGGERED_START. -/
def startHead (i : Nat) (trig : Bool) (s : State) : State :=
  match headEntry s i with
  | (_, none) => s
  | (s1, some (k, .bad c p)) =>
    let q := qpOf s1 i
    izkSettle 8193 (qpFail i 5 c (some k) none (if c = 0x30 then raisePoison s1 8 q.ctx.port (some q.deckle) (p.getD 0) else s1))
  | (s1, some (k, .ok e)) =>
    if !bit (fieldAt e 1 1) 2 then (if trig then s else izkSettle 8193 (startEntry s1 i k e)) else
    let q := qpOf s1 i
    let tc := fieldAt e 48 8
    if tc % 8 != 0 then izkSettle 8193 (qpFail i 5 1 (some k) none s1)
    else match dkRead s1 q.deckle .izkai tc 8 with
      | (s2, .bad c p) =>
        izkSettle 8193 (qpFail i 5 c (some k) none (if c = 0x30 then raisePoison s2 8 q.ctx.port (some q.deckle) (p.getD 0) else s2))
      | (s2, .ok b) => if trig && leNat b ≥ fieldAt e 56 8 then izkSettle 8193 (startEntry s2 i k e) else s

/-! ### Commands of a deckle (R389–R391, R395, R397, R398) -/

/-- What a command answers: CODE and VALUE, or that it runs on. -/
abbrev CmdOut := Option (Nat × Nat)

/-- The result of a command. -/
def dkDone (s : State) (d code value : Nat) : State :=
  rset (fset s .izkDkCmd 31 31 0 d) .izkDkRes (code + 2 ^ 32 * value) d

/-- A write of IZK_DK_CMD with GO and the row's OP. -/
def izkCmd (fn d op : Nat) (value : Word) (f : State → State × CmdOut) (s : State) : State :=
  let v := value.toNat % 2 ^ 32
  if d ≥ 16 || v % 16 != op || !bit v 31 || fget s .izkDkRes 8 8 d = 1 then s
  else ownWrite s fn .izkDkCmd d v (fun s =>
    if (deckle s d).phase != .active then dkDone s d 3 0
    else match f s with
      | (s1, some (c, r)) => dkDone s1 d c r
      | (s1, none) => rset (fset s1 .izkDkCmd 31 31 1 d) .izkDkRes 256 d)

/-- Argument `j` of deckle `d`. -/
def izkArg (s : State) (d j : Nat) : Nat := rget s .izkDkArg d j

/-- Table 13.6: the bytes of a context block, in range apart from ownership. -/
def ctxBlockOk (s : State) (b : List Byte) : Bool :=
  let f (o n : Nat) : Nat := fieldAt b o n
  let np := f 1 1
  let ip := encapIp s (f 0 1 % 4)
  decide (f 0 1 < 4) && decide (1 ≤ np) && decide (np ≤ 8) && decide (10 ≤ f 2 1) && decide (f 2 1 ≤ 12) && f 3 1 == 0
    && f 7 1 == 0 && f 8 8 % 4096 == 0 && decide (4 ≤ f 16 1) && decide (f 16 1 ≤ 15)
    && (f 17 1 == 0 || (decide (4 ≤ f 17 1) && decide (f 17 1 ≤ 15))) && f 22 2 == 0 && f 24 8 % 4096 == 0
    && (f 17 1 != 0 || f 24 8 == 0) && f 32 8 % 64 == 0 && f 40 8 % 8 == 0 && decide (1 ≤ f 48 4) && decide (f 48 4 ≤ 4096) && f 56 8 == 0
    && (List.range 8).all (fun k =>
      let e := sliceB b (64 + 24 * k) 24
      if k ≥ np then allZero e else if ip then decide (fieldAt e 16 2 < 4096) else decide (fieldAt e 6 2 < 4096) && allZero (e.drop 8))

/-- The fields of a context block. -/
def qpCtxOf (b : List Byte) : QpCtx :=
  { port := fieldAt b 0 1, npaths := fieldAt b 1 1, logmtu := fieldAt b 2 1, peer := fieldAt b 4 3, sq := fieldAt b 8 8
    sqLog := fieldAt b 16 1, rqLog := fieldAt b 17 1, scq := fieldAt b 18 2, rcq := fieldAt b 20 2, rq := fieldAt b 24 8
    db := fieldAt b 32 8, rxCtr := fieldAt b 40 8, initCredit := fieldAt b 48 4, snode := fieldAt b 52 4
    paths := (List.range (fieldAt b 1 1)).map (fun k => sliceB b (64 + 24 * k) 24) }

/-- Completion queue `c` is one of deckle `d`. -/
def ownsCq (s : State) (d c : Nat) : Bool := match tfind s.izk.cqs c with | some x => x.deckle == d | none => false

/-- Every object that a context block names lies in the deckle. -/
def ctxOwned (s : State) (d : Nat) (c : QpCtx) : Bool :=
  dkCheck s d .izkai false c.sq (64 * 2 ^ c.sqLog) == 0
    && (c.rqLog == 0 || dkCheck s d .izkai false c.rq (32 * 2 ^ c.rqLog) == 0)
    && dkCheck s d .izkai false c.db 64 == 0 && (c.rxCtr == 0 || dkCheck s d .izkai true c.rxCtr 8 == 0)
    && ownsCq s d c.scq && ownsCq s d c.rcq

/-- Read and check a context block: its fields, or a code. -/
def readCtx (s : State) (d a : Nat) : State × (QpCtx ⊕ Nat) :=
  if a % 64 != 0 then (s, .inr 1) else
  match dkRead s d .izkai a 256 with
  | (s1, .bad c p) => if c = 0x30 then (raisePoison s1 8 0 (some d) (p.getD 0), .inr 0x30) else (s1, .inr 3)
  | (s1, .ok b) =>
    if !ctxBlockOk s1 b then (s1, .inr 1)
    else if !ctxOwned s1 d (qpCtxOf b) then (s1, .inr 3)
    else (s1, .inl (qpCtxOf b))

/-- QP_CREATE. -/
def qpCreateCmd (d : Nat) (s : State) : State × CmdOut :=
  let free := (List.range 8192).find? (fun i => (qpOf s i).state == .free)
  if free.isNone then (s, some (0x60, 0)) else
  let i := free.getD 0
  match readCtx s d (izkArg s d 0) with
  | (s1, .inr c) => (s1, some (c, 0))
  | (s1, .inl c) =>
    let g := (qpOf s1 i).gen
    (setQp s1 i { state := .init, gen := g, deckle := d, ctx := c }, some (0, i + 8192 * g))

/-- A QPN is one of deckle `d`. -/
def ownsQpn (s : State) (d n : Nat) : Bool :=
  let q := qpOf s (n % 8192)
  q.state != .free && q.deckle == d && decide (n / 8192 = q.gen)

/-- QP_MODIFY (Table 13.7). -/
def qpModifyCmd (d : Nat) (s : State) : State × CmdOut :=
  let n := izkArg s d 0
  let i := n % 8192
  let t := izkArg s d 1
  if !ownsQpn s d n then (s, some (3, 0)) else
  let q := qpOf s i
  let x := port s q.ctx.port
  if t = 1 && (q.state == .init || q.state == .rtr || (q.state == .error && q.flushed)) then
    let g := (q.gen + 1) % 2048
    (setQp s i { state := .reset, gen := g, deckle := d }, some (0, i + 8192 * g))
  else if t = 2 && q.state == .reset then
    match readCtx s d (izkArg s d 2) with
    | (s1, .inr c) => (s1, some (c, 0))
    | (s1, .inl c) => (setQp s1 i { state := .init, gen := q.gen, deckle := d, ctx := c }, some (0, n))
  else if t = 3 && q.state == .init then
    if x.state != .up || (x.vsel == 1 && (q.ctx.npaths != 1 || s.sealed)) then (s, some (1, 0))
    else (setQp s i { q with state := .rtr, limit := q.ctx.initCredit, granted := q.ctx.initCredit }, some (0, n))
  else if t = 4 && q.state == .rtr then (setQp s i { q with state := .rts }, some (0, n))
  else if t = 5 && (q.state == .init || receives q) then (izkSettle 8193 (qpFail i 1 0 none none s), some (0, n))
  else (s, some (0x61, 0))

/-- QP_DESTROY. -/
def qpDestroyCmd (d : Nat) (s : State) : State × CmdOut :=
  let n := izkArg s d 0
  let q := qpOf s (n % 8192)
  if !ownsQpn s d n then (s, some (3, 0))
  else if q.state == .reset || q.state == .init || (q.state == .error && q.flushed) then
    (setQp s (n % 8192) { gen := q.gen }, some (0, 0))
  else (s, some (0x61, 0))

/-- CQ_CREATE. -/
def cqCreateCmd (d : Nat) (s : State) : State × CmdOut :=
  let a (j : Nat) : Nat := izkArg s d j
  let free := tfree s.izk.cqs 8192
  if free.isNone then (s, some (0x60, 0)) else
    let c := free.getD 0
    if a 0 % 4096 != 0 || a 1 < 4 || a 1 > 16 || a 2 % 4 != 0 || a 3 % 8 != 0 then (s, some (1, 0))
    else if dkCheck s d .izkai true (a 0) (32 * 2 ^ a 1) != 0 || dkCheck s d .izkai false (a 2) 4 != 0
        || (a 3 != 0 && dkCheck s d .izkai true (a 3) 8 != 0) then (s, some (3, 0))
    else
      let x : Cq := { deckle := d, base := a 0, log := a 1, head := a 2, ctr := a 3, irqen := bit (a 4) 0, vector := bits (a 4) 5 1 }
      ({ s with izk.cqs := tupd s.izk.cqs c x }, some (0, c))

/-- CQ_DESTROY. -/
def cqDestroyCmd (d : Nat) (s : State) : State × CmdOut :=
  let c := izkArg s d 0
  if !ownsCq s d c then (s, some (3, 0))
  else if s.izk.qps.any (fun p => p.2.state != .free && p.2.state != .reset && (p.2.ctx.scq == c || p.2.ctx.rcq == c)) then
    (s, some (0x61, 0))
  else ({ s with izk.cqs := tdel s.izk.cqs c }, some (0, 0))

/-- MR_REG: the registration waits for its random bits; BUSY until they come. -/
def mrRegCmd (d : Nat) (s : State) : State × CmdOut :=
  let a (j : Nat) : Nat := izkArg s d j
  let free := (List.range 65536).find? (fun i => !(mrOf s i).live)
  if free.isNone then (s, some (0x60, 0)) else
    let i := free.getD 0
    if a 1 = 0 || a 0 + a 1 > 2 ^ 40 then (s, some (1, 0))
    else if s.rng.failed then (s, some (0x40, 0))
    else
      let m : Mr := { deckle := d, base := a 0, len := a 1, rights := a 2 % 8, gen := (mrOf s i).gen, rand := 0 }
      (askBlock { s with izk.mrs := tupd s.izk.mrs i m } 2 { who := .agent 1 d, use := .mrKey d }, none)

/-- The registration of deckle `d` that waits for its random bits. -/
def mrWaiting (s : State) (d : Nat) : Option (Nat × Mr) := s.izk.mrs.find? (fun p => p.2.live && !p.2.ready && p.2.deckle == d)

/-- The random bits of an MR_REG come: the key is complete. -/
def mrDrawn (d : Nat) (block : List Byte) (s : State) : State :=
  match mrWaiting s d with
  | none => s
  | some (i, m) =>
    let r := fieldAt block 0 1
    dkDone { s with izk.mrs := tupd s.izk.mrs i { m with rand := r, ready := true } } d 0 (i + 65536 * m.gen + 2 ^ 24 * r)

/-- An MR_REG whose draw the RNG cannot serve. -/
def mrFailed (d : Nat) (s : State) : State :=
  match mrWaiting s d with
  | none => s
  | some (i, m) => dkDone { s with izk.mrs := tupd s.izk.mrs i { m with live := false } } d 0x40 0

/-- A message, READ response or local entry that was admitted under registration `i`. -/
def mrUsed (s : State) (i : Nat) : Bool :=
  s.izk.qps.any (fun p => p.2.msgs.any (fun m => m.mr == i) || p.2.started.any (fun e => e.mr == i) || p.2.reads.any (fun r => r.mr == i))

/-- A revoked registration becomes free, with the next generation. -/
def mrFree (s : State) (i : Nat) : State :=
  let m := mrOf s i
  { s with izk.mrs := tupd s.izk.mrs i { m with live := false, ready := false, revoked := false, gen := (m.gen + 1) % 256 } }

/-- MR_DEREG. -/
def mrDeregCmd (d : Nat) (s : State) : State × CmdOut :=
  let k := izkArg s d 0
  let i := k % 65536
  let m := mrOf s i
  if k ≥ 2 ^ 32 || !m.live || !m.ready || m.revoked || m.deckle != d || m.gen != bits k 23 16 || m.rand != bits k 31 24 then (s, some (3, 0))
  else
    let s1 := { s with izk.mrs := tupd s.izk.mrs i { m with revoked := true } }
    if mrUsed s1 i then ({ s1 with izk.drains := tupd s1.izk.drains d i }, none) else (mrFree s1 i, some (0, 0))

/-- REVOCATION_DRAIN_END. -/
def revokeEnd (d : Nat) (s : State) : State :=
  match tfind s.izk.drains d with
  | none => s
  | some i => if mrUsed s i then s else dkDone (mrFree { s with izk.drains := tdel s.izk.drains d } i) d 0 0

/-- R409: every queue pair, completion queue and registration of a deckle becomes FREE. -/
def izkFree (s : State) (d : Nat) : State :=
  let s1 := { s with
    izk.qps := s.izk.qps.map (fun p => if p.2.deckle = d then (p.1, { gen := p.2.gen }) else p)
    izk.cqs := s.izk.cqs.filter (fun p => p.2.deckle != d)
    izk.mrs := s.izk.mrs.map (fun p => if p.2.deckle = d && p.2.live then (p.1, { p.2 with live := false, ready := false, revoked := false, gen := (p.2.gen + 1) % 256 }) else p)
    izk.drains := tdel s.izk.drains d
    izk.ports := s.izk.ports.map (fun p => (p.1, { p.2 with txq := p.2.txq.filter (fun x => x.deckle != some d) })) }
  if fget s .izkDkRes 8 8 d = 1 then dkDone s1 d (if (mrWaiting s d).isSome then 3 else 0) 0 else s1

/-! ### Meanings -/

/-- PORT_ENABLE. -/
def execPortEnable (fn p : Nat) (value : Word) (s : State) : Res :=
  .next (if p < 4 && bit value.toNat 0 then ownWrite s fn .izkPortCfg p value.toNat (portOn p) else s)
/-- PORT_DISABLE. -/
def execPortDisable (fn p : Nat) (value : Word) (s : State) : Res :=
  .next (if p < 4 && !bit value.toNat 0 then ownWrite s fn .izkPortCfg p value.toNat (portOff p) else s)
/-- TRAINING_COMPLETE. -/
def execTrainingComplete (p : Nat) (lanes : BitVec 8) (s : State) : Res := .next (trained p lanes.toNat s)
/-- LINK_LOSS. -/
def execLinkLoss (p : Nat) (lanes : BitVec 8) (s : State) : Res := .next (linkLost p lanes.toNat s)
/-- LINK_HOLD_EXPIRED. -/
def execLinkHoldExpired (p : Nat) (s : State) : Res := .next (holdExpired p s)
/-- HELLO_TRANSMIT. -/
def execHelloTransmit (p : Nat) (s : State) : Res := .next (sendHello p s)
/-- IZKAI_HELLO. -/
def execIzkaiHello (p : Nat) (s : State) : Res :=
  .next (match takeHead s p 0x20 with
    | none => s
    | some (x, s1) => negotiate (setPort s1 p { port s1 p with helloSeen := some (bits x.msn 3 2) }) p)
/-- NEGOTIATE_FAIL. -/
def execNegotiateFail (p : Nat) (s : State) : Res :=
  .next (if (port s p).state == .negotiate then raise s (mkEvent 2 8 p 0x05) else s)
/-- PFC_FRAME. -/
def execPfcFrame (p : Nat) (classes : BitVec 8) (quanta : List Nat) (s : State) : Res := .next (pfc p classes.toNat quanta s)
/-- PAUSE_EXPIRY. -/
def execPauseExpiry (p prio : Nat) (s : State) : Res := .next (pauseEnds p prio s)
/-- XOFF. -/
def execXoff (p : Nat) (s : State) : Res := .next (sendXoff p s)
/-- XON. -/
def execXon (p : Nat) (s : State) : Res := .next (sendXon p s)
/-- PFC_STORM. -/
def execPfcStorm (p prio : Nat) (s : State) : Res := .next (storm p prio s)
/-- FRAME_RECEIVE. -/
def execFrameReceive (p : Nat) (frame : List Byte) (s : State) : Res := .next (frameIn p frame s)
/-- WRITE. -/
def execWrite (p : Nat) (s : State) : Res := .next (onData p 1 rxMessage s)
/-- WRITE_IMM. -/
def execWriteImm (p : Nat) (s : State) : Res := .next (onData p 2 rxMessage s)
/-- SEND. -/
def execSend (p : Nat) (s : State) : Res := .next (onData p 3 rxMessage s)
/-- READ_REQ. -/
def execReadReq (p : Nat) (s : State) : Res := .next (onData p 4 rxReadReq s)
/-- READ_RESP. -/
def execReadResp (p : Nat) (s : State) : Res := .next (onData p 5 rxReadResp s)
/-- ACK. -/
def execAck (p : Nat) (s : State) : Res := .next (onCtl p 0x10 (fun s i x => wake (takeAck s i x) i) s)
/-- NAK. -/
def execNak (p : Nat) (s : State) : Res := .next (onCtl p 0x11 rxNak s)
/-- CREDIT. -/
def execCredit (p : Nat) (s : State) : Res := .next (onCtl p 0x12 rxCredit s)
/-- CREDIT_REQ. -/
def execCreditReq (p : Nat) (s : State) : Res :=
  .next (onCtl p 0x13 (fun s i x => grantCredit p 8192 (setQp s i { qpOf s i with wanted := x.msn })) s)
/-- TERMINATE. -/
def execTerminate (p : Nat) (s : State) : Res := .next (onCtl p 0x14 rxTerminate s)
/-- ACK_TIMER. -/
def execAckTimer (qp path : Nat) (s : State) : Res := .next (ackTimerStep qp path s)
/-- RTO_EXPIRY. -/
def execRtoExpiry (qp path : Nat) (s : State) : Res := .next (rtoStep qp path s)
/-- RNR_DELAY_EXPIRY. -/
def execRnrDelayExpiry (qp path : Nat) (s : State) : Res := .next (rnrStep qp path s)
/-- CREDIT_TIMEOUT. -/
def execCreditTimeout (qp : Nat) (s : State) : Res := .next (creditStep qp s)
/-- MSG_TMO_EXPIRY. -/
def execMsgTmoExpiry (qp msn : Nat) (s : State) : Res := .next (msgTmoStep qp msn s)
/-- QP_DOORBELL. -/
def execQpDoorbell (qp : Nat) (recv : Bool) (s : State) : Res := .next (doorbell qp recv s)
/-- SEND_ENTRY_START. -/
def execSendEntryStart (qp : Nat) (s : State) : Res := .next (startHead qp false s)
/-- TRIGGERED_START. -/
def execTriggeredStart (qp : Nat) (s : State) : Res := .next (startHead qp true s)
/-- QP_CREATE. -/
def execQpCreate (fn d : Nat) (value : Word) (s : State) : Res := .next (izkCmd fn d 1 value (qpCreateCmd d) s)
/-- QP_MODIFY. -/
def execQpModify (fn d : Nat) (value : Word) (s : State) : Res := .next (izkCmd fn d 2 value (qpModifyCmd d) s)
/-- QP_DESTROY. -/
def execQpDestroy (fn d : Nat) (value : Word) (s : State) : Res := .next (izkCmd fn d 3 value (qpDestroyCmd d) s)
/-- CQ_CREATE. -/
def execCqCreate (fn d : Nat) (value : Word) (s : State) : Res := .next (izkCmd fn d 4 value (cqCreateCmd d) s)
/-- CQ_DESTROY. -/
def execCqDestroy (fn d : Nat) (value : Word) (s : State) : Res := .next (izkCmd fn d 5 value (cqDestroyCmd d) s)
/-- MR_REG. -/
def execMrReg (fn d : Nat) (value : Word) (s : State) : Res := .next (izkCmd fn d 6 value (mrRegCmd d) s)
/-- MR_DEREG. -/
def execMrDereg (fn d : Nat) (value : Word) (s : State) : Res := .next (izkCmd fn d 7 value (mrDeregCmd d) s)
/-- REVOCATION_DRAIN_END. -/
def execRevocationDrainEnd (d : Nat) (s : State) : Res := .next (revokeEnd d s)

end Sys2Proof.Machine
end

