-- ==== Sys2Proof/Machine/Clock.lean ====
section
/-! DEFINITION. References, PLLs, ACLK steps and dual-clock queues (ch. 14). -/

namespace Sys2Proof.Machine

/-- Both PLLs of a domain are unlocked: the domain stops and the device enters FE (Table 14.2). -/
def dualLost (s : State) (d : Nat) : State := raise s (mkEvent 3 10 d 0x03)

/-- The primary PLL of a domain unlocks. -/
def primUnlock (d : Nat) (s : State) : State :=
  let x := domain s d
  if d ≥ 12 || !x.primLocked then s else
  let s1 := setDomain s d { x with primLocked := false }
  if !x.stbyLocked then dualLost s1 d
  else if x.onStandby then s1
  else raise (fadd (setDomain s1 d { x with primLocked := false, onStandby := true }) .clkFailCnt 15 0 1) (mkEvent 0 10 d 0x01)

/-- The standby PLL of a domain unlocks. -/
def stbyUnlock (d : Nat) (s : State) : State :=
  let x := domain s d
  if d ≥ 12 || !x.stbyLocked then s else
  let s1 := setDomain s d { x with stbyLocked := false }
  if !x.primLocked then dualLost s1 d
  else if x.onStandby then s1
  else raise s1 (mkEvent 0 10 d 0x02)

/-- Both unlock together. -/
def bothUnlock (d : Nat) (s : State) : State :=
  let x := domain s d
  if d ≥ 12 || !(x.primLocked || x.stbyLocked) then s
  else dualLost (setDomain s d { x with primLocked := false, stbyLocked := false }) d

/-- The loss of SYS_REFCLK takes every enabled port to TRAINING (R416). -/
def portsLost (s : State) : State :=
  (List.range 4).foldl (fun s p =>
    if (port s p).state == .negotiate then setPort s p { port s p with state := .training, vsel := 0 } else linkLost p 0 s) s

/-- A reference is lost (R413, R416). -/
def refGone (r : Nat) (s : State) : State :=
  if r ≥ 4 || !refUp s r then s else
  let s1 := raise (fadd { s with clk.lost := s.clk.lost ++ [r] } .clkFailCnt 31 16 1) (mkEvent 0 10 0 0x04)
  match r with
  | 0 => { s1 with boot.pcieUp := false }
  | 1 => (List.range 12).foldl (fun s d => primUnlock d s) s1
  | 2 => portsLost ((List.range 12).foldl (fun s d => stbyUnlock d s) s1)
  | _ => s1

/-- A reference is present again; with PCIE_REFCLK the link comes up again. -/
def refBack (r : Nat) (s : State) : State :=
  if refUp s r then s else
  let s1 := { s with clk.lost := s.clk.lost.filter (· != r) }
  if r = 0 then { s1 with boot.pcieUp := !s.boot.held && s.power.rails } else s1

/-- A primary PLL locks again: no switch (R415). -/
def primLock (d : Nat) (s : State) : State := if d < 12 && refUp s 1 then setDomain s d { domain s d with primLocked := true } else s
/-- A standby PLL locks again. -/
def stbyLock (d : Nat) (s : State) : State := if d < 12 && refUp s 2 then setDomain s d { domain s d with stbyLocked := true } else s

/-- CLK_SWBACK (R415). -/
def switchBackTo (v : Nat) (s : State) : State :=
  (setBitsOf 12 v).foldl (fun s d => if (domain s d).primLocked then setDomain s d { domain s d with onStandby := false } else s) s

/-- ACLK moves one step toward min(TARGET, LIMIT) (R417); a stopped domain makes no step (R414). -/
def aclkMove (s : State) : State :=
  if !domainRuns s 0 then s else
  let n := min (min 36 (fget s .clkAclk 5 0)) (fget s .clkAclk 21 16)
  let c := s.clk.aclk
  { s with clk.aclk := if c < n then c + 1 else if n < c then c - 1 else c }

/-- The mesh packets in the queue of physical quire `p`'s mesh port are lost (R421): the first `n` that travel to or from its quire. -/
def meshLost (p n : Nat) (s : State) : State :=
  match (phys s p).logical with
  | none => s
  | some q =>
    let gone := (s.mesh.filter (fun m => m.src == q || m.dst == q)).take n
    { s with mesh := gone.foldl (fun l m => l.erase m) s.mesh }

/-- Pliac requests on their way into the device are lost: they are not answered (Table 14.3). -/
def requestsLost (n : Nat) (s : State) : State :=
  let open' := s.mgt.sessions.filter (fun p => match p.2.exec with | some r => !r.begun | none => false)
  { s with mgt.sessions := (open'.take n).foldl (fun t p => tupd t p.1 { p.2 with exec := none }) s.mgt.sessions }

/-- A pointer mismatch resets a queue of class `cls` and discards `packets` packets (R421, Table 14.3). -/
def cdcReset (cls inst packets : Nat) (s : State) : State :=
  if cls ≥ 8 then s else
  let s1 := fadd (fset s .clkCdcSts (8 + cls) (8 + cls) 1) .clkCdcSts 63 32 packets
  let ev (sev info : Nat) (s : State) : State := raise s (mkEvent sev 10 0 0x05 none info)
  match cls with
  | 4 => ev 2 inst (setPort s1 inst { port s1 inst with inbox := (port s1 inst).inbox.drop packets })
  | 6 =>
    let gone := s1.ev.pending.take packets
    let s2 := requestsLost (packets - s1.ev.pending.length) s1
    ev 2 0 (gone.foldl (fun s e => evLoss s e.sev) { s2 with ev.pending := s2.ev.pending.drop packets })
  | 7 => ev 0 0 (sampleGap s1 inst)
  | 0 => ev 3 0 (meshLost inst packets s1)
  | _ => ev 3 0 s1

/-- PRIMARY_UNLOCK. -/
def execPrimaryUnlock (dom : Nat) (s : State) : Res := .next (primUnlock dom s)
/-- STANDBY_UNLOCK. -/
def execStandbyUnlock (dom : Nat) (s : State) : Res := .next (stbyUnlock dom s)
/-- PLL_DUAL_LOST. -/
def execPllDualLost (dom : Nat) (s : State) : Res := .next (bothUnlock dom s)
/-- REF_LOST. -/
def execRefLost (r : Nat) (s : State) : Res := .next (refGone r s)
/-- REF_PRESENT. -/
def execRefPresent (r : Nat) (s : State) : Res := .next (refBack r s)
/-- PRIMARY_RELOCK. -/
def execPrimaryRelock (dom : Nat) (s : State) : Res := .next (primLock dom s)
/-- STANDBY_RELOCK. -/
def execStandbyRelock (dom : Nat) (s : State) : Res := .next (stbyLock dom s)
/-- SWITCH_BACK. -/
def execSwitchBack (fn : Nat) (value : Word) (s : State) : Res :=
  .next (ownWrite s fn .clkSwback 0 (value.toNat % 2 ^ 32) (switchBackTo value.toNat))
/-- ACLK_STEP. -/
def execAclkStep (s : State) : Res := .next (aclkMove s)
/-- CDC_PTR_MISMATCH. -/
def execCdcPtrMismatch (cls inst packets : Nat) (s : State) : Res := .next (cdcReset cls inst packets s)

end Sys2Proof.Machine
end

