-- ==== Sys2Proof/Machine/Sync.lean ====
section
/-! DEFINITION. The X. instructions, mailboxes, roles and the RELEASE of a faulted stream (ch. 06; R134, R161, R169). -/

namespace Sys2Proof.Machine

/-! ### Fences, signals, waits, barriers (R177, R184–R187) -/

/-- SCOPE codes 1–4 (R184). -/
def scopeOk (w : IWord) : Bool := decide (1 ≤ optF w 22 20) && decide (optF w 22 20 ≤ 4)

/-- A misaligned device address faults at issue. -/
def planAt (n : Nat) (_ : State) (f : Flight) : Issue :=
  { fault := if f.val 0 % n != 0 then 1 else 0, f := { f with mem := [(f.val 0, n)] } }

/-- X.FENCE: it ends at once, or holds the stream until FENCE_END. -/
def fenceStart (q : Nat) (s : State) (f : Flight) : State :=
  if fenceHolds s q f (optF f.w 22 20) then s else putFlight s q { f with phase := .fence (optF f.w 22 20) }

/-- X.SIGNAL after its release: an atomic addition at the home slice; F3 takes the prior value. -/
def signalAct (q : Nat) (s : State) (f : Flight) : State :=
  let d := dkOf s q
  match dkRead s d .stream (f.val 0) 8 with
  | (s1, .bad c p) => memFault s1 q f c p
  | (s1, .ok bs) =>
    match dkWrite s1 d .stream (f.val 0) (leBytes 8 (leNat bs + f.val 1)) with
    | (s2, some (c, p)) => memFault s2 q f c p
    | (s2, none) => noteRings (wrS (dropFlight s2 q f.stream f.seq) q f.stream (f3Of f.w) (leNat bs)) q f.stream [(f.val 0, 8)]

/-- The DPA of a translated deckle address; 0 where it does not translate. -/
def dpaOf (s : State) (d va : Nat) : Nat :=
  match walk s d va with
  | .hit a _ => a
  | _ => 0

/-- X.WAIT: the counter is read at once, and watched where its condition does not hold (R186). -/
def waitStart (q : Nat) (s : State) (f : Flight) : State :=
  let d := dkOf s q
  match dkRead s d .stream (f.val 0) 8 with
  | (s1, .bad c p) => memFault s1 q f c p
  | (s1, .ok bs) =>
    let v := leNat bs
    let eq := bit f.w.low.toNat 19
    if (if eq then v == f.val 1 else decide (v ≥ f.val 1)) then wrS s1 q f.stream (f3Of f.w) v
    else
      let s2 := { s1 with waits := s1.waits ++
        [{ quire := q, stream := f.stream, seq := f.seq, dpa := dpaOf s1 d (f.val 0), isBar := false, cmpEq := eq
           target := f.val 1, last := v }] }
      putFlight s2 q { f with phase := .waiting }

/-- R187 step 2: the two words of a barrier object after an arrival. -/
def arrive (w0 gen parts : Nat) : Nat × Nat :=
  let count := if bits w0 31 16 = 0 then parts else bits w0 31 16
  let arrived := bits w0 15 0 + 1
  if arrived = count then (0, (gen + 1) % 2 ^ 64) else (arrived % 2 ^ 16 + count * 2 ^ 16, gen)

/-- X.BAR after its release: the arrival, then the wait for a GEN other than the one the arrival found. -/
def barAct (q : Nat) (s : State) (f : Flight) : State :=
  let d := dkOf s q
  match dkRead s d .stream (f.val 0) 16 with
  | (s1, .bad c p) => memFault s1 q f c p
  | (s1, .ok bs) =>
    let gen := fieldAt bs 8 8
    let (w0, g) := arrive (fieldAt bs 0 8) gen (f.val 1)
    match dkWrite s1 d .stream (f.val 0) (leBytes 8 w0 ++ (if g = gen then [] else leBytes 8 g)) with
    | (s2, some (c, p)) => memFault s2 q f c p
    | (s2, none) =>
      if g != gen then wrS (dropFlight s2 q f.stream f.seq) q f.stream (f3Of f.w) g
      else
        let s3 := { s2 with waits := s2.waits ++
          [{ quire := q, stream := f.stream, seq := f.seq, dpa := dpaOf s2 d (f.val 0 + 8), isBar := true, cmpEq := false
             target := gen, last := gen }] }
        putFlight s3 q { f with phase := .waiting }

/-- A waiting X.WAIT (`sub` 1) or X.BAR (`sub` 3) whose condition has been met ends. -/
def waitEnd (q st sub : Nat) (s : State) : State :=
  match (s.waits.find? (fun w => w.quire == q && w.stream == st && w.met.isSome && w.isBar == (sub == 3))) with
  | some w =>
    match findFlight s q st w.seq with
    | some f => settleQuire (wrS (dropWait (dropFlight s q st f.seq) q st f.seq) q st (f3Of f.w) (w.met.getD 0)) q
    | none => s
  | none => s

/-- X.WAIT times out: it writes the last observed value. -/
def waitTimeout (q st : Nat) (s : State) : State :=
  match (s.waits.find? (fun w => w.quire == q && w.stream == st && w.met.isNone && !w.isBar)) with
  | some w =>
    match findFlight s q st w.seq with
    | some f =>
      if optF f.w 15 0 = 0 then s
      else settleQuire (wrS (dropWait (dropFlight s q st f.seq) q st f.seq) q st (f3Of f.w) w.last) q
    | none => s
  | none => s

/-! ### Mailboxes (R188–R192) -/

/-- Instructions waiting in a half of the mailbox queue (R188). -/
def inHalf (x : Quire) (p : Part) : List Flight := x.flights.filter (fun f => f.part == p && f.phase != .inMesh)

/-- Sends of a quire neither placed nor returned, and returns on their way. -/
def meshOf (s : State) (q : Nat) : Nat := (s.mesh.filter (fun m => m.src == q)).length

/-- No earlier instruction of the stream waits in the same half. -/
def firstInHalf (x : Quire) (f : Flight) : Bool :=
  !(inHalf x f.part).any (fun g => g.stream == f.stream && decide (g.seq < f.seq))

/-- A flit at the mesh port of quire `q` is decoded on its way: one inverted bit is corrected, and more are uncorrectable (Table 17.2). -/
def flitCheck (s : State) (q : Nat) : State :=
  if s.dram.upsets.isEmpty then s else
  let s1 := dropCell s (.flit q)
  let p := pOf s q
  if worstWord s (.flit q) < 2 then s1 else raise s1 (mkEvent 3 2 (19 * (1 + p / 17) + 1 + p % 17) 0x02)

/-- Send one message into the mesh (R189). -/
def sendOne (q : Nat) (s : State) (f : Flight) : State :=
  match spadRead s q (f.val 1) 64 with
  | (s1, none) => exFault s1 q f 0x30
  | (s1, some bs) =>
    let e := (quire s1 q).epoch
    let m : Msg := { quire := q, stream := f.stream, tag := bits (f.val 0) 15 8, bounced := false
                     epoch := bits (f.val 0) 63 32, senderEpoch := e, bfault := bit f.w.low.toNat 21, seq := f.seq, payload := bs }
    putFlight { s1 with mesh := s1.mesh ++ [{ src := q, dst := bits (f.val 0) 5 0, msg := m }] } q
      { f with phase := .inMesh, spRd := [] }

/-- X.SENDs that wait in their half are sent while the limit of R188 admits them. -/
def sendPump (q : Nat) : Nat → State → State
  | 0, s => s
  | n + 1, s =>
    let x := quire s q
    if meshOf s q + x.returns.length ≥ 8 then s
    else match (inHalf x .mboxSend).find? (fun f => f.phase == .queued && firstInHalf x f) with
      | some f => sendPump q n (sendOne q s f)
      | none => s

/-- Table 06.5. -/
def headerWord (m : Msg) : Nat :=
  m.quire + 256 * m.stream + 65536 * m.tag + 2 ^ 24 * b2n m.bounced
    + 2 ^ 32 * (if m.bounced then m.epoch else m.senderEpoch)

/-- The message an X.RECV takes: the oldest that matches, apart from those `taken` by X.RECVs that issued before it, as (RET, index). -/
def matching (x : Quire) (taken : List (Bool × Nat)) (f : Flight) : Option (Nat × Msg) :=
  let ret := bit f.w.low.toNat 20
  let l := if ret then x.returns else x.arrivals
  (l.zipIdx.find? (fun m => (bit f.w.low.toNat 22 || m.1.tag == f.val 2) && !taken.contains (ret, m.2))).map (fun m => (m.2, m.1))

/-- The first X.RECV that can go on: it has a message and no reservation holds its write back (R46), or it has NB and no message. -/
def recvNext (x : Quire) : List (Bool × Nat) → List Flight → Option (Flight × Option (Nat × Msg))
  | _, [] => none
  | taken, f :: fs =>
    match matching x taken f with
    | some m => if reservedFrom x f then recvNext x ((bit f.w.low.toNat 20, m.1) :: taken) fs else some (f, some m)
    | none => if bit f.w.low.toNat 21 then some (f, none) else recvNext x taken fs

/-- An X.RECV takes a message and ends. -/
def recvOne (q : Nat) (s : State) (f : Flight) (i : Nat) (m : Msg) : State :=
  let x := quire s q
  let y := if bit f.w.low.toNat 20 then { x with returns := dropNth x.returns i } else { x with arrivals := dropNth x.arrivals i }
  let s1 := spadWrite (dropFlight (setQuire s q y) q f.stream f.seq) q (f.val 0) m.payload
  wrS s1 q f.stream f.w.f2.toNat (headerWord m)

/-- X.RECVs that wait in their half take messages, oldest instruction first; one with NB that meets none ends EMPTY. -/
def recvPump (q : Nat) : Nat → State → State
  | 0, s => s
  | n + 1, s =>
    let x := quire s q
    match recvNext x [] ((inHalf x .mboxRecv).filter (fun f => f.phase == .receiving && firstInHalf x f)) with
    | none => s
    | some (f, some (i, m)) => recvPump q n (recvOne q s f i m)
    | some (f, none) => recvPump q n (wrS (dropFlight s q f.stream f.seq) q f.stream f.w.f2.toNat (2 * 2 ^ 24))

/-- The mailbox moves on, and the quire's streams settle. -/
def mailbox (q : Nat) (s : State) : State := settleQuire (sendPump q 16 (recvPump q 16 s)) q

/-- R189: the checks of X.SEND. -/
def planSend (q : Nat) (s : State) (f : Flight) : Issue :=
  let w := f.val 0
  { fault := firstFault [if bits w 7 6 != 0 || bits w 31 16 != 0 then 1 else 0,
      if deckleOfQuire s (bits w 5 0) == deckleOfQuire s q then 0 else 3, spadCheck (f.val 1) 64 64]
    full := decide ((inHalf (quire s q) .mboxSend).length ≥ 8)
    f := { f with part := .mboxSend, spRd := [(f.val 1, 64)] } }

/-- The checks of X.RECV. -/
def planRecv (q : Nat) (s : State) (f : Flight) : Issue :=
  { fault := firstFault [if f.val 2 ≥ 256 then 1 else 0, spadCheck (f.val 0) 64 64]
    full := decide ((inHalf (quire s q) .mboxRecv).length ≥ 8)
    f := { f with part := .mboxRecv, spWr := [(f.val 0, 64)] } }

/-- A mailbox instruction enters its half, after its release ordering where it has one. -/
def mboxStart (q : Nat) (s : State) (f : Flight) (ph : Phase) : State :=
  if f.w.ord.toNat ≥ 2 && !fenceHolds s q f 3 then putFlight s q { f with phase := .fence 3 }
  else mailbox q (putFlight s q { f with phase := ph })

/-- R190: the first message from `src` to `dst` reaches its destination. -/
def messageArrive (src dst : Nat) (s0 : State) : State :=
  let s := flitCheck s0 dst
  match findIx (fun (m : MeshMsg) => m.src == src && m.dst == dst && !m.isReturn) s.mesh with
  | none => s
  | some i =>
    match s.mesh[i]? with
    | none => s
    | some m =>
      let x := quire s dst
      if m.refused then s
      else if m.msg.epoch != x.epoch then { s with mesh := dropNth s.mesh i ++ [{ m with isReturn := true }] }
      else if x.arrivals.length ≥ 56 then { s with mesh := setNth s.mesh i { m with refused := true } }
      else
        let s1 := setQuire { s with mesh := dropNth s.mesh i } dst { x with arrivals := x.arrivals ++ [m.msg] }
        mailbox src (mailbox dst (dropFlight s1 src m.msg.stream m.msg.seq))

/-- R190: the refused message from `src` to `dst` is sent again. -/
def messageResend (src dst : Nat) (s : State) : State :=
  match findIx (fun (m : MeshMsg) => m.src == src && m.dst == dst && !m.isReturn) s.mesh with
  | none => s
  | some i => match s.mesh[i]? with
    | none => s
    | some m => { s with mesh := setNth s.mesh i { m with refused := false } }

/-- R191, R195: a returned message reaches its sender. -/
def returnArrive (q : Nat) (s0 : State) : State :=
  let s := flitCheck s0 q
  match findIx (fun (m : MeshMsg) => m.src == q && m.isReturn) s.mesh with
  | none => s
  | some i =>
    match s.mesh[i]? with
    | none => s
    | some m =>
      let x0 := quire s q
      let x := { x0 with bounced := satInc 32 x0.bounced 1 }
      let s1 := setQuire { s with mesh := dropNth s.mesh i } q x
      let lost := setQuire s1 q { x with dropped := satInc 32 x.dropped 1 }
      let s2 :=
        if m.msg.senderEpoch != x.epoch then dropFlight lost q m.msg.stream m.msg.seq
        else if m.msg.bfault then
          match findFlight s1 q m.msg.stream m.msg.seq with
          | some f => exFault s1 q f 0x50
          | none => s1
        else if x.returns.length ≥ 8 then dropFlight lost q m.msg.stream m.msg.seq
        else dropFlight (setQuire s1 q { x with returns := x.returns ++ [{ m.msg with quire := m.dst, bounced := true }] }) q
          m.msg.stream m.msg.seq
      mailbox q s2

/-! ### Roles (R193, R194) -/

/-- R194: the steps of an accepted assignment. -/
def assignRole (s : State) (q role : Nat) : State :=
  let x := quire s q
  let back := x.arrivals.map (fun m => ({ src := m.quire, dst := q, isReturn := true, msg := m } : MeshMsg))
  setQuire { s with mesh := s.mesh ++ back } q
    { x with epoch := (x.epoch + 1) % 2 ^ 32, arrivals := [], returns := []
             dropped := satInc 32 x.dropped x.returns.length, role := role, reject := false }

/-- R193: a request for a role. -/
def roleRequest (p role : Nat) (s : State) : State :=
  match (phys s p).logical with
  | none => s
  | some q =>
    let x := quire s q
    let idle := (List.range 8).all (fun st => (x.stream st).state == .idle)
    if (deckleOfQuire s q).isSome && !(phys s p).fenced && idle && !x.flights.any (fun f => f.part == .mboxSend) then
      mailbox q (assignRole s q role)
    else setQuire s q { x with reject := true }

/-- R169: the FAULTED streams named in RELEASE are released. -/
def releaseStreams (p m : Nat) (s : State) : State :=
  match (phys s p).logical with
  | none => s
  | some q => (setBitsOf 8 m).foldl (fun s st =>
      if (stream s q st).state == .faulted && !(stream s q st).leaving then finishLeave (beginLeave s q st) q st else s) s

/-! ### Meanings -/

/-- X.FENCE. -/
def execXFence (q st : Nat) (w : IWord) (s : State) : Res :=
  .next (issue s q st w { maj := 0x23, sub := 0, opt := maskOf 22 20, codes := decide (optF w 22 20 ≤ 4) } planNone (fenceStart q))
/-- X.WAIT. -/
def execXWait (q st : Nat) (w : IWord) (s : State) : Res :=
  .next (issue s q st w
    { maj := 0x23, sub := 1, f1 := .s, f2 := .s, f3 := .sw, opt := maskOf 22 19 + maskOf 15 0, codes := scopeOk w, effect := true }
    (planAt 8) (waitStart q))
/-- X_WAIT_END. -/
def execXWaitEnd (q st : Nat) (s : State) : Res := .next (waitEnd q st 1 s)
/-- X_WAIT_TIMEOUT. -/
def execXWaitTimeout (q st : Nat) (s : State) : Res := .next (waitTimeout q st s)
/-- X.SIGNAL. -/
def execXSignal (q st : Nat) (w : IWord) (s : State) : Res :=
  .next (issue s q st w
    { maj := 0x23, sub := 2, f1 := .s, f2 := .s, f3 := .sw, opt := maskOf 22 20, codes := scopeOk w, effect := true }
    (planAt 8) (fun s f => releaseFirst s q f (optF w 22 20) (signalAct q)))
/-- X.BAR. -/
def execXBar (q st : Nat) (w : IWord) (s : State) : Res :=
  .next (issue s q st w
    { maj := 0x23, sub := 3, f1 := .s, f2 := .s, f3 := .sw, opt := maskOf 22 20, codes := scopeOk w, effect := true }
    (fun s f =>
      let i := planAt 16 s f
      { i with fault := firstFault [i.fault, if f.val 1 = 0 || f.val 1 > 512 then 1 else 0] })
    (fun s f => releaseFirst s q f (optF w 22 20) (barAct q)))
/-- X_BAR_RELEASE. -/
def execXBarRelease (q st : Nat) (s : State) : Res := .next (waitEnd q st 3 s)
/-- X.SEND. -/
def execXSend (q st : Nat) (w : IWord) (s : State) : Res :=
  .next (issue s q st w { maj := 0x23, sub := 4, f1 := .s, f2 := .s, opt := maskOf 21 21, ord := true, effect := true } (planSend q)
    (fun s f => mboxStart q s f .queued))
/-- X.RECV. -/
def execXRecv (q st : Nat) (w : IWord) (s : State) : Res :=
  .next (issue s q st w
    { maj := 0x23, sub := 5, f1 := .s, f2 := .sw, f3 := .s, opt := maskOf 22 20, ord := true, effect := true } (planRecv q)
    (fun s f => mboxStart q s f .receiving))
/-- X.END. -/
def execXEnd (q st : Nat) (w : IWord) (s : State) : Res :=
  .next (issue s q st w { maj := 0x23, sub := 6 } planNone (fun s _ => setStream s q st { stream s q st with ending := true }))
/-- MESSAGE_ARRIVAL. -/
def execMessageArrival (src dst : Nat) (s : State) : Res := .next (messageArrive src dst s)
/-- MESSAGE_RESEND. -/
def execMessageResend (src dst : Nat) (s : State) : Res := .next (messageResend src dst s)
/-- RETURN_ARRIVAL. -/
def execReturnArrival (q : Nat) (s : State) : Res := .next (returnArrive q s)
/-- ROLE_ASSIGNMENT. -/
def execRoleAssignment (fn p : Nat) (value : Word) (s : State) : Res :=
  .next (ownWrite s fn .qreRole p value.toNat (roleRequest p (bits value.toNat 1 0)))
/-- RELEASE. -/
def execRelease (fn p : Nat) (value : Word) (s : State) : Res :=
  .next (ownWrite s fn .qreStrCtl p value.toNat (releaseStreams p (bits value.toNat 15 8)))

end Sys2Proof.Machine
end

