-- ==== Sys2Proof/Machine/Reset.lean ====
section
/-! DEFINITION. What COLD, WARM and QUIRE resets clear and keep (Table 20.1, R562), and fencing (R518). -/

namespace Sys2Proof.Machine

/-! ### Device resets -/

/-- The PLLs of the main domains after a device reset: each domain returns to its primary PLL (R415, Table 20.1), and a PLL whose
reference is lost is not locked (R413), so that a domain without CORE_REFCLK runs on its standby. -/
def relocked (lost : List Nat) : Tab Domain :=
  if !(lost.contains 1 || lost.contains 2) then [] else
  (List.range 12).map (fun d => (d,
    { onStandby := lost.contains 1 && !lost.contains 2, primLocked := !lost.contains 1, stbyLocked := !lost.contains 2 }))

/-- What lies outside the device, or in fuses, flash and the input filters, over the state `x`. -/
def keepOutside (s x : State) : State :=
  { x with
    pending := s.pending
    now := s.now
    out := s.out
    freeCount := s.freeCount
    fuses := s.fuses
    banks := s.banks
    pins := s.pins
    host.mem := s.host.mem
    clk := { x.clk with lost := s.clk.lost, domains := relocked s.clk.lost }
    power.input := s.power.input
    power.rails := s.power.rails
    power.tripped := s.power.tripped
    ev.deferred := s.ev.deferred }

/-- COLD (Table 20.1): everything but fuses and flash. -/
def coldState (s : State) : State := { keepOutside s State.reset with ev.deferred := [] }

/-- The sticky fields of the registers (ROS and RWS, R10). -/
def stickyRegs (t : Tab Nat) : Tab Nat :=
  t.filterMap (fun p => match regAt p.1 with
    | none => none
    | some h =>
      let m := stickyMask h.row
      let v := andNot (resetOf h.row) m + (p.2 &&& m)
      if v = resetOf h.row then none else some (p.1, v))

/-- What a WARM reset keeps of a physical quire: retirement, fence and partner. -/
def warmPhys (x : Phys) : Phys := { retired := x.retired, fenced := x.fenced, partner := x.partner }

/-- WARM (Table 20.1): sticky fields, retirements, fences and pending hard repairs stay. -/
def warmState (s : State) : State :=
  let x := { keepOutside s State.reset with
    regs := stickyRegs s.regs
    phys := s.phys.map (fun p => (p.1, warmPhys p.2))
    ctls := s.ctls.map (fun p => (p.1, { pendingHard := p.2.pendingHard })) }
  -- the fields of SEC_STS that come from fuses: LC, SEALONLY, ARB
  let y := [(2, 0), (4, 4), (23, 16)].foldl (fun y f => fset y .secSts f.1 f.2 (fget s .secSts f.1 f.2)) x
  fadd y .gctBoot 39 32 1

/-- Every rail is off: nothing keeps state or runs (R527). -/
def railsOff (s : State) : State := { coldState s with power.rails := false }

/-- The rails restart: a COLD reset, unless a trip is latched, the input is out of range or SHUTDN_N holds them off. -/
def railsOn (s : State) : State :=
  if s.power.tripped || !s.power.input || (pin s 3).asserted then s else { coldState s with power.rails := true }

/-! ### A quire's work ends (R562, R479) -/

/-- In-flight instructions of a quire are abandoned: what they wait for ends; an A. instruction leaves its session as R282 and R446
say. -/
def abandonFlights (s : State) (q : Nat) : State :=
  let s1 := (List.range 8).foldl (fun s st => endWaits s q st) s
  let s2 := ((quire s1 q).flights.filter (fun f => f.maj == 0x1C)).foldl (fun s f => endDraw s f) s1
  setQuire s2 q { quire s2 q with flights := [], pipeBusy := 0, prefetch := [] }

/-- A stream that runs, drains or is faulted becomes IDLE; its DISPATCH completes with ABORTED_TENANT and its open step closes without
commit. -/
def abortStream (q : Nat) (s : State) (st : Nat) : State :=
  let x := stream s q st
  if x.state = .idle then s else
  let s0 := closeStep s q st false
  let s1 := if x.recorded then s0 else complete s0 x.ring x.desc 2 0 0
  let y := stream s1 q st
  setStream s1 q st { y with state := .idle, ending := false, recorded := false, leaving := false, step := none }

/-- What a stream keeps when its quire is cleared: its place in program order and, for a QUIRE reset, its fault record. -/
def clearedStream (q st : Nat) (keepFault : Bool) (x : Stream) : Stream :=
  { nextSeq := x.nextSeq, fault := if keepFault then x.fault else none, sregs := startRegs q st 0 0 0 }

/-- The L1 data cache of a quire is written back and invalidated, and its storage is zeroed (R562 steps 4 and 5, R480). -/
def clearQuire (s0 : State) (q : Nat) (keepFault : Bool) : State :=
  let s := match physOf s0 q with
    | some p => l1Flush s0 p
    | none => s0
  let x := quire s q
  let y : Quire := { x with
    spad := [], spadPoison := [], handles := [], tiles := [], flights := [], pipeBusy := 0, lastServed := [], prefetch := [], upsets := []
    strikes := [], polyHeld := none
    hold := if keepFault then x.hold else 0 }
  setQuire s q ((List.range 8).foldl (fun y st => y.setStream st (clearedStream q st keepFault (x.stream st))) y)

/-- A QUIRE reset (R562). -/
def resetQuire (s : State) (q : Nat) : State :=
  let s1 := (List.range 8).foldl (abortStream q) (abandonFlights s q)
  mailbox q (assignRole (clearQuire s1 q true) q 0)

/-- QRE_RST.GO (R561). -/
def quireResetReq (p : Nat) (s : State) : State :=
  let res (s : State) (r : Nat) : State := fset s .qreRst 3 2 r p
  match (phys s p).logical with
  | none => res s 2
  | some q =>
    if (phys s p).retired || (phys s p).fenced then res s 2
    else match deckleOfQuire s q with
      | some d => if (deckle s d).phase = .active then res (resetQuire s q) 1 else fset s .qreRst 1 0 3 p
      | none => res (resetQuire s q) 1

/-! ### Fencing (R518) -/

/-- A stream of a fenced quire that held no fault record faults with RESIDUE_FAIL. -/
def fenceStream (q : Nat) (s : State) (st : Nat) : State :=
  let x := stream s q st
  if x.state = .running then
    streamFault s q st { code := 0x31, multi := false, exec := true, maj := 0, sub := 0, pc := x.pc, seq := x.nextSeq }
  else s

/-- A quire is fenced. -/
def fenceQuire (s : State) (p : Nat) : State :=
  match (phys s p).logical with
  | none => s
  | some q =>
    let s1 := settleQuire ((List.range 8).foldl (fenceStream q) s) q
    let s2 := setPhys (mailbox q (assignRole s1 q 0)) p { phys s1 p with fenced := true }
    qreRaise s2 p (mkEvent 2 11 p 0x13 (deckleOfQuire s2 q))

/-! ### Numbering (R23, R519) -/

/-- The quire that is active in the place of physical quire `p`: itself, or the spare that replaced it. -/
def placeOf (s : State) : Nat → Nat → Option Nat
  | 0, _ => none
  | n + 1, p =>
    let x := phys s p
    if x.fenced then none
    else if !x.retired then some p
    else if x.partner < 68 then placeOf s n x.partner
    else none

/-- Logical numbers go to the active quires in ascending order. -/
def numberQuires (s : State) : State :=
  let l := ((List.range 68).filter (fun p => !s.fuses.spares.contains p)).filterMap (placeOf s 6)
  let s1 := { s with phys := s.phys.map (fun x => (x.1, { x.2 with logical := none })) }
  let s2 := l.zipIdx.foldl (fun s x => setPhys s x.1 { phys s x.1 with logical := some x.2 }) s1
  fset s2 .idnCap 15 8 l.length

end Sys2Proof.Machine
end

