-- ==== Sys2Proof/Machine/Power.lean ====
section
/-! DEFINITION. Power and thermal control: the ladder, limiters, cap loop, guards, sideband responses, calibration, temperature
(ch. 18). -/

namespace Sys2Proof.Machine

/-- The power controller runs (R587): from the end of boot step 9. -/
def powerRuns (s : State) : Bool := s.power.rails && s.boot.ready

/-! ### Position and limits (R528, R529) -/

/-- Table 18.2: the ACLK LIMIT of a position. -/
def limitOf (l : Nat) : Nat := if l ≤ 6 then 0 else l - 7

/-- Issue duty of a position, in eighths. -/
def dutyOf (l : Nat) : Nat := if l ≤ 6 then l + 1 else 8

/-- The device takes a position; ACLK's LIMIT follows. -/
def setL (l : Nat) (s : State) : State := fset { s with power.l := l } .clkAclk 21 16 (limitOf l)

/-- A field of PWR_CTL as it acts. -/
def ctlPos (v : Nat) : Nat := min 43 v

/-- The position the temperature allows. -/
def tempMax (s : State) : Nat := if s.power.crit != 0 then 0 else s.power.lTemp

/-- The position calibration allows. -/
def calMax (s : State) : Nat := 7 + min s.power.tableMax s.power.calstep

/-- LMAX: the least of the limiters' positions. -/
def lmax (s : State) : Nat :=
  let throt := if (pin s 2).asserted then ctlPos (fget s .pwrCtl 5 0) else 43
  let brake := if (pin s 1).asserted then ctlPos (fget s .pwrCtl 13 8) else 43
  min (min throt brake) (min (tempMax s) (min 43 (calMax s)))

/-- A forced reduction to at most `l`. -/
def forceL (l : Nat) (s : State) : State := setL (min s.power.l l) s

/-! ### Input power (R531, R532) -/

/-- CAP in mW. -/
def capMw (s : State) : Nat :=
  1000 * (if (pin s 1).asserted then 600 else min 1400 (max 600 (fget s .pwrCap 10 0)))

/-- The mean of the last `n` samples, in mW. -/
def meanOf (s : State) (n : Nat) : Nat :=
  let l := s.power.samples.take n
  if l.isEmpty then 0 else (l.foldl (· + ·) 0) / l.length

/-- The hottest of a range of sensors, in 0.125 °C. -/
def hottest (temps : List Nat) (lo hi : Nat) : Nat := ((temps.drop lo).take (hi + 1 - lo)).foldl max 0

/-- The hottest die sensor: quires, slices and SerDes. -/
def hottestDie (temps : List Nat) : Nat := max (hottest temps 0 99) (hottest temps 124 127)

/-- Table 18.5: PWR_TEL is updated. -/
def telemetryUpdate (s : State) : State :=
  let pin := if s.sealed then meanOf s 100000 / 10000 * 40 else meanOf s 1000 / 250
  let t := hottestDie s.power.temps
  let tm := if s.sealed then t / 8 * 8 else t
  rset s .pwrTel (pin % 65536 + 65536 * (tm % 4096) + 2 ^ 32 * ((fget s .pwrTel 63 32 + 1) % 2 ^ 32))

/-- INPUT_SAMPLE: one sample of input voltage and current. -/
def sampleInput (mv ma : Nat) (s : State) : State :=
  if !powerRuns s then s else
  let odd := (46000 ≤ mv && mv < 48000) || (58000 < mv && mv ≤ 60000)
  let p := s.power
  let s1 := { s with power := { p with samples := (mv * ma / 1000 :: p.samples).take 100000, ticks := p.ticks + 1, vinOdd := odd } }
  let p10 := meanOf s1 10
  let s2 := { s1 with
    power.excursion := p.excursion && decide (p10 > capMw s1)
    power.peak := p.peak && decide (p10 > 1650000) }
  let s3 := if odd && !p.vinOdd then raise s2 (mkEvent 0 9 0 0x01) else s2
  if (p.ticks + 1) % (if s.sealed then 100000 else 1000) = 0 then telemetryUpdate s3 else s3

/-- TICK: at 50 µs L moves by one position (R529, R531). -/
def tickStep (s : State) : State :=
  if !powerRuns s then s else
  let p1m := meanOf s 1000
  let above := p1m > capMw s
  let may := p1m + 20000 < capMw s
  let s1 := { s with power.capped := above || (s.power.capped && !may) }
  let l := s.power.l
  if l > lmax s || above then setL (l - 1) s1
  else if l < lmax s && may then setL (l + 1) s1
  else s1

/-- EXCURSION (R532). -/
def excursionStep (s : State) : State :=
  if !powerRuns s || meanOf s 10 ≤ capMw s then s else
  let s1 := setL (s.power.l - 8) s
  if s.power.excursion then s1
  else raise (fadd { s1 with power.excursion := true } .pwrCnt 47 32 1) (mkEvent 0 9 0 0x02)

/-- PEAK (R532). -/
def peakStep (s : State) : State :=
  if !powerRuns s || meanOf s 10 ≤ 1650000 then s else
  let s1 := setL (s.power.l - 16) s
  if s.power.peak then s1 else raise { s1 with power.peak := true } (mkEvent 0 9 0 0x03)

/-! ### Droop (R533) -/

/-- DROOP. -/
def droopStep (p : Nat) (s : State) : State := if p < 68 && powerRuns s then setPhys s p { phys s p with droop := true } else s
/-- DROOP_RECOVERY. -/
def droopEnd (p : Nat) (s : State) : State := if p < 68 then setPhys s p { phys s p with droop := false } else s

/-! ### Sideband inputs (R534) -/

/-- The filter output of input `i` becomes asserted or released. -/
def pinTo (i : Nat) (on : Bool) (s : State) : State :=
  setPin s i { pin s i with raw := on, out := on, held := if on then (pin s i).held else false }

/-- What the assertion of a filter output does (Table 18.3, R563): PERST_N holds the device in a WARM reset, which also abandons a boot
sequence; PWRBRK_N and THROT_N force L; SHUTDN_N stops issue. -/
def pinActs (i : Nat) (s : State) : State :=
  match i with
  | 0 => if s.power.rails && !s.boot.held then warmState s else s
  | 1 => if powerRuns s then forceL (ctlPos (fget s .pwrCtl 13 8)) s else s
  | 2 => if powerRuns s then forceL (ctlPos (fget s .pwrCtl 5 0)) s else s
  | 3 => if s.power.rails then { s with power.stopping := true } else s
  | _ => s

/-- PWRBRK_N_ASSERT. -/
def brakeOn (s : State) : State := pinActs 1 (pinTo 1 true s)

/-- THROT_N_ASSERT. -/
def throtOn (s : State) : State := pinActs 2 (pinTo 2 true s)

/-- A release of an input whose filter is not forced. -/
def pinOff (i : Nat) (s : State) : State := if (pin s i).forced then s else pinTo i false s

/-- SHUTDN_N_ASSERT: issue stops (R534). -/
def shutdownOn (s : State) : State := pinActs 3 (pinTo 3 true s)

/-- SHUTDOWN_RAILS_OFF. -/
def shutdownOff (s : State) : State := if s.power.rails && s.power.stopping then railsOff s else s

/-- SHUTDN_N is inactive again: a COLD reset of rails that are off or about to go off. -/
def restart (s : State) : State := if s.power.rails && !s.power.stopping then s else railsOn s

/-- SHUTDN_N_RELEASE: rails that are off restart; a release before they went off leaves them to go off and restart. -/
def shutdownEnd (s : State) : State := if (pin s 3).forced then s else restart (pinTo 3 false s)

/-- INPUT_OUT_OF_RANGE (R525). -/
def inputLost (s : State) : State := { railsOff s with power.input := false }

/-- POWER_APPLIED (R525): a trip is cleared, since power had been removed. -/
def inputBack (s : State) : State :=
  if s.power.input && s.power.rails then s else railsOn { s with power.input := true, power.tripped := s.power.tripped && s.power.input }

/-! ### Calibration (R536) -/

/-- CALDROP. -/
def caldropStep (s : State) : State :=
  if !powerRuns s then s else
  let n := (if s.power.calstep = 36 then s.clk.aclk else s.power.calstep) - 1
  let s1 := forceL (7 + n) { s with power.calstep := n }
  raise (fadd s1 .pwrCnt 63 48 1) (mkEvent 0 9 0 0x06)

/-- Some stream is RUNNING or DRAINING. -/
def anyRunning (s : State) : Bool :=
  s.quires.any (fun q => q.2.streams.any (fun x => x.2.state == .running || x.2.state == .draining))

/-- IDLE_WINDOW: the steps above CALSTEP have been measured again. -/
def idleStep (t : Nat) (s : State) : State :=
  let p := s.power
  if !powerRuns s || anyRunning s || p.calstep ≥ 36 then s
  else raise { s with power := { p with tableMax := max (min p.calstep p.tableMax) (min t p.tableMax), calstep := 36 } } (mkEvent 0 9 0 0x07)

/-! ### Temperature (R537) -/

/-- The sensor classes: first and last sensor, and whether memory thresholds apply. -/
def tempClasses : List (Nat × Nat × Bool) :=
  [(0, 67, false), (68, 99, false), (100, 107, true), (108, 123, true), (124, 127, false), (128, 135, false)]

/-- SENSOR_READ: the 136 sensors, and what PWR_RAILr measures of the rails at the same moment. -/
def readSensors (temps : List Nat) (rails : List (Nat × Nat)) (s : State) : State :=
  if !powerRuns s then s else
  let thr (m : Bool) (die mem : Nat) : Nat := 8 * (if m then mem else die)
  let (w, h, c) := (fget s .pwrTempThr 7 0, fget s .pwrTempThr 15 8, fget s .pwrTempThr 23 16)
  let hot (k : Nat × Nat × Bool) : Nat := hottest temps k.1 k.2.1
  let hotter (die mem : Nat) : Nat :=
    tempClasses.zipIdx.foldl (fun m k => if hot k.1 > thr k.1.2.2 die mem then m + 2 ^ k.2 else m) 0
  if hotter 125 110 != 0 then { railsOff s with power.tripped := true } else
  let (warn, crit) := (hotter w 85, hotter c 105)
  let hotNow := hotter h 95 != 0
  let cool := tempClasses.all (fun k => decide (hot k + 24 ≤ thr k.2.2 h 95))
  let p := s.power
  let lt := if hotNow then p.lTemp - 1 else if cool then min 43 (p.lTemp + 1) else p.lTemp
  let s1 := { s with power := { p with temps := temps.take 136, reads := p.reads + 1, lTemp := lt, warned := warn, crit := crit } }
  let sr := (List.range 8).foldl (fun s r => rset s .pwrRail ((rails.getD r (0, 0)).1 % 65536 + 65536 * ((rails.getD r (0, 0)).2 % 65536)) r) s1
  let s2 := (List.range 136).foldl (fun s n => rset s .pwrSens (temps.getD n 0 % 4096) n) sr
  let newW := popcount 8 (andNot warn p.warned)
  let newC := popcount 8 (andNot crit p.crit)
  let s3 := times (fun s => raise s (mkEvent 0 9 0 0x04)) newW s2
  let s4 := times (fun s => raise s (mkEvent 2 9 0 0x05)) newC s3
  let s5 := if newW + newC != 0 then fset s4 .gctAlert 0 0 1 else s4
  if crit != 0 then setL 0 s5 else s5

/-! ### Meanings -/

/-- POWER_APPLIED. -/
def execPowerApplied (s : State) : Res := .next (inputBack s)
/-- INPUT_OUT_OF_RANGE. -/
def execInputOutOfRange (s : State) : Res := .next (inputLost s)
/-- INPUT_SAMPLE. -/
def execInputSample (mv ma : Nat) (s : State) : Res := .next (sampleInput mv ma s)
/-- PWRBRK_N_ASSERT. -/
def execPwrbrkNAssert (s : State) : Res := .next (brakeOn s)
/-- PWRBRK_N_RELEASE. -/
def execPwrbrkNRelease (s : State) : Res := .next (pinOff 1 s)
/-- THROT_N_ASSERT. -/
def execThrotNAssert (s : State) : Res := .next (throtOn s)
/-- THROT_N_RELEASE. -/
def execThrotNRelease (s : State) : Res := .next (pinOff 2 s)
/-- SHUTDN_N_ASSERT. -/
def execShutdnNAssert (s : State) : Res := .next (shutdownOn s)
/-- SHUTDOWN_RAILS_OFF. -/
def execShutdownRailsOff (s : State) : Res := .next (shutdownOff s)
/-- SHUTDN_N_RELEASE. -/
def execShutdnNRelease (s : State) : Res := .next (shutdownEnd s)
/-- TICK. -/
def execTick (s : State) : Res := .next (tickStep s)
/-- EXCURSION. -/
def execExcursion (s : State) : Res := .next (excursionStep s)
/-- PEAK. -/
def execPeak (s : State) : Res := .next (peakStep s)
/-- DROOP. -/
def execDroop (p : Nat) (s : State) : Res := .next (droopStep p s)
/-- DROOP_RECOVERY. -/
def execDroopRecovery (p : Nat) (s : State) : Res := .next (droopEnd p s)
/-- SENSOR_READ. -/
def execSensorRead (x : Sensors) (s : State) : Res := .next (readSensors x.temps x.rails s)
/-- CALDROP. -/
def execCaldrop (s : State) : Res := .next (caldropStep s)
/-- IDLE_WINDOW. -/
def execIdleWindow (tableMax : Nat) (s : State) : Res := .next (idleStep tableMax s)

end Sys2Proof.Machine
end

