-- ==== Sys2Proof/Machine/Boot.lean ====
section
/-! DEFINITION. PERST_N, GCT_RESET, QRE_RST and the boot sequence (ch. 20; R454, R462, R466, R467, R470, R471). -/

namespace Sys2Proof.Machine

/-! ### Derived keys -/

/-- The life-cycle state as a byte. -/
def lcByte (s : State) : Byte := BitVec.ofNat 8 s.fuses.lc

/-- The 48-byte seed of the Watermark key (Table 16.4). -/
def wmkSeed (s : State) (imgdig : List Byte) : List Byte := kdf s.fuses.drs "QA76 WMK" (lcByte s :: imgdig) 384

/-- MEK_d for the next use of deckle `d`, whose MEMGEN is `gen` (Table 16.4). -/
def mekOf (s : State) (d gen : Nat) : List Byte :=
  kdf s.fuses.drs "QA76 MEK" ([lcByte s, BitVec.ofNat 8 d] ++ beBytes 8 s.boot.bootcnt ++ beBytes 4 gen) 512

/-- The bytes the endorsement signs (R470). -/
def endorseBytes (s : State) (pub imgdig : List Byte) : List Byte :=
  ascii "QWE1" ++ pub ++ imgdig ++ [lcByte s] ++ beBytes 8 s.boot.bootcnt

/-- Store 32 bytes in four 64-bit registers. -/
def storeDigest (r : Reg) (bs : List Byte) (s : State) : State :=
  (List.range 4).foldl (fun s k => rset s r (fieldAt bs (8 * k) 8) k) s

/-- The identity of an image takes effect: IMGDIG, SEQ, the Watermark key, its pairwise test and the endorsement (R468, R470, R471). -/
def takeImage (s : State) (im : ImageInfo) (pctOk : Bool) : State :=
  let pub := Config.slhPublic (wmkSeed s im.digest)
  let s1 := { s with
    boot.running := some im
    boot.wmkPub := pub
    boot.endorse := Config.slhSign s.fuses.idseed (endorseBytes s pub im.digest) }
  let s2 := storeDigest .secImgDig im.digest (storeDigest .secWmkPub pub (rset s1 .secImgSeq im.seq))
  let s3 := fset s2 .secSts 31 24 im.svn
  if pctOk then s3 else raise (fset s3 .secSts 8 8 1) (mkEvent 2 5 0 0x02)

/-! ### Boot steps -/

/-- Flash bank `b`: 0 A, 1 B. -/
def bank (s : State) (b : Nat) : Bank := tget {} s.banks b
/-- Store it. -/
def setBank (s : State) (b : Nat) (x : Bank) : State := { s with banks := tset {} s.banks b x }

/-- R462: the current boot record and the bank that holds it. -/
def currentRecord (s : State) : Nat × BootRec :=
  match (bank s 0).boot, (bank s 1).boot with
  | none, none => (0, ⟨0, 0, 0⟩)
  | some a, none => (0, a)
  | none, some b => (1, b)
  | some a, some b => if b.count > a.count then (1, b) else (0, a)

/-- R466, for the fuses of this device. -/
def imageValid (s : State) (im : ImageInfo) : Bool :=
  im.sound && decide (im.vkey < 3) && decide (im.vpubDigest = nth [] s.fuses.vkeys im.vkey) && !nth true s.fuses.vrev im.vkey
    && decide (im.svn ≥ s.fuses.arb) && decide (im.svn ≤ 128)

/-- The valid image of a bank. -/
def validImage (s : State) (b : Nat) : Option ImageInfo := (bank s b).image.filter (imageValid s)

/-- A step of Table 20.2 has ended. -/
def bootStep (n : Nat) (s : State) : State := fset { s with boot.step := n } .gctBoot 3 0 n

/-- The boot stops (R568). -/
def bootStop (code : Nat) (s : State) : State := fset { s with boot.stopped := code } .gctBoot 7 5 code

/-- BOOTFAIL. -/
def bootFail (s : State) : State := bootStop 2 (fset s .secSts 7 7 1)

/-- Step 2: the fuses are read and the quires numbered (R23, R451, R455). -/
def bootFuses (s : State) : State :=
  let f := s.fuses
  let sealed := f.sealOnly && f.lc != 3
  let s1 := { s with sealed := sealed, boot.fusesRead := true }
  let s2 := fset (fset (fset (fset s1 .secSts 2 0 f.lc) .secSts 3 3 (b2n sealed)) .secSts 4 4 (b2n f.sealOnly)) .secSts 23 16 f.arb
  let s3 := rset (rset s2 .idnSerial0 (fieldAt f.serial 0 8)) .idnSerial1 (fieldAt f.serial 8 8)
  -- the port's own MAC (Table 19.6)
  numberQuires (rset s3 .gctMgtMac (0x02 * 2 ^ 40 + fieldAt f.serial 0 5))

/-- Step 3: a new boot record is written to the other bank; `none` where its read-back fails. -/
def bootRecord (ok : Bool) (s : State) : Option State :=
  let (b, r) := currentRecord s
  if !ok then none
  else
    let s1 := setBank s (1 - b) { bank s (1 - b) with boot := some ⟨r.count + 1, r.bootcnt + 1, r.active⟩ }
    some (rset { s1 with boot.bootcnt := (r.bootcnt + 1) % 2 ^ 64, boot.bank := r.active } .secBootcnt ((r.bootcnt + 1) % 2 ^ 64))

/-- Step 5: the image of the bank ACTIVE names, or the other's (R467). -/
def bootImage (s : State) : Option (ImageInfo × State) :=
  let a := s.boot.bank
  match validImage s a with
  | some im => some (im, fset s .secSts 9 9 a)
  | none =>
    match validImage s (1 - a) with
    | some im =>
      some (im, raise (fset (fset { s with boot.bank := 1 - a } .secSts 9 9 (1 - a)) .secSts 11 11 1) (mkEvent 2 5 0 0x01))
    | none => none

/-- Step 6: DRAM training, and the pending hard repairs (Table 11.8). -/
def bootTrain (bad : List Nat) (s : State) : State :=
  let s1 := { s with
    boot.untrained := bad
    ctls := s.ctls.map (fun p => (p.1, if bad.contains p.1 then p.2 else { p.2 with pendingHard := [] })) }
  if bad.isEmpty then s1 else enterFE s1

/-- Step 7: the DRAM wipe (R567). -/
def bootWipe (ok : Bool) (s : State) : State := if ok then s else enterFE s

/-- Step 8: tables and keys. -/
def bootKeys (im : ImageInfo) (pctOk : Bool) (s : State) : State :=
  let idk := Config.slhPublic s.fuses.idseed
  takeImage (storeDigest .secIdkPub idk { s with boot.idkPub := idk }) im pctOk

/-- Step 9: TABLE_MAX, the first position of the ladder, and the quires that fail every step. -/
def bootCalibrate (b : BootIn) (s : State) : State :=
  let s1 := { s with power := { s.power with tableMax := min b.tableMax 36, calstep := 36 } }
  let s2 := b.unfit.foldl (fun s p => if p < 68 then fenceQuire s p else s) s1
  let s3 := setL (lmax s2) s2
  { s3 with clk.aclk := min (fget s3 .clkAclk 5 0) (limitOf s3.power.l) }

/-- The device is ready: the time the boot took, and the pin events that waited (R586). -/
def bootReady (s : State) : State :=
  let (v, s1) := takeFree s
  let ms := 1795 + v % 206
  let s2 := { s1 with
    now := s1.now + ms * 10000000
    tsc := s1.tsc + ms * 100000
    rng.started := true
    boot := { s1.boot with held := false, ready := true }
    ev.deferred := [] }
  let s3 := fset (fset (bootStep 10 s2) .gctBoot 4 4 1) .gctBoot 31 16 ms
  s1.ev.deferred.foldl raise s3

/-- Steps 8 to 10. -/
def bootLate (b : BootIn) (im : ImageInfo) (s : State) : State :=
  bootReady (bootStep 9 (bootCalibrate b (bootStep 8 (bootKeys im b.pctOk s))))

/-- Steps 6 and 7; RETIRED and BLANK stop after them. -/
def bootMemory (b : BootIn) (im : Option ImageInfo) (s : State) : State :=
  let s1 := bootTrain b.untrained s
  if !b.untrained.isEmpty then bootStop 3 s1 else
  let s2 := bootStep 7 (bootWipe b.wipeOk (bootStep 6 s1))
  match im with
  | some im => bootLate b im s2
  | none => bootStop (if s.fuses.lc = 0 then 5 else 4) s2

/-- Steps 3 to 5. -/
def bootLoad (b : BootIn) (s : State) : State :=
  match bootRecord b.recordOk s with
  | none =>
    let o := 1 - (currentRecord s).1
    bootFail (setBank s o { bank s o with boot := none })
  | some s1 =>
    match bootImage (bootStep 4 (bootStep 3 s1)) with
    | none => bootFail (bootStep 4 (bootStep 3 s1))
    | some (im, s2) => bootMemory b (some im) (bootStep 5 s2)

/-- R373, R567: configuration requests that arrive before the device is ready complete with Retry Status, where the link is up; VF Enable
is 0, so that only the PF answers. -/
def bootRequests (fns : List Nat) (s : State) : State :=
  if s.boot.pcieUp then (fns.filter (· == 0)).foldl (fun s f => emit s (.config f none)) s else s

/-- The boot sequence (Table 20.2), from a state that a WARM or COLD reset has left.  With neither CORE_REFCLK nor SYS_REFCLK no main
domain runs: the device enters FE (R414) and no step runs. -/
def runBoot (b : BootIn) (s0 : State) : State :=
  let s := bootRequests b.requests { s0 with boot := { s0.boot with
    held := false, pcieUp := !s0.clk.lost.contains 0, mgmtEn := (pin s0 4).asserted, jtagEn := (pin s0 5).asserted } }
  if !refUp s 1 && !refUp s 2 then dualLost s 1
  else if !b.katOk then bootStop 1 (fset s .secSts 6 6 1) else
  let s1 := bootStep 2 (bootFuses (bootStep 1 s))
  if s.fuses.lc = 0 || s.fuses.lc = 4 then bootMemory b none s1 else bootLoad b s1

/-- A reset pulse of the device's own (R565): WARM, and the boot sequence unless PERST_N holds the device. -/
def pulseReset (b : BootIn) (s : State) : State :=
  if !s.power.rails then s
  else if (pin s 0).asserted then warmState s
  else runBoot b (warmState s)

/-! ### PERST_N -/

/-- PERST_N becomes asserted: a WARM reset, which also abandons a boot sequence. -/
def perstOn (s : State) : State := pinActs 0 (pinTo 0 true s)

/-- PERST_N is released: with the rails up the boot sequence starts. -/
def perstOff (b : BootIn) (s : State) : State :=
  if (pin s 0).forced then s else
  let s1 := pinTo 0 false s
  if s1.power.rails && s1.boot.held then runBoot b s1 else s1

/-! ### Meanings -/

/-- PERST_N_ASSERT. -/
def execPerstNAssert (s : State) : Res := .next (perstOn s)
/-- PERST_N_RELEASE. -/
def execPerstNRelease (b : BootIn) (s : State) : Res := .next (perstOff b s)
/-- GCT_RESET. -/
def execGctReset (fn : Nat) (value : Word) (b : BootIn) (s : State) : Res :=
  .next (ownWrite s fn .gctReset 0 value.toNat (fun t => if value.toNat % 65536 = 0xA55A then pulseReset b t else t))
/-- QUIRE_RESET. -/
def execQuireReset (fn p : Nat) (s : State) : Res := .next (ownWrite s fn .qreRst p 1 (quireResetReq p))

end Sys2Proof.Machine
end

