-- ==== Sys2Proof/Machine/CryptoOps.lean ====
section
/-! DEFINITION. The K. instructions (R162, Table 05.19) over the scratchpad. -/

namespace Sys2Proof.Machine

/-- A key handle names a key slot of the deckle's store (DEDUCED, log entry 20): slot 0 or 1 of its transport keys. -/
def keyOf (s : State) (q h : Nat) : Option (List Byte) := (tfind (deckle s (dkOf s q)).ptk h).map (·.key)

/-- Issue checks of a K. instruction: ownership of a key, then its scratchpad operands in slot order. -/
def planKey (q dn srcN : Nat) (key : Option Nat) (s : State) (f : Flight) : Issue :=
  { fault := firstFault [match key with
      | some h => if (keyOf s q h).isSome then 0 else 3
      | none => 0, spadCheck (f.val 0) dn 1, spadCheck (f.val 1) srcN 1]
    full := expanderFull (quire s q)
    f := { f with part := .expander, spRd := [(f.val 1, srcN)], spWr := [(f.val 0, dn)] } }

/-- A K. instruction reads its source and writes `g` of it. -/
def keyRun (q n : Nat) (g : State → List Byte → State × List Byte) (s : State) (f : Flight) : State :=
  match spadRead s q (f.val 1) n with
  | (s1, none) => exFault s1 q f 0x30
  | (s1, some bs) =>
    let (s2, out) := g s1 bs
    spadWrite s2 q (f.val 0) out

/-- K.AES on bytes under a key: the spec does not say where the counter block of CTR or the IV of GCM comes from, so it is a free
value (log entry 21); the tag of GCM has no place in the instruction. -/
def aesRun (mode : Nat) (key : List Byte) (s : State) (bs : List Byte) : State × List Byte :=
  let (v, s1) := takeFree s
  if mode = 0 then (s1, aesCtr key (leBytes 16 v) bs) else (s1, gcmCrypt (aesKeys key) (leBytes 12 v) bs)

/-- A K. instruction acts. -/
def keyStart (q : Nat) (s : State) (f : Flight) : State :=
  match f.sub with
  | 0 => keyRun q (f.val 2) (fun s bs => (s, sha256 bs)) s f
  | 1 => keyRun q (f.val 2) (aesRun (optF f.w 22 21) ((keyOf s q (f.val 3)).getD [])) s f
  | _ => keyRun q (f.val 2) (fun s bs => (s, shake128 bs (f.val 3))) s f

/-- K.SHA. -/
def execKSha (q st : Nat) (w : IWord) (s : State) : Res :=
  .next (issue s q st w { maj := 0x26, sub := 0, f1 := .s, f2 := .s, f3 := .s, gates := [7], effect := true }
    (fun s f => planKey q 32 (f.val 2) none s f) (keyStart q))
/-- K.AES. -/
def execKAes (q st : Nat) (w : IWord) (s : State) : Res :=
  .next (issue s q st w
    { maj := 0x26, sub := 1, f1 := .s, f2 := .s, f3 := .s, f4 := .s, opt := maskOf 22 21, codes := optF w 22 21 != 3
      gates := [7], effect := true }
    (fun s f => planKey q (f.val 2) (f.val 2) (some (f.val 3)) s f) (keyStart q))
/-- K.SHAKE. -/
def execKShake (q st : Nat) (w : IWord) (s : State) : Res :=
  .next (issue s q st w { maj := 0x26, sub := 2, f1 := .s, f2 := .s, f3 := .s, f4 := .s, gates := [7], effect := true }
    (fun s f => planKey q (f.val 3) (f.val 2) none s f) (keyStart q))

end Sys2Proof.Machine
end

