-- ==== Sys2Proof/Machine/Flags.lean ====
section
/-! DEFINITION. Tile headers, flags and residues, exact addition into a vat, the Calender's conversions (ch. 02, 03). -/

namespace Sys2Proof.Machine

/-! ### Residues (R55) -/

/-- The residue modulo 127 of an integer. -/
def res127 (x : Int) : Nat := (x % 127).toNat

/-- The residue of the sum of integers. -/
def resSum (l : List Int) : Nat := res127 (l.foldl (· + ·) 0)

/-! ### Shapes and formats (Tables 02.6, 03.1, 03.2) -/

/-- Rows of a shape. -/
def rowsOf (shape : Nat) : Nat := if shape = 2 then 32 else 16
/-- Columns of a shape. -/
def colsOf (shape : Nat) : Nat := if shape = 1 then 32 else 16
/-- Elements of a shape. -/
def elemsOf (shape : Nat) : Nat := rowsOf shape * colsOf shape
/-- The weight of a vat format's LSB is 2 to minus this (R37). -/
def vatL (fmt : Nat) : Nat := if fmt = 0 then 40 else if fmt = 1 then 280 else 0
/-- Element width in bits. -/
def vatBits (fmt : Nat) : Nat := if fmt = 0 then 128 else if fmt = 1 then 640 else 64
/-- 64-bit words of an element. -/
def vatWords (fmt : Nat) : Nat := vatBits fmt / 64

/-- The half-frames 0–31 that a tile occupies (Table 03.2). -/
def halfFrames (fmt slot shape : Nat) : List Nat :=
  let k := if shape = 0 then 1 else 2
  let per := if fmt = 0 then 2 else if fmt = 1 then 10 else 1
  (List.range (per * k)).map (fun i => per * slot + i)

/-- R64: the slot lies in the format's range, and a double tile on a slot that takes one. -/
def slotFits (fmt slot shape : Nat) : Bool :=
  decide (slot < (if fmt = 0 then 16 else if fmt = 1 then 3 else 32))
    && (shape == 0 || (if fmt = 1 then slot == 0 else slot % 2 == 0))

/-! ### Headers (Table 03.3) -/

/-- The 64-bit header of a tile. -/
def headerOf (t : Tile) : Nat :=
  t.terms + place (b2n t.bound) 32 + place (b2n t.ovfPos) 33 + place (b2n t.ovfNeg) 34 + place (b2n t.nan) 35
    + place (b2n t.inexact) 36 + place 1 37 + place (b2n t.shared) 38 + place t.owner 40 + place t.fmt 44 + place t.shape 46
    + place t.res 48 + place t.slot 56

/-- R67: terms are added and saturate; BOUND once they exceed 2²⁴. -/
def addTerms (t : Tile) (n : Nat) : Tile :=
  let m := min (t.terms + n) 0xFFFFFFFF
  { t with terms := m, bound := t.bound || decide (m > 16777216) }

/-- R79: one addition: the new element and whether it was withheld upward or downward. -/
def addElem (fmt : Nat) (old d : Int) : Int × Bool × Bool :=
  let n := old + d
  let h : Int := ((2 ^ (vatBits fmt - 1) : Nat) : Int)
  if fmt = 2 then (signed 64 (wrapTo 64 n), false, false)
  else if n ≥ h then (old, true, false)
  else if n < -h then (old, false, true)
  else (n, false, false)

/-- R68, R79: add to every element; RES takes the residue of what changed. -/
def addAll (t : Tile) (ds : List Int) : Tile :=
  let rs := List.zipWith (addElem t.fmt) t.elems ds
  let new := rs.map (·.1)
  { t with
    elems := new
    ovfPos := t.ovfPos || rs.any (fun r => r.2.1)
    ovfNeg := t.ovfNeg || rs.any (fun r => r.2.2)
    res := res127 ((t.res : Int) + (new.foldl (· + ·) 0 - t.elems.foldl (· + ·) 0)) }

/-- R87, CLEAR: every element zero, TERMS, RES and bits [36:32] zero. -/
def clearTile (t : Tile) : Tile :=
  { t with terms := 0, bound := false, ovfPos := false, ovfNeg := false, nan := false, inexact := false, res := 0
           elems := List.replicate (elemsOf t.shape) 0 }

/-- Tile states (Table 03.6). -/
inductive TileState where
  | finite
  | posInf
  | negInf
  | nan
  deriving DecidableEq, Repr

/-- R80: the state of a tile. -/
def tileState (t : Tile) : TileState :=
  if t.nan || (t.ovfPos && t.ovfNeg) then .nan else if t.ovfPos then .posInf else if t.ovfNeg then .negInf else .finite

/-! ### The Calender (R87–R91) -/

/-- Width in bits of a Calender format (Table 03.4). -/
def calWidth (c : Nat) : Nat :=
  match c with
  | 0 | 4 => 32
  | 1 | 5 => 16
  | _ => 8

/-- The floating-point layout of a Calender format, if it is one. -/
def calFmt (c : Nat) : Option Fmt :=
  match c with
  | 0 => some fp32
  | 1 => some bf16
  | 2 => some e4m3
  | 3 => some e5m2
  | _ => none

/-- The range of an integer Calender format. -/
def calRange (c : Nat) : Int × Int :=
  match c with
  | 4 => (-2147483648, 2147483647)
  | 5 => (-32768, 32767)
  | 6 => (-128, 127)
  | _ => (0, 255)

/-- Table 03.7: the code of an infinity of a sign. -/
def calInf (c : Nat) (sat neg : Bool) : Nat :=
  match calFmt c with
  | some F =>
    let top := if F.specials = .e4m3 then (if sat then fmtMaxCode F else fmtNaN F) else if sat then fmtMaxCode F else fmtInfCode F
    fmtSign F neg + top
  | none => wrapTo (calWidth c) (if neg then (calRange c).1 else (calRange c).2)

/-- Table 03.7: the code of a NaN. -/
def calNaN (c : Nat) : Nat :=
  match c with
  | 0 => 0x7FC00000
  | 1 => 0x7FC0
  | 2 => 0x7F
  | 3 => 0x7E
  | _ => 0

/-- R88: convert one stored integer `i` of LSB weight 2 to minus `l`, scaled by 2 to `ex`. -/
def calFinite (c : Nat) (r : Rnd) (sat : Bool) (l : Nat) (ex : Int) (i : Int) : Nat :=
  let e : Int := ex - (l : Int)
  match calFmt c with
  | some F =>
    if i = 0 then 0
    else
      let m := roundMag F r i.natAbs e false
      if m > fmtMaxCode F then calInf c sat (decide (i < 0)) else fmtSign F (decide (i < 0)) + m
  | none =>
    let v := roundInt r (decide (i < 0)) i.natAbs e
    if v < (calRange c).1 || v > (calRange c).2 then
      (if sat then wrapTo (calWidth c) (if v < 0 then (calRange c).1 else (calRange c).2) else wrapTo (calWidth c) v)
    else wrapTo (calWidth c) v

/-- The Calender's output for an element of a tile in state `ts`. -/
def calOut (ts : TileState) (c : Nat) (r : Rnd) (sat : Bool) (l : Nat) (ex i : Int) : Nat :=
  match ts with
  | .finite => calFinite c r sat l ex i
  | .posInf => calInf c sat false
  | .negInf => calInf c sat true
  | .nan => calNaN c

/-- The draw of the element at position `e` (R90). -/
def drawAt (words : List Nat) (e : Nat) : Nat := bits (nth 0 words (e / 4)) (16 * (e % 4) + 15) (16 * (e % 4))

/-- The rounding rule of the element at position `e`. -/
def rndAt (stoch : Bool) (words : List Nat) (e : Nat) : Rnd := if stoch then .stoch (drawAt words e) else .rne

/-! ### T.PRELOAD's conversion (R74) -/

/-- One source value: the element and the flags it sets (OVF_POS, OVF_NEG, NAN, INEXACT_PRELOAD). -/
def preloadOne (fmt c v : Nat) : Int × Bool × Bool × Bool × Bool :=
  let put (neg : Bool) (i : Int) (inexact : Bool) : Int × Bool × Bool × Bool × Bool :=
    let h : Int := ((2 ^ (vatBits fmt - 1) : Nat) : Int)
    if i ≥ h || i < -h then (0, !neg, neg, false, true) else (i, false, false, false, inexact)
  match calFmt c with
  | some F => match decodeF F v with
    | .nan => (0, false, false, true, false)
    | .inf neg => (0, !neg, neg, false, false)
    | .fin neg m e =>
      let e' : Int := e + (vatL fmt : Int)
      let i := roundInt .rne neg m e'
      put neg i (decide (e' < 0) && decide (m % 2 ^ (-e').toNat ≠ 0))
  | none =>
    -- in units of the vat's LSB
    (if c = 7 then (v : Int) else signed (calWidth c) v, false, false, false, false)

end Sys2Proof.Machine
end

