-- ==== Sys2Proof/Machine/Tile.lean ====
section
/-! DEFINITION. The T. instructions, PASS and ORDERING_OPERATION_START (ch. 02, 03; R152, R153). -/

namespace Sys2Proof.Machine

/-! ### Handles and tiles (R64–R70) -/

/-- A tile's name: sheet, first slot, format. -/
abbrev TileKey := Nat × Nat × Nat

/-- The name of a tile. -/
def Tile.key (t : Tile) : TileKey := (t.sheet, t.slot, t.fmt)

/-- The tile of that name, whatever is being released. -/
def tileAt (x : Quire) (k : TileKey) : Option Tile := x.tiles.find? (fun t => t.key == k)

/-- Replace or add a tile. -/
def putTile (s : State) (q : Nat) (t : Tile) : State :=
  let x := quire s q
  if x.tiles.any (fun u => u.key == t.key) then
    setQuire s q { x with tiles := x.tiles.map (fun u => if u.key == t.key then t else u) }
  else setQuire s q { x with tiles := x.tiles ++ [t] }

/-- Close a tile. -/
def closeTile (s : State) (q : Nat) (k : TileKey) : State :=
  let x := quire s q
  setQuire s q (forgetWait { x with tiles := x.tiles.filter (fun u => u.key != k) } [k])

/-- Change a tile that is there. -/
def modTile (s : State) (q : Nat) (k : TileKey) (h : Tile → Tile) : State :=
  let x := quire s q
  setQuire s q { x with tiles := x.tiles.map (fun u => if u.key == k then h u else u) }

/-- T.ZERO, T.PRELOAD, T.DRAIN, T.RMAX, T.RMIN (R82). -/
def isOrdering (f : Flight) : Bool := f.maj == 0x14 && f.sub != 2 && f.sub != 3

/-- R65, R69: the checks of an instruction that reads a handle, the tile's name and its shape. -/
def handleCheck (x : Quire) (st h : Nat) (ordering : Bool) : Nat × TileKey × Nat :=
  match tfind x.handles h with
  | none => (0x10, (0, 0, 0), 0)
  | some hd =>
    let k : TileKey := (hd.sheet, hd.slot, hd.fmt)
    match tileAt x k with
    | none => (0x10, k, hd.shape)
    | some t =>
      if t.releasing then (0x10, k, hd.shape)
      else if t.shape != hd.shape then (0x11, k, hd.shape)
      else if t.owner != st && (ordering || !t.sharedAt) then (0x10, k, hd.shape)
      else (0, k, hd.shape)

/-- The queue of a sheet holds four T. instructions that have not started (Table 04.7). -/
def sheetFull (x : Quire) (sheet : Nat) : Bool :=
  (x.flights.filter (fun g => g.part == .sheet sheet && (g.phase == .queued || g.phase == .mma 0))).length ≥ 4

/-- A Calender operation that its sheet received before this one has not ended (R84). -/
def calBusy (x : Quire) (f : Flight) : Bool :=
  (x.flights.takeWhile (fun g => !(g.stream == f.stream && g.seq == f.seq))).any
    (fun g => g.part == f.part && g.maj == 0x14 && decide (g.sub ≥ 4))

/-- An ordering operation at the head of its tile's operations may start. -/
def ordReady (x : Quire) (f : Flight) : Bool := !blocked x f && !(f.sub ≥ 4 && calBusy x f)

/-- Operations in flight on a tile, in tile issue order. -/
def onTile (x : Quire) (k : TileKey) : List Flight := x.flights.filter (fun g => g.tile == some k)

/-! ### Vat words (R97) -/

/-- Record a vat error (Table 03.9). -/
def vatLog (s : State) (p kind : Nat) (k : TileKey) (st res act word : Nat) : State :=
  logRecord s .qreVatLog p 1 (1 + 4 * kind + 256 * k.1 + 2 ^ 13 * st + 2 ^ 16 * k.2.1 + 2 ^ 21 * k.2.2 + 2 ^ 24 * res
    + 2 ^ 32 * act + 2 ^ 40 * word)

/-- One word of a tile, or its header (0x1FFF), is read: corrected, or found uncorrectable. -/
def vatWord (q st : Nat) (k : TileKey) (store : Store) (name : Nat) (a : State × Bool) (word : Nat) : State × Bool :=
  let p := pOf a.1 q
  if (upsetOf (quire a.1 q) store word).1 = 1 then
    let s1 := setQuire a.1 q (dropUpset (quire a.1 q) store word)
    (qreError (vatLog (fadd s1 .qreVatCecnt 31 0 1 p) p 2 k st 0 0 name) p 0 0x03, a.2)
  else (qreError (vatLog a.1 p 3 k st 0 0 name) p 2 0x04, true)

/-- Read the words of a tile that belong to elements chosen by `pick`, and its header; true where one is uncorrectable. -/
def vatRead (s : State) (q st : Nat) (k : TileKey) (pick : Nat → Bool) : State × Bool :=
  if (quire s q).upsets.isEmpty then (s, false) else
  let h := Store.header k.1 k.2.1 k.2.2
  let v := Store.vat k.1 k.2.1 k.2.2
  let a := (upsetWords (quire s q) h (fun _ => true)).foldl (vatWord q st k h 0x1FFF) (s, false)
  (upsetWords (quire a.1 q) v (fun w => pick (w / vatWords k.2.2))).foldl (fun a w => vatWord q st k v w a w) a

/-- The upsets of a tile's words are gone: every word has been written. -/
def vatFresh (s : State) (q : Nat) (k : TileKey) : State :=
  let x := quire s q
  setQuire s q { x with upsets := x.upsets.filter (fun u =>
    !(u.store == .vat k.1 k.2.1 k.2.2 || u.store == .header k.1 k.2.1 k.2.2)) }

/-! ### T.ZERO and T.PRELOAD -/

/-- The opening layout (Table 05.9). -/
structure Opening where
  key : TileKey
  shape : Nat
  shared : Bool
  mode : Nat
  transpose : Bool
  sfmt : Nat
  deriving DecidableEq, Repr

/-- Read the opening layout. -/
def openingOf (w : IWord) : Opening :=
  { key := (optF w 22 18, optF w 17 13, optF w 12 11), shape := optF w 10 9, shared := optF w 8 8 == 1
    mode := optF w 7 6, transpose := optF w 5 5 == 1, sfmt := optF w 4 1 }

/-- A tile as an opening leaves it. -/
def openTile (o : Opening) (st terms : Nat) (elems : List Int) : Tile :=
  { sheet := o.key.1, slot := o.key.2.1, fmt := o.key.2.2, shape := o.shape, owner := st, shared := o.shared
    sharedAt := o.shared, terms := terms, elems := elems }

/-- The tiles whose release the stream's next instruction already waits for (R70). -/
def awaited (x : Stream) : List TileKey :=
  match x.openWait with
  | some (n, l) => if n = x.nextSeq then l else []
  | none => []

/-- R64, R69, R70: the fault of an opening, and the tiles whose release it waits for: those being released, and those it has waited
for whose release has faulted since. -/
def openingCheck (x : Quire) (o : Opening) (st : Nat) : Nat × List TileKey :=
  if !slotFits o.key.2.2 o.key.2.1 o.shape then (0x12, []) else
  let need := halfFrames o.key.2.2 o.key.2.1 o.shape
  let hits := x.tiles.filter (fun t => t.sheet == o.key.1 && meets need (halfFrames t.fmt t.slot t.shape))
  let same (t : Tile) : Bool := t.key == o.key && t.shape == o.shape
  let leaves (t : Tile) : Bool := t.releasing || (awaited (x.stream st)).contains t.key
  if hits.any (fun t => !leaves t && !same t) then (0x12, [])
  else if hits.any (fun t => !leaves t && same t && t.owner != st) then (0x10, [])
  else (0, (hits.filter leaves).map Tile.key)

/-- Values of T.PRELOAD's source. -/
def preloadCount (o : Opening) : Nat :=
  if o.mode = 0 then rowsOf o.shape else if o.mode = 1 then colsOf o.shape else elemsOf o.shape

/-- Bytes of T.PRELOAD's source. -/
def preloadBytes (o : Opening) : Nat := preloadCount o * calWidth o.sfmt / 8

/-- T.ZERO opens its tile (R71). -/
def zeroRun (q : Nat) (s : State) (f : Flight) : State :=
  let o := openingOf f.w
  putTile (vatFresh (dropFlight s q f.stream f.seq) q o.key) q (openTile o f.stream 0 (List.replicate (elemsOf o.shape) 0))

/-- T.PRELOAD opens and fills its tile (R73, R74). -/
def preloadRun (q : Nat) (s : State) (f : Flight) : State :=
  let o := openingOf f.w
  let zero := List.replicate (elemsOf o.shape) (0 : Int)
  match spadRead s q (f.val 1) (preloadBytes o) with
  | (s1, none) => exFault (putTile (vatFresh s1 q o.key) q { openTile o f.stream 1 zero with nan := true }) q f 0x30
  | (s1, some bs) =>
    let vals := (chunksOf (calWidth o.sfmt / 8) (preloadCount o) bs).map (fun c => preloadOne o.key.2.2 o.sfmt (leNat c))
    let arr := vals.toArray
    let n := colsOf o.shape
    let m := rowsOf o.shape
    let each := (List.range (elemsOf o.shape)).map (fun e =>
      let i := e / n
      let j := e % n
      arr.getD (if o.mode = 0 then i else if o.mode = 1 then j else if o.transpose then j * m + i else e) (0, false, false, false, false))
    let t := openTile o f.stream 1 (each.map (·.1))
    putTile (vatFresh (dropFlight s1 q f.stream f.seq) q o.key) q { t with
      ovfPos := each.any (fun v => v.2.1), ovfNeg := each.any (fun v => v.2.2.1), nan := each.any (fun v => v.2.2.2.1)
      inexact := each.any (fun v => v.2.2.2.2), res := resSum t.elems }

/-! ### T.DRAIN, T.RMAX, T.RMIN -/

/-- Bytes of a raw image (Table 03.5). -/
def imageBytes (fmt shape : Nat) : Nat := 64 + elemsOf shape * (vatBits fmt / 8)

/-- Bytes T.DRAIN writes. -/
def drainBytes (w : IWord) (fmt shape : Nat) : Nat :=
  if optF w 22 19 = 8 then imageBytes fmt shape else elemsOf shape * calWidth (optF w 22 19) / 8

/-- Lines of T.RMAX and T.RMIN, and elements of a line. -/
def redLines (w : IWord) (shape : Nat) : Nat × Nat :=
  if optF w 8 8 = 0 then (rowsOf shape, colsOf shape) else (colsOf shape, rowsOf shape)

/-- K of T.RMAX and T.RMIN. -/
def redK (w : IWord) : Nat := optF w 7 5 + 1

/-- The draws a Calender operation takes (R90, R95). -/
def drawsOf (f : Flight) (shape : Nat) : Nat :=
  if optF f.w 18 18 = 0 || (f.sub = 4 && optF f.w 22 19 = 8) then 0
  else if f.sub = 4 then elemsOf shape
  else (redLines f.w shape).1 * redK f.w

/-- The bytes of Calender outputs. -/
def packOut (c : Nat) (vs : List Nat) : List Byte := vs.flatMap (fun v => leBytes (calWidth c / 8) v)

/-- The K winners of a line as (index, value) (R94): the first of the best remaining, `max` for T.RMAX. -/
def winners (max : Bool) : Nat → List (Nat × Int) → List (Nat × Int)
  | 0, _ => []
  | k + 1, l =>
    match l with
    | [] => []
    | x :: xs =>
      let b := xs.foldl (fun a v => if (if max then decide (v.2 > a.2) else decide (v.2 < a.2)) then v else a) x
      b :: winners max k (l.filter (fun v => v.1 != b.1))

/-- The output of T.DRAIN for a tile. -/
def drainOut (f : Flight) (t : Tile) (words : List Nat) : List Byte :=
  let c := optF f.w 22 19
  if c = 8 then
    leBytes 8 (headerOf t) ++ zeros 56 ++ t.elems.flatMap (fun e => leBytes (vatBits t.fmt / 8) (wrapTo (vatBits t.fmt) e))
  else
    let ts := tileState t
    let ex := signed 8 (optF f.w 16 9)
    let n := colsOf t.shape
    let m := rowsOf t.shape
    let outs := (t.elems.zipIdx.map (fun e =>
      calOut ts c (rndAt (optF f.w 18 18 == 1) words e.2) (optF f.w 17 17 == 1) (vatL t.fmt) ex e.1)).toArray
    let order := if optF f.w 8 8 = 1 then (List.range (n * m)).map (fun x => (x % m) * n + x / m) else List.range (n * m)
    packOut c (order.map (fun e => outs.getD e 0))

/-- The outputs of T.RMAX and T.RMIN: values and indices. -/
def redOut (f : Flight) (t : Tile) (words : List Nat) : List Byte × List Byte :=
  let c := optF f.w 22 19
  let ts := tileState t
  let ex := signed 8 (optF f.w 16 9)
  let n := colsOf t.shape
  let (lines, len) := redLines f.w t.shape
  let arr := t.elems.toArray
  let wins := (List.range lines).flatMap (fun l =>
    let line := (List.range len).map (fun x => (x, if ts = .finite then arr.getD (if optF f.w 8 8 = 0 then l * n + x else x * n + l) 0 else 0))
    winners (f.sub == 5) (redK f.w) line)
  (packOut c (wins.zipIdx.map (fun v =>
      calOut ts c (rndAt (optF f.w 18 18 == 1) words v.2) (optF f.w 17 17 == 1) (vatL t.fmt) ex v.1.2)),
   wins.flatMap (fun v => leBytes 2 (v.1 + f.val 3 % 65536)))

/-- A releasing drain that ends without its release: the tile is open again (R70). -/
def unrelease (s : State) (q : Nat) (f : Flight) (k : TileKey) : State :=
  if f.sub = 4 && optF f.w 6 6 = 1 then modTile s q k (fun t => { t with releasing := false }) else s

/-- A Calender operation meets an error: NAN is set and the stream faults (R96, R97). -/
def calFault (s : State) (q : Nat) (f : Flight) (k : TileKey) (code : Nat) : State :=
  exFault (unrelease (modTile s q k (fun t => { t with nan := true })) q f k) q f code

/-- The elements as the Calender reads them, with upsets of its path as (element, bit). -/
def calRead (t : Tile) (us : List (Nat × Nat)) : List Int :=
  let w := vatBits t.fmt
  us.foldl (fun l u => if u.1 < l.length && u.2 < w then
    setNth l u.1 (signed w (wrapTo w (nth 0 l u.1) ^^^ 2 ^ u.2)) else l) t.elems

/-- The results and the header of a Calender operation whose read of the tile gave `t`. -/
def calWrite (q : Nat) (k : TileKey) (words : List Nat) (t : Tile) (s : State) (f : Flight) : State :=
  let hdr := headerOf t
  let s2 := dropFlight s q f.stream f.seq
  if f.sub = 4 then
    let s3 := wrS (spadWrite s2 q (f.val 1) (drainOut f t words)) q f.stream (f3Of f.w) hdr
    if optF f.w 6 6 = 1 then closeTile s3 q k
    else if optF f.w 7 7 = 1 then modTile s3 q k clearTile
    else s3
  else
    let o := redOut f t words
    wrS (spadWrite (spadWrite s2 q (f.val 1) o.1) q (f.val 2) o.2) q f.stream (f4Of f.w) hdr

/-- T.DRAIN, T.RMAX or T.RMIN reads its tile, checks it, writes its results and the header (R87, R94–R97).  A mismatch is read once
more: it is cured, or it is repeated. -/
def calRun (q : Nat) (words : List Nat) (s0 : State) (f : Flight) : State :=
  match f.tile with
  | none => s0
  | some k =>
    let path := UPath.calender k.1 k.2.1 k.2.2
    let once := strikesOf (quire s0 q) path false
    let twice := strikesOf (quire s0 q) path true
    let (s1, bad) := vatRead (dropStrikes s0 q path) q f.stream k (fun _ => true)
    match tileAt (quire s1 q) k with
    | none => dropFlight s1 q f.stream f.seq
    | some t =>
      let t1 := { t with elems := calRead t once }
      let t2 := { t with elems := calRead t twice }
      let report (kind : Nat) : State := vatLog s1 (pOf s1 q) kind k f.stream t.res (resSum t1.elems) 0
      if bad then calFault s1 q f k 0x30
      else if resSum t1.elems = t.res then calWrite q k words t1 s1 f
      else if resSum t2.elems = t.res then
        calWrite q k words t2 (qreError (fadd (report 0) .qreVatCecnt 31 0 1 (pOf s1 q)) (pOf s1 q) 0 0x03) f
      else calFault (qreError (report 1) (pOf s1 q) 2 0x04) q f k 0x31

/-- A Calender operation starts: with stochastic rounding it waits in the stalling read of instance 0 (R90, R436). -/
def calStart (q : Nat) (s : State) (f : Flight) : State :=
  let shape := match f.tile.bind (tileAt (quire s q)) with
    | some t => t.shape
    | none => 0
  let n := drawsOf f shape
  if n = 0 then calRun q [] s f
  else if s.rng.failed then
    match f.tile with
    | some k => exFault (unrelease s q f k) q f 0x40
    | none => s
  else
    askBlock (putFlight s q { f with phase := .drawing (ceilDiv (ceilDiv n 4) 8) [] }) 0 { who := .stream q f.stream f.seq }

/-! ### T.MERGE (R76) -/

/-- The elements of a raw image. -/
def imageElems (fmt shape : Nat) (bs : List Byte) : List Int :=
  (chunksOf (vatBits fmt / 8) (elemsOf shape) (bs.drop 64)).map (fun c => signed (vatBits fmt) (leNat c))

/-- T.MERGE runs. -/
def mergeRun (q : Nat) (s : State) (f : Flight) : State :=
  match f.tile with
  | none => s
  | some k =>
    match tileAt (quire s q) k with
    | none => dropFlight s q f.stream f.seq
    | some t =>
      match spadRead s q (f.val 1) (imageBytes t.fmt t.shape) with
      | (s1, none) => exFault (modTile s1 q k (fun t => { t with nan := true })) q f 0x30
      | (s1, some bs) =>
        let h := fieldAt bs 0 8
        let es := imageElems t.fmt t.shape bs
        if bits h 45 44 != t.fmt || bits h 47 46 != t.shape then exFault s1 q f 0x11
        else if resSum es != bits h 54 48 then
          let s2 := vatLog s1 (pOf s1 q) 1 k f.stream (bits h 54 48) (resSum es) 0
          exFault (qreError s2 (pOf s2 q) 2 0x04 1) q f 0x31
        else
          let (s2, bad) := vatRead s1 q f.stream k (fun _ => true)
          if bad then exFault (modTile s2 q k (fun t => { t with nan := true })) q f 0x30
          else
            modTile (dropFlight s2 q f.stream f.seq) q k (fun t =>
              let u := addTerms (addAll t es) (bits h 31 0)
              { u with bound := u.bound || bit h 32, ovfPos := u.ovfPos || bit h 33, ovfNeg := u.ovfNeg || bit h 34
                       nan := u.nan || bit h 35, inexact := u.inexact || bit h 36 })

/-! ### Order on a tile (R84) -/

/-- An ordering operation acts. -/
def ordRun (q : Nat) (s : State) (f : Flight) : State :=
  if f.sub = 0 then zeroRun q s f else if f.sub = 1 then preloadRun q s f else calStart q s f

/-- T.MERGEs that no ordering operation holds back any longer start. -/
def startMerges (q : Nat) (k : TileKey) : Nat → State → State
  | 0, s => s
  | n + 1, s =>
    let before := (onTile (quire s q) k).takeWhile (fun g => !isOrdering g)
    match before.find? (fun g => g.sub == 3 && g.phase == .queued && !blocked (quire s q) g) with
    | some f => startMerges q k n (mergeRun q s f)
    | none => s

/-- An ordering operation issues: at once where nothing is in flight on its tile, and no Calender operation of the sheet waits. -/
def ordIssue (q : Nat) (s : State) (f : Flight) : State :=
  match f.tile with
  | none => s
  | some k =>
    let x := quire s q
    if (onTile x k).isEmpty && ordReady x f then ordRun q s f else putFlight s q f

/-- The issue of an opening: the handle is written, and the issue checks see the tile from now on (R70): a new one as it will be, a
reopened one with its new SHARED. -/
def openIssue (q : Nat) (s : State) (f : Flight) : State :=
  let o := openingOf f.w
  let x := quire s q
  let s1 := setQuire s q { x with handles := tupd x.handles f.w.f1.toNat ⟨o.key.1, o.key.2.1, o.key.2.2, o.shape⟩ }
  let s2 := if (tileAt x o.key).isSome then modTile s1 q o.key (fun t => { t with sharedAt := o.shared })
    else putTile s1 q { openTile o f.stream 0 [] with opening := true }
  ordIssue q s2 f

/-- The plan of an opening. -/
def planOpen (q : Nat) (preload : Bool) (s : State) (f : Flight) : Issue :=
  let o := openingOf f.w
  let x := quire s q
  let c := openingCheck x o f.stream
  let src := if !preload then 0
    else if o.key.2.2 = 2 && o.sfmt < 4 then 0x11 else spadCheck (f.val 1) (preloadBytes o) 64
  { fault := firstFault [src, c.1]
    full := sheetFull x o.key.1
    await := c.2
    f := { f with part := .sheet o.key.1, tile := some o.key, spRd := if preload then [(f.val 1, preloadBytes o)] else [] } }

/-- The opening word. -/
def openOp (sub : Nat) (w : IWord) : Op :=
  let o := openingOf w
  { maj := 0x14, sub := sub, f1 := .t, f2 := if sub = 1 then .s else .none
    opt := if sub = 1 then maskOf 22 1 else maskOf 22 8
    codes := o.key.2.2 != 3 && o.shape != 3 && o.mode != 3 && (!o.transpose || o.mode == 2) && (sub != 1 || decide (o.sfmt < 8))
    effect := true, gates := if o.key.2.2 = 2 then [1] else [] }

/-- The plan of a Calender operation: its destinations, then its tile. -/
def planCal (q : Nat) (s : State) (f : Flight) : Issue :=
  let x := quire s q
  let (c, k, shape) := handleCheck x f.stream f.w.f1.toNat true
  let wr : List (Nat × Nat) :=
    if f.sub = 4 then [(f.val 1, drainBytes f.w k.2.2 shape)]
    else
      let n := (redLines f.w shape).1 * redK f.w
      [(f.val 1, n * calWidth (optF f.w 22 19) / 8), (f.val 2, 2 * n)]
  { fault := firstFault (wr.map (fun r => spadCheck r.1 r.2 64) ++ [c]), full := sheetFull x k.1
    f := { f with part := .sheet k.1, tile := some k, spWr := wr } }

/-- The issue of T.DRAIN: a releasing one closes the tile to the issue checks (R70). -/
def drainIssue (q : Nat) (s : State) (f : Flight) : State :=
  match f.tile with
  | some k => ordIssue q (if optF f.w 6 6 = 1 then modTile s q k (fun t => { t with releasing := true }) else s) f
  | none => s

/-! ### T.MMA (R39–R46) -/

/-- Width in bits of an element format (Table 02.1). -/
def elWidth (c : Nat) : Nat := match c with
  | 2 | 5 | 6 => 16
  | 7 => 4
  | 8 | 9 => 6
  | _ => 8

/-- Groups of formats that pair (Table 02.5): 0 FP8, 1 INT8, 2 INT16, 3 BF16, 4 MX. -/
def elGroup (c : Nat) : Nat := match c with
  | 0 | 1 => 0
  | 3 | 4 => 1
  | 5 | 6 => 2
  | 2 => 3
  | _ => 4

/-- Pass depth of a group (Table 02.8). -/
def passDepth (g : Nat) : Nat := match g with
  | 4 => 32
  | 3 => 8
  | 2 => 4
  | _ => 16

/-- FA and FB. -/
def mmaFmts (w : IWord) : Nat × Nat := (optF w 22 19, optF w 18 15)

/-- Vat formats a group may go into (Table 02.5). -/
def vatAccepts (g fmt : Nat) : Bool := match g with
  | 0 => fmt == 0
  | 1 => fmt == 0 || fmt == 2
  | 2 => fmt == 2
  | _ => fmt == 1

/-- The panels of a T.MMA: A, B, and for MX the scale panels. -/
def mmaPanels (f : Flight) (shape : Nat) : List (Nat × Nat) :=
  let (fa, fb) := mmaFmts f.w
  let k := f.val 3
  let m := rowsOf shape
  let n := colsOf shape
  [(f.val 1, k * m * elWidth fa / 8), (f.val 2, k * n * elWidth fb / 8)]
    ++ (if elGroup fa = 4 then [(f.val 4, k / 32 * m), (f.val 5, k / 32 * n)] else [])

/-- The plan of T.MMA: pair, K, panels, tile, vat format (R601). -/
def planMma (q : Nat) (s : State) (f : Flight) : Issue :=
  let x := quire s q
  let (fa, fb) := mmaFmts f.w
  let k := f.val 3
  let d := passDepth (elGroup fa)
  let (c, key, shape) := handleCheck x f.stream f.w.f1.toNat false
  let ps := mmaPanels f shape
  { fault := firstFault ([if elGroup fa != elGroup fb then 1 else 0, if k < d || k > 65536 || k % d != 0 then 1 else 0]
      ++ ps.map (fun r => spadCheck r.1 r.2 64) ++ [c, if vatAccepts (elGroup fa) key.2.2 then 0 else 0x11])
    full := sheetFull x key.1
    f := { f with part := .sheet key.1, tile := some key, spRd := ps, phase := .mma 0 } }

/-! ### A pass (R47–R58) -/

/-- A decoded operand: the integer form of R36, or a special. -/
inductive Elem where
  | fin (n : Int)
  | inf (neg : Bool)
  | nan
  deriving DecidableEq, Repr

/-- R36: the fraction shift of a format. -/
def fracShift (c : Nat) : Nat := match c with
  | 0 => 9
  | 1 => 16
  | 2 => 133
  | 7 => 1
  | 8 => 3
  | 9 => 4
  | _ => 0

/-- R31–R36: decode one element. -/
def elemOf (c v : Nat) : Elem :=
  let fp (F : Fmt) : Elem := match decodeF F v with
    | .nan => .nan
    | .inf g => .inf g
    | .fin g m e => .fin (sgn g (m * 2 ^ (e + (fracShift c : Int)).toNat))
  match c with
  | 0 => fp e4m3
  | 1 => fp e5m2
  | 2 => fp bf16
  | 3 => .fin (signed 8 v)
  | 4 => .fin v
  | 5 => .fin (signed 16 v)
  | 6 => .fin v
  | 7 => fp e2m1
  | 8 => fp e2m3
  | _ => fp e3m2

/-- R43: element values of a packed byte string. -/
def unpack (c n : Nat) (bs : List Byte) : List Nat := lanesOf (elWidth c) n (leNat bs)

/-- The class and sum of one cell: (sum, NaN, +Inf, −Inf). -/
abbrev Cell4 := Int × Bool × Bool × Bool

/-- R37, R38: one product added to a cell. -/
def addProduct (sh : Nat) (a b : Elem) (z : Cell4) : Cell4 :=
  match a, b with
  | .fin m, .fin n => (z.1 + m * n * ((2 ^ sh : Nat) : Int), z.2)
  | .nan, _ => (z.1, true, z.2.2)
  | _, .nan => (z.1, true, z.2.2)
  | .inf g, .fin n => if n = 0 then (z.1, true, z.2.2) else infinite z (g != decide (n < 0))
  | .fin n, .inf g => if n = 0 then (z.1, true, z.2.2) else infinite z (g != decide (n < 0))
  | .inf g, .inf h => infinite z (g != h)
where
  infinite (z : Cell4) (neg : Bool) : Cell4 := if neg then (z.1, z.2.1, z.2.2.1, true) else (z.1, z.2.1, true, z.2.2.2)

/-- The operands of a half-pass: the elements of 16 rows of A and 16 columns of B and, for MX, their scale bytes; k-major. -/
structure PassIn where
  fa : Nat
  fb : Nat
  depth : Nat
  a : Array Elem
  b : Array Elem
  sa : Array Nat
  sb : Array Nat

/-- The sum of cell (i, j) over the k-steps of a pass, for vat weight `l`. -/
def cellSum (x : PassIn) (l i j : Nat) : Cell4 :=
  let mx := elGroup x.fa == 4
  let ka := x.sa.getD i 127
  let kb := x.sb.getD j 127
  -- a NaN scale makes every product of the block NaN (R34)
  if mx && (ka == 255 || kb == 255) then (0, true, false, false)
  else
    let sh := if mx then l + ka + kb - 254 - fracShift x.fa - fracShift x.fb else l - fracShift x.fa - fracShift x.fb
    (List.range x.depth).foldl (fun z k => addProduct sh (x.a.getD (k * 16 + i) .nan) (x.b.getD (k * 16 + j) .nan) z)
      (0, false, false, false)

/-- One bit of a two's-complement pass sum inverted. -/
def flipBit (v : Int) (b : Nat) : Int :=
  if (v / ((2 ^ b : Nat) : Int)) % 2 = 0 then v + ((2 ^ b : Nat) : Int) else v - ((2 ^ b : Nat) : Int)

/-- Upsets applied to the sums of one half-pass (row-major 16 × 16). -/
def strike (half : Nat) (us : List (Nat × Nat × Nat × Nat)) (sums : List Int) : List Int :=
  (us.filter (fun u => u.1 == half)).foldl (fun l u =>
    let i := 16 * u.2.1 + u.2.2.1
    if u.2.1 < 16 && u.2.2.1 < 16 then setNth l i (flipBit (nth 0 l i) u.2.2.2) else l) sums

/-- Column residues of a half-pass. -/
def colRes (sums : List Int) : List Nat :=
  (List.range 16).map (fun j => res127 ((List.range 16).foldl (fun a i => a + nth 0 sums (16 * i + j)) 0))

/-- R56: the first column whose residue differs, with the predicted and the actual residue. -/
def mismatch (pred act : List Nat) : Option (Nat × Nat × Nat) :=
  (findIx (fun p : Nat × Nat => p.1 != p.2) (List.zip pred act)).map (fun j => (j, nth 0 pred j, nth 0 act j))

/-- R57: log, count and raise a mismatch. -/
def shtReport (s : State) (p sheet st half pass : Nat) (r : Bool × Nat × Nat × Nat) : State :=
  let (rep, col, pred, act) := r
  let v := 1 + 2 * b2n rep + 256 * sheet + 2 ^ 13 * st + 2 ^ 16 * col + 2 ^ 20 * half + 2 ^ 24 * pred + 2 ^ 32 * act + 2 ^ 40 * pass
  let s1 := logRecord (fadd s .qreShtRescnt 31 0 (if rep then 2 else 1) p) .qreShtReslog p 2 v
  qreError s1 p (if rep then 2 else 0) (if rep then 2 else 1) (v % 2 ^ 32) (maskOf 30 24)

/-- The half-passes of a shape: (half, first row, first column). -/
def halvesOf (shape : Nat) : List (Nat × Nat × Nat) :=
  if shape = 1 then [(0, 0, 0), (1, 0, 16)] else if shape = 2 then [(0, 0, 0), (1, 16, 0)] else [(0, 0, 0)]

/-- The ranges of a panel that half-pass `h` of pass `p` reads: `d` k-steps of `m` elements of `w` bits, of which it takes 16. -/
def panelRanges (base p d m w h : Nat) : List (Nat × Nat) :=
  let row := m * w / 8
  let start := base + p * d * row
  if m = 16 then [(start, d * row)] else (List.range d).map (fun k => (start + k * row + h * 2 * w, 2 * w))

/-- Read ranges of the scratchpad one after the other; none where a word is poisoned, and the reads that remain take place (R58). -/
def spadReads (q : Nat) (l : List (Nat × Nat)) (s : State) : State × Option (List Byte) :=
  l.foldl (fun a r =>
    let x := spadRead a.1 q r.1 r.2
    (x.1, match a.2, x.2 with
      | some bs, some cs => some (bs ++ cs)
      | _, _ => none)) (s, some [])

/-- Read the operands of a half-pass of pass `p`, whose rows start at `r0` and columns at `c0`; none where a word is poisoned. -/
def halfOperands (s : State) (q : Nat) (f : Flight) (shape p r0 c0 : Nat) : State × Option PassIn :=
  let (fa, fb) := mmaFmts f.w
  let d := passDepth (elGroup fa)
  let m := rowsOf shape
  let n := colsOf shape
  let mx := elGroup fa == 4
  let (s1, a) := spadReads q (panelRanges (f.val 1) p d m (elWidth fa) (r0 / 16)) s
  let (s2, b) := spadReads q (panelRanges (f.val 2) p d n (elWidth fb) (c0 / 16)) s1
  let (s3, sa) := spadReads q (if mx then [(f.val 4 + p * m + r0, 16)] else []) s2
  let (s4, sb) := spadReads q (if mx then [(f.val 5 + p * n + c0, 16)] else []) s3
  match a, b, sa, sb with
  | some a, some b, some sa, some sb =>
    (s4, some { fa := fa, fb := fb, depth := d
                a := ((unpack fa (d * 16) a).map (elemOf fa)).toArray, b := ((unpack fb (d * 16) b).map (elemOf fb)).toArray
                sa := (sa.map (·.toNat)).toArray, sb := (sb.map (·.toNat)).toArray })
  | _, _, _, _ => (s4, none)

/-- What a half-pass gives: cells to add, poison met, or a mismatch repeated. -/
inductive HalfOut where
  | sums (cells : List Cell4)
  | poisoned
  | failed
  deriving DecidableEq, Repr

/-- The cells of a half-pass as executed with upsets. -/
def halfCells (k : TileKey) (half : Nat) (x : PassIn) (us : List (Nat × Nat × Nat × Nat)) : List Cell4 × List Cell4 :=
  let cells := (List.range 256).map (fun e => cellSum x (vatL k.2.2) (e / 16) (e % 16))
  (cells, List.zipWith (fun (c : Cell4) v => (v, c.2)) cells (strike half us (cells.map (·.1))))

/-- R56: the check of executed cells against what the operands predict. -/
def halfCheck (r : List Cell4 × List Cell4) : Option (Nat × Nat × Nat) :=
  mismatch (colRes (r.1.map (·.1))) (colRes (r.2.map (·.1)))

/-- R57, R58: a half-pass reads its operands and executes; after a mismatch it reads them again and executes once more. -/
def halfRun (q : Nat) (f : Flight) (k : TileKey) (shape pass : Nat) (first again : List (Nat × Nat × Nat × Nat))
    (h : Nat × Nat × Nat) (s : State) : State × HalfOut :=
  match halfOperands s q f shape pass h.2.1 h.2.2 with
  | (s1, none) => (s1, .poisoned)
  | (s1, some x) =>
    let r := halfCells k h.1 x first
    match halfCheck r with
    | none => (s1, .sums r.2)
    | some (col, pred, act) =>
      match halfOperands s1 q f shape pass h.2.1 h.2.2 with
      | (s2, none) => (s2, .poisoned)
      | (s2, some y) =>
        let r2 := halfCells k h.1 y again
        let rep := (halfCheck r2).isSome
        (shtReport s2 (pOf s2 q) k.1 f.stream h.1 pass (rep, col, pred, act), if rep then .failed else .sums r2.2)

/-- The sums of a half-pass are added to the tile; true where a vat word of it is uncorrectable and withholds them (R97). -/
def halfAdd (q : Nat) (f : Flight) (k : TileKey) (shape r0 c0 depth : Nat) (cells : List Cell4) (counted : Bool) (s : State) :
    State × Bool :=
  let n := colsOf shape
  let inHalf (e : Nat) : Bool :=
    decide (r0 ≤ e / n) && decide (e / n < r0 + 16) && decide (c0 ≤ e % n) && decide (e % n < c0 + 16)
  let r := vatRead s q f.stream k inHalf
  if r.2 then (modTile r.1 q k (fun t => { t with nan := true }), true)
  else
    let arr := (cells.map (·.1)).toArray
    let ds := (List.range (elemsOf shape)).map (fun e =>
      if inHalf e then arr.getD (16 * (e / n - r0) + (e % n - c0)) 0 else 0)
    (modTile r.1 q k (fun t =>
      let t1 := addAll t ds
      let t2 := { t1 with nan := t1.nan || cells.any (fun c => c.2.1), ovfPos := t1.ovfPos || cells.any (fun c => c.2.2.1)
                          ovfNeg := t1.ovfNeg || cells.any (fun c => c.2.2.2) }
      if counted then t2 else addTerms t2 depth), false)

/-- One half-pass: operands, sums, check, update.  Answers the state, whether one half has been added, and a fault code. -/
def halfPass (q : Nat) (f : Flight) (k : TileKey) (shape pass : Nat) (u : PassUpset) (inj rep : Bool)
    (a : State × Bool × Nat) (h : Nat × Nat × Nat) : State × Bool × Nat :=
  let (s, added, code) := a
  let fail (s : State) (c : Nat) : State × Bool × Nat := (s, added, if code = 0 then c else code)
  let hit := inj && h.1 == 0
  let first := u.first ++ (if hit then [(0, 0, 0, 0)] else [])
  let again := u.again ++ (if hit && rep then [(0, 0, 0, 0)] else [])
  match halfRun q f k shape pass first again h s with
  | (s1, .poisoned) => fail (modTile s1 q k (fun t => { t with nan := true })) 0x30
  | (s1, .failed) => fail s1 0x31
  | (s1, .sums cells) =>
    match halfAdd q f k shape h.2.1 h.2.2 (passDepth (elGroup (mmaFmts f.w).1)) cells added s1 with
    | (s2, true) => fail s2 0x30
    | (s2, false) => (s2, true, code)

/-- Pass `p` of a T.MMA runs (R53, R57, R58, R61, R67).  The pass takes an armed injection whether or not it meets poison. -/
def runPass (s : State) (q : Nat) (f : Flight) (k : TileKey) (t : Tile) (p : Nat) (u : PassUpset) : State :=
  let ph := pOf s q
  let inj := fget s .qreShtInj 8 8 ph = 1 && fget s .qreShtInj 4 0 ph = k.1
  let rep := inj && fget s .qreShtInj 5 5 ph = 1
  let s1 := if inj then fset s .qreShtInj 8 8 0 ph else s
  let (s2, _, code) := (halvesOf t.shape).foldl (halfPass q f k t.shape p u inj rep) (s1, false, 0)
  let s3 := if code = 0 then fadd s2 .qrePrf 63 0 1 ph 2 else s2
  if code != 0 then exFault s3 q f code
  else if (p + 1) * passDepth (elGroup (mmaFmts f.w).1) ≥ f.val 3 then dropFlight s3 q f.stream f.seq
  else putFlight s3 q { f with phase := .mma (p + 1) }

/-- The T.MMAs of a sheet that no ordering operation holds back (R84). -/
def readyMmas (x : Quire) (sheet : Nat) : List (Flight × Nat) :=
  x.flights.filterMap (fun g => match g.phase, g.tile with
    | .mma p, some k =>
      if g.part == .sheet sheet && !blocked x g && (((onTile x k).takeWhile (fun h => !(h.stream == g.stream && h.seq == g.seq))).all
          (fun h => !isOrdering h)) then some (g, p) else none
    | _, _ => none)

/-- The stream whose T.MMA the sheet takes next (R49). -/
def nextMma (x : Quire) (sheet : Nat) : Option (Flight × Nat) :=
  let l := readyMmas x sheet
  let last := tget 7 x.lastServed sheet
  (List.range 8).findSome? (fun i => l.find? (fun g => g.1.stream == (last + 1 + i) % 8))

/-- PASS: one pass on a sheet. -/
def passStep (q sheet : Nat) (u : PassUpset) (s : State) : State :=
  if !(s.boot.ready && !s.fe && decide (q < 64) && decide (sheet < 32)) then s else
  let s0 := addUpsets s q u.stores u.paths
  match nextMma (quire s0 q) sheet with
  | none => s0
  | some (f, p) =>
    match f.tile.bind (fun k => (tileAt (quire s0 q) k).map (fun t => (k, t))) with
    | none => s0
    | some (k, t) =>
      let x := quire s0 q
      let s1 := setQuire s0 q { x with lastServed := tset 7 x.lastServed sheet f.stream }
      settleQuire (startMerges q k 64 (runPass s1 q f k t p u)) q

/-- ORDERING_OPERATION_START: the ordering operation at the head of a tile's operations starts. -/
def orderingStart (q : Nat) (k : TileKey) (s : State) : State :=
  if !(s.boot.ready && !s.fe && decide (q < 64)) then s else
  let x := quire s q
  match (onTile x k).head? with
  | some f =>
    if isOrdering f && f.phase == .queued && ordReady x f then
      settleQuire (startMerges q k 64 (ordRun q s f)) q
    else settleQuire (startMerges q k 64 s) q
  | none => s

/-! ### Meanings -/

/-- T.ZERO. -/
def execTZero (q st : Nat) (w : IWord) (s : State) : Res := .next (issue s q st w (openOp 0 w) (planOpen q false) (openIssue q))
/-- T.PRELOAD. -/
def execTPreload (q st : Nat) (w : IWord) (s : State) : Res := .next (issue s q st w (openOp 1 w) (planOpen q true) (openIssue q))
/-- T.MMA. -/
def execTMma (q st : Nat) (w : IWord) (s : State) : Res :=
  let (fa, fb) := mmaFmts w
  .next (issue s q st w
    { maj := 0x14, sub := 2, f1 := .t, f2 := .s, f3 := .s, f4 := .s, opt := maskOf 22 15, effect := true
      long := elGroup fa == 4 && elGroup fb == 4 && decide (fa < 10) && decide (fb < 10)
      codes := decide (fa < 10) && decide (fb < 10)
      gates := (if (7 ≤ fa && fa < 10) || (7 ≤ fb && fb < 10) then [0] else []) ++ (if elGroup fa = 2 || elGroup fb = 2 then [1] else []) }
    (planMma q) (fun s f => putFlight s q f))
/-- PASS. -/
def execPass (q sheet : Nat) (u : PassUpset) (s : State) : Res := .next (passStep q sheet u s)
/-- T.MERGE: it waits only for ordering operations issued before it. -/
def execTMerge (q st : Nat) (w : IWord) (s : State) : Res :=
  .next (issue s q st w { maj := 0x14, sub := 3, f1 := .t, f2 := .s, gates := [8], effect := true }
    (fun s f =>
      let x := quire s q
      let (c, k, shape) := handleCheck x f.stream f.w.f1.toNat false
      let r := (f.val 1, imageBytes k.2.2 shape)
      { fault := firstFault [spadCheck r.1 r.2 64, c], full := sheetFull x k.1
        f := { f with part := .sheet k.1, tile := some k, spRd := [r] } })
    (fun s f => match f.tile with
      | some k => if (onTile (quire s q) k).any isOrdering || blocked (quire s q) f then putFlight s q f else mergeRun q s f
      | none => s))
/-- T.DRAIN. -/
def execTDrain (q st : Nat) (w : IWord) (s : State) : Res :=
  .next (issue s q st w
    { maj := 0x14, sub := 4, f1 := .t, f2 := .s, f3 := .sw, opt := maskOf 22 6, codes := decide (optF w 22 19 ≤ 8), effect := true
      gates := (if optF w 22 19 = 8 then [8] else []) ++ (if optF w 18 18 = 1 then [9] else []) }
    (planCal q) (drainIssue q))
/-- The word of T.RMAX and T.RMIN. -/
def redOp (sub : Nat) (w : IWord) : Op :=
  { maj := 0x14, sub := sub, f1 := .t, f2 := .s, f3 := .s, f4 := .sx, opt := maskOf 22 5, codes := decide (optF w 22 19 < 8)
    effect := true, gates := if optF w 18 18 = 1 then [9] else [] }
/-- T.RMAX. -/
def execTRmax (q st : Nat) (w : IWord) (s : State) : Res := .next (issue s q st w (redOp 5 w) (planCal q) (ordIssue q))
/-- T.RMIN. -/
def execTRmin (q st : Nat) (w : IWord) (s : State) : Res := .next (issue s q st w (redOp 6 w) (planCal q) (ordIssue q))
/-- ORDERING_OPERATION_START. -/
def execOrderingOperationStart (q sheet slot fmt : Nat) (s : State) : Res := .next (orderingStart q (sheet, slot, fmt) s)

end Sys2Proof.Machine
end

