-- ==== Sys2Proof/Machine/Vector.lean ====
section
/-! DEFINITION. The V. instructions (R106–R113, R120, R159, Table 05.15) and PIPE_START. -/

namespace Sys2Proof.Machine

/-! ### Encodings -/

/-- Operand F3 of a V.FP or V.INT instruction: a vector register, or a scalar under BS (R159). -/
def vB (w : IWord) : Slot := if optF w 16 16 = 1 then .s else .v

/-- V.FP with two sources. -/
def vFp (sub : Nat) (w : IWord) : Op :=
  { maj := 8, sub := sub, f1 := .vw, f2 := .v, f3 := vB w, opt := maskOf 22 22 + maskOf 16 16, masks := true }
/-- V.INT. -/
def vInt (sub : Nat) (w : IWord) : Op :=
  { maj := 9, sub := sub, f1 := .vw, f2 := .v, f3 := vB w, opt := maskOf 16 16, masks := true }
/-- The transcendental functions. -/
def vTrn (sub : Nat) : Op := { maj := 0x0A, sub := sub, f1 := .vw, f2 := .v, opt := maskOf 22 22, masks := true }
/-- The reductions. -/
def vRed (sub : Nat) (w : IWord) : Op :=
  let seg := optF w 19 16
  { maj := 0x0A, sub := sub, f1 := .vw, f2 := .v, opt := maskOf 22 16, masks := true
    vRd := (List.range (countOf w)).map (fun k => w.f2.toNat + k)
    codes := decide (w.f2.toNat + countOf w ≤ 32)
      && (seg == 0 || (decide (4 ≤ seg) && decide (seg ≤ (if optF w 22 22 = 1 then 10 else 9)) && optF w 21 20 == 0)) }

/-! ### Meanings -/

/-- V.ADD. -/
def execVAdd (q st : Nat) (w : IWord) (s : State) : Res := runPipe s q st w (vFp 0 w)
/-- V.SUB. -/
def execVSub (q st : Nat) (w : IWord) (s : State) : Res := runPipe s q st w (vFp 1 w)
/-- V.MUL. -/
def execVMul (q st : Nat) (w : IWord) (s : State) : Res := runPipe s q st w (vFp 2 w)
/-- V.FMA. -/
def execVFma (q st : Nat) (w : IWord) (s : State) : Res := runPipe s q st w { vFp 3 w with f4 := .v }
/-- V.MIN. -/
def execVMin (q st : Nat) (w : IWord) (s : State) : Res := runPipe s q st w (vFp 4 w)
/-- V.MAX. -/
def execVMax (q st : Nat) (w : IWord) (s : State) : Res := runPipe s q st w (vFp 5 w)
/-- V.CMP. -/
def execVCmp (q st : Nat) (w : IWord) (s : State) : Res :=
  runPipe s q st w { vFp 6 w with f1 := .pw, opt := maskOf 22 19 + maskOf 16 16, codes := decide (optF w 21 19 < 6) }
/-- V.CVT. -/
def execVCvt (q st : Nat) (w : IWord) (s : State) : Res :=
  runPipe s q st w { maj := 8, sub := 7, f1 := .vw, f2 := .v, opt := maskOf 21 17, masks := true,
                     codes := optF w 21 20 != 3 && optF w 19 18 != 3 }
/-- V.IADD. -/
def execVIadd (q st : Nat) (w : IWord) (s : State) : Res := runPipe s q st w (vInt 0 w)
/-- V.ISUB. -/
def execVIsub (q st : Nat) (w : IWord) (s : State) : Res := runPipe s q st w (vInt 1 w)
/-- V.IMUL. -/
def execVImul (q st : Nat) (w : IWord) (s : State) : Res := runPipe s q st w (vInt 2 w)
/-- V.SHL. -/
def execVShl (q st : Nat) (w : IWord) (s : State) : Res := runPipe s q st w (vInt 3 w)
/-- V.SHR. -/
def execVShr (q st : Nat) (w : IWord) (s : State) : Res := runPipe s q st w (vInt 4 w)
/-- V.SRA. -/
def execVSra (q st : Nat) (w : IWord) (s : State) : Res := runPipe s q st w (vInt 5 w)
/-- V.AND. -/
def execVAnd (q st : Nat) (w : IWord) (s : State) : Res := runPipe s q st w (vInt 6 w)
/-- V.OR. -/
def execVOr (q st : Nat) (w : IWord) (s : State) : Res := runPipe s q st w (vInt 7 w)
/-- V.XOR. -/
def execVXor (q st : Nat) (w : IWord) (s : State) : Res := runPipe s q st w (vInt 8 w)
/-- V.IMIN. -/
def execVImin (q st : Nat) (w : IWord) (s : State) : Res := runPipe s q st w (vInt 9 w)
/-- V.IMAX. -/
def execVImax (q st : Nat) (w : IWord) (s : State) : Res := runPipe s q st w (vInt 10 w)
/-- V.EXP2. -/
def execVExp2 (q st : Nat) (w : IWord) (s : State) : Res := runPipe s q st w (vTrn 0)
/-- V.LOG2. -/
def execVLog2 (q st : Nat) (w : IWord) (s : State) : Res := runPipe s q st w (vTrn 1)
/-- V.RCP. -/
def execVRcp (q st : Nat) (w : IWord) (s : State) : Res := runPipe s q st w (vTrn 2)
/-- V.RSQRT. -/
def execVRsqrt (q st : Nat) (w : IWord) (s : State) : Res := runPipe s q st w (vTrn 3)
/-- V.SQRT. -/
def execVSqrt (q st : Nat) (w : IWord) (s : State) : Res := runPipe s q st w (vTrn 4)
/-- V.TANH. -/
def execVTanh (q st : Nat) (w : IWord) (s : State) : Res := runPipe s q st w (vTrn 5)
/-- V.RSUM. -/
def execVRsum (q st : Nat) (w : IWord) (s : State) : Res := runPipe s q st w (vRed 8 w)
/-- V.RMAX. -/
def execVRmax (q st : Nat) (w : IWord) (s : State) : Res := runPipe s q st w (vRed 9 w)
/-- V.RMIN. -/
def execVRmin (q st : Nat) (w : IWord) (s : State) : Res := runPipe s q st w (vRed 10 w)
/-- V.PERM. -/
def execVPerm (q st : Nat) (w : IWord) (s : State) : Res :=
  runPipe s q st w { maj := 0x0B, sub := 0, f1 := .vw, f2 := .v, f3 := .v, opt := maskOf 22 22, masks := true }
/-- V.BITREV: G from 1 to 9, or to 8 for 64-bit elements. -/
def execVBitrev (q st : Nat) (w : IWord) (s : State) : Res :=
  runPipe s q st w { maj := 0x0B, sub := 1, f1 := .vw, f2 := .v, opt := maskOf 22 18, masks := true,
                     codes := decide (1 ≤ optF w 21 18) && decide (optF w 21 18 ≤ 9 - optF w 22 22) }

/-- The row check of V.LD and V.ST, which the Beater executes, with the range read or written. -/
def planRow (write : Bool) (_ : State) (f : Flight) : Issue :=
  { fault := spadCheck (f.val 1) 2048 2048
    f := if write then { f with part := .beater, spWr := [(f.val 1, 2048)] } else { f with part := .beater, spRd := [(f.val 1, 2048)] } }

/-- V.LD: a poisoned row faults and leaves the register unchanged; an element that an uncorrectable word of the guard feeds is all
ones, and the stream faults (R123). -/
def actVld (q : Nat) (s : State) (f : Flight) : State :=
  match spadRead s q (f.val 1) 2048 with
  | (s1, none) => exFault s1 q f 0x30
  | (s1, some bs) =>
    let (s2, bad) := readRegs s1 q { f with vRd := [] } 0 32
    let g := guardOf (stream s2 q f.stream) f
    let o : BOut := { v := [(f.w.f1.toNat, 32, maskLanes g ((chunksOf 4 512 bs).map (fun c => (leNat c, false))))], bad := 2 ^ 32 - 1 }
    let s3 := writeOut s2 q f.stream (feedGuard f bad o)
    if bad.isEmpty then s3 else exFault s3 q f 0x30

/-- V.ST: lanes fed by an uncorrectable word are written as all ones, and the stream faults (R123). -/
def actVst (q : Nat) (s : State) (f : Flight) : State :=
  let (s1, bad) := readRegs s q { f with vRd := [f.w.f1.toNat] } 0 32
  let x := stream s1 q f.stream
  let o : BOut := { v := [(0, 32, maskLanes (guardOf x f) (vLanes x bad f.w.f1.toNat 32))] }
  let ls := ((feedGuard f bad o).v.map (·.2.2)).headD []
  let a := f.val 1
  let lane (l : Option Lane) : List Byte := match l with
    | none => []
    | some (v, t) => leBytes 4 (if t then 2 ^ 32 - 1 else v)
  let s2 :=
    if ls.all Option.isSome then spadWrite s1 q a (ls.flatMap lane)
    else (chunksOf 2 256 ls).zipIdx.foldl (fun s p =>
      match p.1 with
      | [none, h] => spadWrite s q (a + 8 * p.2 + 4) (lane h)
      | [l, h] => spadWrite s q (a + 8 * p.2) (lane l ++ lane h)
      | _ => s) s1
  if bad.isEmpty then s2 else exFault s2 q f 0x30

/-- V.LD. -/
def execVLd (q st : Nat) (w : IWord) (s : State) : Res :=
  .next (issue s q st w { maj := 0x0C, sub := 0, f1 := .vw, f2 := .s, masks := true, effect := true } (planRow false) (actVld q))
/-- V.ST. -/
def execVSt (q st : Nat) (w : IWord) (s : State) : Res :=
  .next (issue s q st w { maj := 0x0C, sub := 1, f1 := .v, f2 := .s, masks := true, effect := true } (planRow true) (actVst q))

/-- PIPE_START: the occupancy of a pipe ends, and the oldest instruction it may start does, where every pipe it needs is free. -/
def pipeStart (q pipe : Nat) (u : LaneUpset) (s : State) : State :=
  if !(s.boot.ready && !s.fe && decide (q < 64) && decide (pipe < 4)) then s else
  let x := quire s q
  let s1 := setQuire s q { x with pipeBusy := x.pipeBusy - (x.pipeBusy &&& 2 ^ pipe) }
  match (pipeHeads (quire s1 q) pipe).find? (fun f => (quire s1 q).pipeBusy &&& partPipes f.part == 0) with
  | none => addUpsets s1 q u.stores u.paths
  | some f => settleQuire (pipeRun q u (occupy s1 q f) f) q

/-- PIPE_START. -/
def execPipeStart (q pipe : Nat) (u : LaneUpset) (s : State) : Res := .next (pipeStart q pipe u s)

end Sys2Proof.Machine
end

