-- ==== Sys2Proof/Machine/Fence.lean ====
section
/-! DEFINITION. FENCE_END: what an instruction does once the ordering it waits for holds (R175, R177). -/

namespace Sys2Proof.Machine

/-- The words that a stochastic Calender operation has drawn (R446). -/
def drawnWords (f : Flight) : List Nat :=
  match f.phase with
  | .drawing _ got => blockWords got
  | _ => []

/-- The effect of an instruction whose release ordering holds. -/
def fenceAct (q : Nat) (s : State) (f : Flight) : State :=
  match f.maj, f.sub with
  | 0x05, 0 => actLd q s f
  | 0x14, _ => calRun q (drawnWords f) s f
  | 0x05, _ => actSt q s f
  | 0x18, _ => polyAct q s f
  | 0x1C, _ => aggAct q s f
  | 0x20, 0 => copyAct q s f
  | 0x20, 1 => prefAct q s f
  | 0x20, _ => mloadAct q s f
  | 0x23, 0 => dropFlight s q f.stream f.seq
  | 0x23, 2 => signalAct q s f
  | 0x23, 3 => barAct q s f
  | 0x23, 4 => mailbox q (putFlight s q { f with phase := .queued })
  | 0x23, 5 => mailbox q (putFlight s q { f with phase := .receiving })
  | 0x28, 0 => attachAct q s f
  | 0x28, 1 => stepAct q s f
  | 0x28, 2 => sampleStart q s f
  | 0x28, 3 => swapAct q s f
  | _, _ => s

/-- The start of an instruction that was held back after its issue. -/
def heldStart (q : Nat) (s : State) (f : Flight) : State :=
  let gone := dropFlight s q f.stream f.seq
  match f.maj, f.sub with
  | 0x0C, 0 => actVld q gone f
  | 0x0C, _ => actVst q gone f
  | 0x18, 0 => nttRun q false gone f
  | 0x18, 1 => nttRun q true gone f
  | 0x26, _ => keyStart q gone f
  | 0x23, 1 => waitStart q gone f
  | 0x23, 2 => releaseFirst s q f (optF f.w 22 20) (signalAct q)
  | 0x23, 3 => releaseFirst s q f (optF f.w 22 20) (barAct q)
  | 0x23, 4 => mboxStart q s f .queued
  | 0x23, 5 => mboxStart q s f .receiving
  | 0x28, 1 => releaseFirst s q f 3 (stepAct q)
  | _, _ => ordered s q f (fenceAct q)

/-- An instruction held back may start: the ranges of a D. instruction are those its descriptor now gives. -/
def mayStart (s : State) (q : Nat) (f : Flight) : Bool :=
  if f.maj = 0x20 then
    let i := planCopy q s f
    !i.wait && !blocked (quire s q) i.f
  else if isTagged f then !blocked (quire s q) (planPoly q s f).f
  else if f.maj = 0x28 && f.sub = 2 then !pipesTaken (quire s q) 5 && !blocked (quire s q) f
  else !blocked (quire s q) f

/-- The oldest instruction of a stream that waits in a fence, a release, a hold or, its draws taken, a reservation (R46), whose
conditions are met. -/
def fenceWaiting (s : State) (q st : Nat) : Option Flight :=
  (flightsOf (quire s q) st).find? (fun f => match f.phase with
    | .fence n => fenceHolds s q f n && mayStart s q f
    | .held => mayStart s q f
    | .drawing 0 _ => mayStart s q f
    | _ => false)

/-- FENCE_END for stream `st` of quire `q`: the ordering that its oldest ready instruction waits for holds, and the mailbox goes on
with what a reservation or the limit of R188 held back. -/
def fenceEndStep (q st : Nat) (s : State) : State :=
  mailbox q (match fenceWaiting s q st with
    | some f => if f.phase == .held then heldStart q (consumeLines s q f.mem) f else fenceAct q s f
    | none => s)

/-- FENCE_END. -/
def execFenceEnd (q st : Nat) (s : State) : Res := .next (fenceEndStep q st s)

end Sys2Proof.Machine
end

