-- ==== Sys2Proof/Machine/Pins.lean ====
section
/-! DEFINITION. Input filters (R583–R586). -/

namespace Sys2Proof.Machine

/-- An event of the pins: raised at once, or when the device becomes ready (R586). -/
def raisePin (s : State) (code i : Nat) : State :=
  let e := mkEvent 0 1 0 code none i
  if s.boot.ready then raise s e else { s with ev.deferred := s.ev.deferred ++ [e] }

/-- The edges of an input in the last 100 µs. -/
def recentEdges (s : State) (x : Pin) : List Nat := x.edges.filter (fun t => decide (s.now < t + 1000000))

/-- RAW_PIN_EDGE: an edge enters the filter; the eleventh within 100 µs forces the output (R584). -/
def rawEdge (i : Nat) (level : Bool) (s : State) : State :=
  let x := pin s i
  if i ≥ 6 || x.raw == level then s else
  let e := s.now :: recentEdges s x
  let y := { x with raw := level, edges := e }
  if !s.power.rails then setPin s i { y with edges := [] }
  else if e.length > 10 && !x.forced then
    let s0 := setPin s i { y with forced := true }
    -- the output becomes asserted, and the input acts (R584)
    let s1 := if x.asserted then s0 else pinActs i s0
    if i ≥ 4 then s1
    else raisePin (fset (fset s1 .gctPinSts (8 + i) (8 + i) 1) .gctAlert 1 1 1) 0x02 i
  else setPin s i y

/-- FILTER_OUTPUT_CHANGE: a level has held for 2 µs, or a force ends.  An output that becomes asserted acts as its input does; one that
is released lets the rails restart (SHUTDN_N), and the boot of a released PERST_N comes with its own command, which says what it finds.
-/
def filterChange (i : Nat) (s : State) : State :=
  let x := pin s i
  if i ≥ 6 || !s.power.rails then s else
  let e := recentEdges s x
  let still := x.forced && decide (e.length > 10)
  if still then s
  else
    let settled := !x.forced || e.all (fun t => decide (t + 20000 ≤ s.now))
    let y := { x with edges := e, forced := false, out := if settled then x.raw else x.out }
    let s1 := setPin s i { y with held := y.held && y.asserted }
    if y.asserted && !x.asserted then pinActs i s1
    else if i = 3 && x.asserted && !y.asserted then restart s1
    else s1

/-- PIN_HELD: an assertion of PWRBRK_N or THROT_N reaches 1 s (R585). -/
def pinHeldStep (i : Nat) (s : State) : State :=
  let x := pin s i
  if (i == 1 || i == 2) && x.asserted && !x.held && s.power.rails then
    raisePin (fset (fset (setPin s i { x with held := true }) .gctPinSts (11 + i) (11 + i) 1) .gctAlert 1 1 1) 0x01 i
  else s

/-- RAW_PIN_EDGE. -/
def execRawPinEdge (pin : Nat) (level : Bool) (s : State) : Res := .next (rawEdge pin level s)
/-- FILTER_OUTPUT_CHANGE. -/
def execFilterOutputChange (pin : Nat) (s : State) : Res := .next (filterChange pin s)
/-- PIN_HELD. -/
def execPinHeld (pin : Nat) (s : State) : Res := .next (pinHeldStep pin s)

end Sys2Proof.Machine
end

