-- ==== Sys2Proof/Machine/Security.lean ====
section
/-! DEFINITION. Modes, transport keys, deckle commands, tenant removal, Watermark report bodies, live activation (ch. 16). -/

namespace Sys2Proof.Machine

/-! ### Modes (R456) -/

/-- An accepted mode change: SPDM sessions end, profiling counters clear, the TAP is held where the mode is SEALED. -/
def changeMode (sealed : Bool) (s : State) : State :=
  if s.sealed = sealed then s else
  let s1 := { s with sealed := sealed, spdm := { s.spdm with sessions := [] } }
  let s2 := (List.range 4).foldl (fun s k => rset s .gctPrf 0 k) (fset s1 .secSts 3 3 (b2n sealed))
  (List.range 68).foldl (fun s p => (List.range 4).foldl (fun s j => rset s .qrePrf 0 p j) s) s2

/-- A request for a mode: accepted or refused, which ERR shows. -/
def askMode (sealed : Bool) (s : State) : Bool × State :=
  let ok := !anyDeckle s && (if sealed then s.fuses.lc != 3 else !s.fuses.sealOnly || s.fuses.lc == 3)
  (ok, fset (if ok then changeMode sealed s else s) .secMode 1 1 (b2n (!ok)))

/-! ### Partition transport keys (R464) -/

/-- LOAD installs the words in slot SLOT; DESTROY zeroises it. -/
def ptkAct (d v : Nat) (s0 : State) : State :=
  let s := handlerUse s0 .keyStore 5 0
  let slot := bits v 0 0
  let key (x : Deckle) : List Byte := (List.range 8).flatMap (fun j => leBytes 4 (tget 0#32 x.ptkWords j).toNat)
  let x := deckle s d
  let x1 := if bit v 1 then { x with ptk := tupd x.ptk slot { key := key x }, ptkWords := [] } else x
  let x2 := if bit v 3 then { x1 with ptk := tdel x1.ptk slot } else x1
  (List.range 4).foldl wakePort (setDeckle s d x2)

/-- A write of SEC_PTK_CTL that R464 accepts. -/
def ptkWrite (fn d v : Nat) (s : State) : State :=
  if !(reaches s fn .secPtkCtl d 0 && deckleExists s d) then s else
  let s1 := regEffect s fn .secPtkCtl d 0 (2 ^ 32 - 1) v
  if !s.sealed || (fn == d + 1 && (func s fn).tdi == .run) then ptkAct d v s1 else s1

/-! ### Deckle commands (R475–R478) -/

/-- A deckle command: the fields of PRT_CMD and PRT_CMD2. -/
structure DkCmd where
  op : Nat
  d : Nat
  erase : Nat
  tier : Nat
  enc : Nat
  groups : Nat
  ways : Nat
  first : Nat
  count : Nat
  deriving DecidableEq, Repr

/-- Table 16.11. -/
def dkCmdOf (cmd cmd2 : Nat) : DkCmd :=
  { op := bits cmd 3 0, d := bits cmd 7 4, erase := bits cmd 8 8, tier := bits cmd 9 9, enc := bits cmd 10 10, groups := bits cmd 31 16
    ways := bits cmd 47 32, first := bits cmd 56 48, count := bits cmd2 8 0 }

/-- Granules of the command's range as MEM_GOWN indexes. -/
def DkCmd.granules (c : DkCmd) : List Nat := (List.range c.count).map (fun i => c.first + i + 512 * c.tier)
/-- Its first DPA. -/
def DkCmd.base (c : DkCmd) : Nat := c.first * 2 ^ 30 + c.tier * 0x8000000000
/-- Its bytes. -/
def DkCmd.bytes (c : DkCmd) : Nat := c.count * 2 ^ 30
/-- The range is empty, goes beyond the tier, or holds H0. -/
def DkCmd.badRange (c : DkCmd) : Bool :=
  c.count == 0 || decide (c.first + c.count > (if c.tier = 0 then 288 else 496)) || (c.tier == 0 && c.first == 0)

/-- Memory of deckle `d` is encrypted. -/
def encOf (s : State) (d : Nat) : Bool := s.sealed || fget s .memDctl 1 1 d == 1

/-- The quires of a deckle become the roles IDLE (R194). -/
def idleRoles (s : State) (d : Nat) : State :=
  (quiresOf s d).foldl (fun s q => if (physOf s q).isSome then mailbox q (assignRole s q 0) else s) s

/-- CREATE (R477). -/
def createDeckle (c : DkCmd) (s0 : State) : State :=
  let s := handlerUse s0 .keyStore 5 0
  let x := deckle s c.d
  let y : Deckle :=
    { phase := .active, lastOp := 1, groups := c.groups, ways := c.ways, erase := x.erase, memgen := (x.memgen + 1) % 2 ^ 32
      mek := if s.fe then none else some (mekOf s c.d ((x.memgen + 1) % 2 ^ 32)) }
  let s1 := setDeckle s c.d y
  let s2 := if s.sealed then s1 else
    let s2 := fset s1 .memDctl 1 1 c.enc c.d
    if c.enc = 0 then approvedOff s2 else s2
  let s3 := (quiresOf s2 c.d).foldl (fun s q =>
    match physOf s q with
    | some p => (List.range 4).foldl (fun s j => rset s .qrePrf 0 p j) s
    | none => s) s2
  idleRoles s3 c.d

/-- What refuses CREATE, as a fault code (0 none). -/
def createCheck (c : DkCmd) (s : State) : Nat :=
  if deckleExists s c.d || (List.range 16).any (fun d => deckleExists s d && (deckle s d).groups &&& c.groups != 0) then 0x61
  else if c.groups = 0 then 1
  else if s.sealed && (c.ways = 0 || (List.range 16).any (fun d => deckleExists s d && (deckle s d).ways &&& c.ways != 0)) then 3
  else 0

/-- The last accepted command of a deckle and its outcome. -/
def tookCmd (c : DkCmd) (s : State) : State := setDeckle s c.d { deckle s c.d with lastOp := c.op, result := 0 }

/-- GRANT (R478): the granules enter in the zero state. -/
def grantGranules (c : DkCmd) (s : State) : State :=
  let dirty := s.dram.data.any (fun p => decide (c.base ≤ p.1) && decide (p.1 < c.base + c.bytes))
    || s.dram.poison.any (fun a => decide (c.base ≤ a) && decide (a < c.base + c.bytes))
  let s1 := if dirty then memFresh s c.base c.bytes else s
  tookCmd c (c.granules.foldl (fun s g => { s with dram.owner := tset 0 s.dram.owner g (c.d + 1) }) s1)

/-- What refuses GRANT. -/
def grantCheck (c : DkCmd) (s : State) : Nat :=
  if (deckle s c.d).phase != .active then 0x61
  else if c.badRange then 1
  else if c.granules.any (fun g => tget 0 s.dram.owner g != 0) then 3
  else 0

/-- The DPA ranges of the protected ranges of deckle `d`. -/
def protDpas (s : State) (d : Nat) : List (Nat × Nat) :=
  (deckle s d).prot.flatMap (fun p => if p.kind = .xlt then [(p.base, p.len)] else (reach s d .engine false p.base p.len).segs)

/-- What refuses RECLAIM; a granule whose zeroing already runs is no longer the deckle's. -/
def reclaimCheck (c : DkCmd) (s : State) : Nat :=
  let here (g : Nat × Nat) : Bool := overlaps g (c.base, c.bytes)
  if (deckle s c.d).phase != .active then 0x61
  else if c.badRange then 1
  else if c.granules.any (fun g => tget 0 s.dram.owner g != c.d + 1) || s.zeros.any (fun z => z.2.why == 3 && z.2.ranges.any here)
      || s.dram.mapped.any (fun m => here (m.1 * 65536, m.2 * 65536)) || (protDpas s c.d).any here then 3
  else 0

/-- RECLAIM (R478). -/
def reclaimGranules (c : DkCmd) (s : State) : State :=
  let s1 := setDeckle s c.d { deckle s c.d with lastOp := 3, result := 0, erase := c.erase }
  if c.erase = 0 && encOf s c.d then freeGranules (memFresh s1 c.base c.bytes) c.granules
  else zeroStart s1 { ranges := [(c.base, c.bytes)], why := 3, arg := c.d }

/-! ### Removal and reset (R479, R480) -/

/-- Rings that the VF of deckle `d` owns. -/
def ringsOf (s : State) (d : Nat) : List Nat := (List.range 256).filter (fun r => ringFn s r == d + 1)

/-- The TDI of a VF enters ERROR: its rings are HALTED (R372). -/
def tdiError (s : State) (fn : Nat) : State :=
  ((List.range 256).filter (fun r => ringFn s r == fn)).foldl (fun s r => haltRing s r 5) (setFunc s fn { func s fn with tdi := .error })

/-- Step 1: the removal point. -/
def removalPoint (c : DkCmd) (s : State) : State :=
  let x := deckle s c.d
  let s1 := setDeckle s c.d { x with phase := .draining, lastOp := c.op, result := 0, erase := c.erase, t0 := s.tsc }
  let s2 := (quiresOf s1 c.d).foldl abandonFlights s1
  let s3 := (ringsOf s2 c.d).foldl (fun s r => flushUnstarted s r 2) s2
  let t := (func s3 (c.d + 1)).tdi
  if t = .locked || t = .run then tdiError s3 (c.d + 1) else s3

/-- Descriptors of a deckle that have started complete with ABORTED_TENANT. -/
def abortStarted (d : Nat) (s : State) : State :=
  s.host.rings.foldl (fun s p =>
    (p.2.tracked.filter (fun e => e.started && e.deckle == d)).foldl (fun s e => complete s p.1 e.id 2 0 0) s) s

/-- A queue pair with unfinished work enters ERROR with cause ABORTED_TENANT, and its records are not written. -/
def qpAbort (i : Nat) (s : State) : State :=
  let q := qpOf s i
  if !(q.state == .init || receives q) || (q.started.isEmpty && q.sqPi == q.sqCi && q.msgs.isEmpty && q.reads.isEmpty) then s else
  let s1 := setQp s i { q with
    state := .error, cause := 2, msgs := [], reads := [], recvDone := [], paths := [], started := [], flushed := true
    sqCi := q.sqPi, sqNext := q.sqPi, rqCi := q.rqPi }
  qpSend s1 i { op := 0x14, rkey := 2 }

/-- The queue pairs of deckle `d`. -/
def qpsOfDeckle (s : State) (d : Nat) : List Nat := (s.izk.qps.filter (fun p => p.2.state != .free && p.2.deckle == d)).map (·.1)

/-- The registers of a deckle's own instances that a PARTITION reset returns to their reset values (Table 22.1). -/
def perDeckle (r : Reg) : Bool :=
  match r with
  | .secPtkKey | .secPtkCtl | .memXltBase | .memXltSize | .memDctl | .izkDkCmd | .izkDkArg | .izkDkRes | .izkDkCnt
  | .ctxHpoolBase | .ctxHpoolCnt | .ctxLpoolBase | .ctxLpoolCnt | .ctxTpoolBase | .ctxTpoolCnt | .ctxMapBase
  | .ctxPoolCtl | .ctxSwpCtl | .ctxPoolFree | .ctxPrtCnt | .plyFltCnt | .plyDualCnt => true
  | _ => false

/-- Those registers of deckle `d` are reset; ENC, which the deckle keeps, stays. -/
def clearDeckleRegs (s : State) (d : Nat) : State :=
  let enc := fget s .memDctl 1 1 d
  fset { s with regs := s.regs.filter (fun p => match regAt p.1 with
    | some h => !(perDeckle h.row.reg && h.k == d)
    | none => true) } .memDctl 1 1 enc d

/-- The granules of deckle `d`. -/
def granulesOfDeckle (s : State) (d : Nat) : List Nat := (s.dram.owner.filter (fun p => p.2 == d + 1)).map (·.1)

/-- The DPA of a granule. -/
def granuleDpa (g : Nat) : Nat := if g ≥ 512 then (g - 512) * 2 ^ 30 + 0x8000000000 else g * 2 ^ 30

/-- R480: the Stock cache lines of deckle `d` are written back and invalidated; in SEALED mode those are its ways (R324). -/
def flushDeckle (s : State) (d : Nat) : State :=
  flushLines s (fun l => ownerOf s l.base == some d || l.dk == d + 1 || (s.sealed && bit (deckle s d).ways l.way))

/-- R480: the scrub list, apart from the transport objects. -/
def scrubDeckle (d : Nat) (s0 : State) : State :=
  let s := flushDeckle s0 d
  let qs := quiresOf s d
  let s1 := qs.foldl (fun s q => if (physOf s q).isSome then mailbox q (assignRole (clearQuire s q false) q 0) else s) s
  let mine := (s1.sessions.filter (fun p => p.2.deckle == d)).map (·.1)
  let s2 := mine.foldl freeSession { s1 with zeros := s1.zeros.filter (fun z => !((z.2.why == 1 || z.2.why == 2) && mine.contains z.2.arg)) }
  let s3 := { s2 with
    serving := { s2.serving with
      ctxs := s2.serving.ctxs.filter (fun p => p.2.deckle != d || p.2.state == .idle)
      models := s2.serving.models.filter (fun p => p.1 / 16 != d)
      autoOut := s2.serving.autoOut.filter (· != d) }
    poly := tdel s2.poly d
    host.measured := s2.host.measured.filter (fun m => m.deckle != d)
    dram.mapped := (granulesOfDeckle s2 d).foldl (fun m g => delRange m (granuleDpa g / 65536) 16384) s2.dram.mapped }
  let x := deckle s3 d
  clearDeckleRegs (setDeckle s3 d { x with ptkWords := [], programs := [], measures := [], prot := [], tables := [], authAt := none }) d

/-- Step 3: the drain close and the scrub. -/
def drainCloseStep (d : Nat) (s : State) : State :=
  if d ≥ 16 || (deckle s d).phase != .draining then s else
  let s1 := (quiresOf s d).foldl (fun s q => (List.range 8).foldl (abortStream q) s) s
  let s2 := (qpsOfDeckle s1 d).foldl (fun s i => qpAbort i s) (abortStarted d s1)
  scrubDeckle d (setDeckle s2 d { deckle s2 d with phase := .scrubbing })

/-- Step 4: the memory key and the transport keys are zeroised. -/
def keyDestroy (d : Nat) (s : State) : State :=
  if d ≥ 16 || (deckle s d).phase != .scrubbing then s else setDeckle s d { deckle s d with mek := none, ptk := [] }

/-- The memory of a deckle is erased by keeping no key for it (R478). -/
def cryptoErase (s : State) (d : Nat) : Bool := (deckle s d).erase == 0 && encOf s d

/-- Step 6: an erase that zeroes takes all eight zero engines, each an eighth of every granule (R320). -/
def eraseStart (d : Nat) (s : State) : State :=
  let gs := granulesOfDeckle s d
  if cryptoErase s d || gs.isEmpty then s
  else (List.range 8).foldl (fun s i =>
    zeroStart s { ranges := gs.map (fun g => (granuleDpa g + i * 2 ^ 27, 2 ^ 27)), why := 4, arg := d }) s

/-- Step 5: the scrub ends, and the erase begins. -/
def scrubEndStep (d : Nat) (s : State) : State :=
  let x := deckle s d
  if d ≥ 16 || x.phase != .scrubbing || x.mek.isSome then s else
  let s1 := izkFree s d
  let s2 := { s1 with rng.drbgs := s1.rng.drbgs.map (fun p => (p.1, { p.2 with queue := p.2.queue.filter (fun r => r.use != .mrKey d) })) }
  let s3 := (ringsOf s2 d).foldl (fun s r => fset (setRing s r { ring s r with state := .disabled, tracked := [], unsignalled := 0 })
    .hqiRingCfg 0 0 0 r) s2
  let s4 := (quiresOf s3 d).foldl (fun s q => match physOf s q with
    | some p => if fget s .qreRst 0 0 p = 1 then fset (fset s .qreRst 1 0 0 p) .qreRst 3 2 1 p else s
    | none => s) s3
  eraseStart d (setDeckle s4 d { deckle s4 d with phase := .erasing })

/-- Step 6: the erase ends: with the last zero request, or with FRESH on every frame. -/
def eraseEndStep (d : Nat) (s : State) : State :=
  let x := deckle s d
  if d ≥ 16 || x.phase != .erasing || zeroRuns s 3 d || zeroRuns s 4 d then s else
  let gs := granulesOfDeckle s d
  let s1 := if cryptoErase s d then gs.foldl (fun s g => memFresh s (granuleDpa g) (2 ^ 30)) s else s
  if x.lastOp = 4 then
    let n := (x.memgen + 1) % 2 ^ 32
    let s2 := handlerUse s1 .keyStore 5 0
    setDeckle s2 d { x with phase := .active, memgen := n, mek := if s2.fe then none else some (mekOf s d n), result := 0 }
  else
    fset (setDeckle (freeGranules s1 gs) d { lastOp := x.lastOp, erase := x.erase, memgen := x.memgen }) .memDctl 1 1 0 d

/-! ### The commands -/

/-- One deckle command: its acceptance code and its effect (R475, R476). -/
def deckleCmd (c : DkCmd) (s : State) : Nat × State :=
  let run (code : Nat) (f : State → State) : Nat × State := if code = 0 then (0, f s) else (code, s)
  if deckleExists s c.d && (deckle s c.d).phase != .active then (0x61, s)
  else if c.op = 1 then run (createCheck c s) (createDeckle c)
  else if c.op = 2 then run (grantCheck c s) (grantGranules c)
  else if c.op = 3 then run (reclaimCheck c s) (reclaimGranules c)
  else if c.op = 4 || c.op = 5 then run (if (deckle s c.d).phase = .active then 0 else 0x61) (removalPoint c)
  else (1, s)

/-- A command from its source: the PF writes PRT_CMD and then GO in PRT_CMD2; Pliac carries the same fields. -/
def issueCmd (op : Nat) (src : CmdSource) (cmd cmd2 : Nat) (s : State) : State :=
  let c := dkCmdOf cmd cmd2
  if c.op != op then s else
  match src with
  | .pliac =>
    if !(s.boot.ready && kclkRuns s) then s else
    let (code, s1) := deckleCmd c s
    fset s1 .prtRes 7 0 code
  | .function fn =>
    if !(bit cmd2 31 && reaches s fn .prtCmd2 0 0) then s else
    let s1 := regEffect (regEffect s fn .prtCmd 0 0 (2 ^ 64 - 1) cmd) fn .prtCmd2 0 0 (2 ^ 32 - 1) cmd2
    let (code, s2) := deckleCmd c s1
    fset s2 .prtRes 7 0 code

/-! ### Reports (R472–R474) -/

/-- Put an entry into a list in the order of Table 16.6: by kind, then by number. -/
def measurePut (x : Measure) : List Measure → List Measure
  | [] => [x]
  | y :: ys => if x.kind < y.kind || (x.kind = y.kind && x.num < y.num) then x :: y :: ys else y :: measurePut x ys

/-- A measurement list in the order of Table 16.6. -/
def measureOrder (l : List Measure) : List Measure := l.foldl (fun acc x => measurePut x acc) []

/-- One deckle section. -/
def reportSection (s : State) (d : Nat) : List Byte :=
  let x := deckle s d
  let gs := granulesOfDeckle s d
  let n (k : Nat) : Nat := (x.measures.filter (fun m => m.kind == k)).length
  leBytes 1 d ++ leBytes 1 (b2n (encOf s d)) ++ leBytes 2 x.groups ++ leBytes 2 (gs.filter (· < 512)).length
    ++ leBytes 2 (gs.filter (· ≥ 512)).length ++ leBytes 2 x.ways ++ leBytes 4 x.memgen ++ leBytes 1 (n 1) ++ leBytes 1 (n 2)
    ++ leBytes 2 (n 3) ++ leBytes 1 (n 4) ++ zeros 45 ++ (measureOrder x.measures).flatMap (·.body)

/-- The length of a Watermark report with `n` bytes of deckle sections: head, endorsement, sections, signature (Table 16.6). -/
def reportSize (n : Nat) : Nat := n + 34432

/-- Bytes 0x000–0x08F of a report of `n` sections of `m` bytes in all (Table 16.6). -/
def reportHead (s : State) (n m : Nat) : List Byte :=
  let im := s.boot.running.getD {}
  let flags := b2n s.sealed + 2 * b2n s.fuses.sealOnly + 4 * fget s .secSts 5 5 + 8 * fget s .secSts 10 10
  leBytes 4 0x31525751 ++ leBytes 2 1 ++ leBytes 2 n ++ leBytes 4 (reportSize m) ++ zeros 4
    ++ fitB 16 s.fuses.serial ++ sha256 s.boot.idkPub ++ fitB 32 (nth [] s.fuses.vkeys im.vkey) ++ fitB 32 im.digest
    ++ leBytes 8 im.seq ++ leBytes 1 im.svn ++ leBytes 1 s.fuses.arb ++ leBytes 1 s.fuses.lc ++ leBytes 1 flags ++ zeros 4
    ++ leBytes 8 s.boot.bootcnt ++ leBytes 8 s.tsc

/-- The bytes of a Watermark report before its signature, for a nonce (Table 16.6). -/
def reportBody (s : State) (nonce : List Byte) : List Byte :=
  let secs := ((List.range 16).filter (deckleExists s)).map (reportSection s)
  let body := secs.flatMap (fun b => b)
  reportHead s secs.length body.length ++ fitB 32 nonce ++ fitB 32 s.boot.wmkPub ++ zeros 32
    ++ fitB 17088 s.boot.endorse ++ body

/-- The report with its signature under the Watermark key. -/
def signedReport (s : State) (body : List Byte) : List Byte :=
  let im := s.boot.running.getD {}
  body ++ fitB 17088 (Config.slhSign (wmkSeed s im.digest) body)

/-- Reports can be asked for: the Watermark key passed its test (R471). -/
def canReport (s : State) : Bool := s.boot.ready && fget s .secSts 8 8 == 0 && !s.fe

/-! ### Live activation (R468) -/

/-- The staged bank. -/
def stagedBank (s : State) : Nat := 1 - s.boot.bank

/-- LIVE_ACTIVATION: the security block, in SCLK, takes the staged image; a free value says what the pairwise consistency test of its
Watermark key gives (R471; log entry 113). -/
def liveStep (s : State) : State :=
  if s.mgt.staging.state != .verifying || !s.reports.isEmpty || !s.boot.ready || !domainRuns s 2 then s else
  match (bank s (stagedBank s)).image with
  | none => s
  | some im =>
    let b := stagedBank s
    let (v, s0) := takeFree s
    let s1 := takeImage { s0 with boot.bank := b } im (v % 2 == 0)
    raise { fset s1 .secSts 9 9 b with mgt.staging.state := .live } (mkEvent 0 5 0 0x03)

/-! ### Meanings -/

/-- SEAL. -/
def execSeal (fn : Nat) (value : Word) (s : State) : Res :=
  .next (ownWrite s fn .secMode 0 value.toNat (fun s => if bit value.toNat 0 then (askMode true s).2 else s))
/-- LOAD_KEY. -/
def execLoadKey (fn d : Nat) (value : Word) (s : State) : Res := .next (if bit value.toNat 1 then ptkWrite fn d value.toNat s else s)
/-- DESTROY. -/
def execDestroy (fn d : Nat) (value : Word) (s : State) : Res := .next (if bit value.toNat 3 then ptkWrite fn d value.toNat s else s)
/-- CREATE. -/
def execCreate (src : CmdSource) (cmd : Word) (cmd2 : Word32) (s : State) : Res := .next (issueCmd 1 src cmd.toNat cmd2.toNat s)
/-- GRANT. -/
def execGrant (src : CmdSource) (cmd : Word) (cmd2 : Word32) (s : State) : Res := .next (issueCmd 2 src cmd.toNat cmd2.toNat s)
/-- RECLAIM. -/
def execReclaim (src : CmdSource) (cmd : Word) (cmd2 : Word32) (s : State) : Res := .next (issueCmd 3 src cmd.toNat cmd2.toNat s)
/-- RESET. -/
def execReset (src : CmdSource) (cmd : Word) (cmd2 : Word32) (s : State) : Res := .next (issueCmd 4 src cmd.toNat cmd2.toNat s)
/-- REMOVE. -/
def execRemove (src : CmdSource) (cmd : Word) (cmd2 : Word32) (s : State) : Res := .next (issueCmd 5 src cmd.toNat cmd2.toNat s)
/-- DRAIN_CLOSE. -/
def execDrainClose (d : Nat) (s : State) : Res := .next (drainCloseStep d s)
/-- KEY_DESTRUCTION. -/
def execKeyDestruction (d : Nat) (s : State) : Res := .next (keyDestroy d s)
/-- SCRUB_END. -/
def execScrubEnd (d : Nat) (s : State) : Res := .next (scrubEndStep d s)
/-- ERASE_END. -/
def execEraseEnd (d : Nat) (s : State) : Res := .next (eraseEndStep d s)
/-- LIVE_ACTIVATION. -/
def execLiveActivation (s : State) : Res := .next (liveStep s)

end Sys2Proof.Machine
end

