-- ==== Sys2Proof/Machine/Spdm.lean ====
section
/-! DEFINITION. The SPDM responder, IDE key management and TDISP (R369–R372). -/

namespace Sys2Proof.Machine

/-- The DOE mailbox of the PF is served. -/
def doeUp (s : State) : Bool := s.boot.ready && s.power.rails && s.boot.pcieUp

/-- Send a response. -/
def say (r : SpdmRsp) (s : State) : State := emit s (.spdm r)

/-- An ERROR response whose code the manual does not give. -/
def sayOther (s : State) : State := let (v, s1) := takeFree s; say (.error (.other (v % 256))) s1

/-- Session `i` is open. -/
def sessOpen (s : State) (i : Nat) : Bool :=
  match tfind s.spdm.sessions i with
  | some x => x.finished
  | none => false

/-- A message answered only inside a session; elsewhere it is a request the device does not answer (Table 12.9). -/
def inside (i : Option Nat) (f : State → State) (s : State) : State :=
  if !doeUp s then s
  else match i with
    | some k => if sessOpen s k then f s else say (.error .unsupportedRequest) s
    | none => say (.error .unsupportedRequest) s

/-- Two fresh keys: the transcript that the key schedule hashes is not among a command's operands. -/
def freshKeys (s : State) : List Byte × List Byte × State :=
  let (a, s1) := takeFree s
  let (b, s2) := takeFree s1
  (leBytes 32 a, leBytes 32 b, s2)

/-- Update a session. -/
def setSess (s : State) (i : Nat) (x : SpdmSession) : State := { s with spdm.sessions := tupd s.spdm.sessions i x }

/-- PSK_EXCHANGE: a session opens once its responder context has been drawn. -/
def pskStart (hint : List Byte) (s : State) : State :=
  if s.fuses.lc = 3 then sayOther s
  else if !hint.isEmpty && hint != fitB 16 s.fuses.serial then say (.error .invalidRequest) s
  else match tfree s.spdm.sessions 4 with
    | none => say (.error .sessionLimitExceeded) s
    | some i =>
      if s.rng.failed then sayOther s
      else askBlock (setSess s i {}) 2 { who := .agent 3 i, use := .psk }

/-- The responder context of session `i` has been drawn. -/
def pskDrawn (i : Nat) (block : List Byte) (s : State) : State :=
  match tfind s.spdm.sessions i with
  | some x =>
    if x.answered then s else
    let (a, b, s1) := freshKeys s
    say (.pskExchange i (block.take 32)) (setSess s1 i { x with answered := true, reqKey := a, rspKey := b })
  | none => s

/-- The draw has failed (R440). -/
def pskFailed (i : Nat) (s : State) : State :=
  match tfind s.spdm.sessions i with
  | some x => if x.answered then s else sayOther { s with spdm.sessions := tdel s.spdm.sessions i }
  | none => s

/-- PSK_FINISH. -/
def pskEnd (i : Nat) (ok : Bool) (s : State) : State :=
  match tfind s.spdm.sessions i with
  | some x =>
    if !x.answered || x.finished then say (.error .unsupportedRequest) s
    else if !ok then sayOther { s with spdm.sessions := tdel s.spdm.sessions i }
    else
      let (a, b, s1) := freshKeys s
      say (.pskFinish i) (setSess s1 i { x with finished := true, reqKey := a, rspKey := b })
  | none => say (.error .unsupportedRequest) s

/-- KEY_UPDATE. -/
def keyUpdated (i : Nat) (s : State) : State :=
  match tfind s.spdm.sessions i with
  | some x => let (a, b, s1) := freshKeys s; say (.keyUpdate i) (setSess s1 i { x with reqKey := a, rspKey := b })
  | none => s

/-- GET_MEASUREMENTS inside session `i`. -/
def measureReq (i index : Nat) (nonce : List Byte) (s : State) : State :=
  if index = 0 then say (.blockCount i 1) s
  else if index = 1 || index = 0xFF then
    if canReport s then { s with reports := s.reports ++ [{ who := .spdm i, body := reportBody s nonce }] }
    else say (.error .unspecified) s
  else say (.error .invalidRequest) s

/-- The signed report of session `i` is larger than a DOE transfer and waits for CHUNK_GET (R369). -/
def reportToSpdm (i : Nat) (data : List Byte) (s : State) : State :=
  if !sessOpen s i then s else
  let h := s.spdm.nextHandle
  say (.error (.largeResponse h)) { s with spdm := { s.spdm with chunkOut := some (h, 0, data), nextHandle := (h + 1) % 256 } }

/-- CHUNK_SEND. -/
def chunkIn (h n : Nat) (last : Bool) (data : List Byte) (s : State) : State :=
  let take (old : List Byte) : State :=
    say (.chunkSendAck h n) { s with spdm.chunkIn := if last then none else some (h, n + 1, old ++ data) }
  if n = 0 then take []
  else match s.spdm.chunkIn with
    | some (h', n', old) => if h' == h && n' == n then take old else sayOther { s with spdm.chunkIn := none }
    | none => sayOther s

/-- CHUNK_GET: the size of a chunk is a value the manual does not give. -/
def chunkNext (h n : Nat) (s : State) : State :=
  match s.spdm.chunkOut with
  | some (h', n', left) =>
    if h' != h || n' != n then sayOther s else
    let (v, s1) := takeFree s
    let k := 1 + v % left.length
    let rest := left.drop k
    say (.chunk h n rest.isEmpty (left.take k)) { s1 with spdm.chunkOut := if rest.isEmpty then none else some (h, n + 1, rest) }
  | none => sayOther s

/-! ### IDE (R371) -/

/-- IDE stream `i`: it carries function `i`. -/
def ideOf (s : State) (i : Nat) : IdeStream := (tfind s.spdm.ide i).getD { fn := i }
/-- Store it. -/
def setIde (s : State) (i : Nat) (x : IdeStream) : State := { s with spdm.ide := tupd s.spdm.ide i x }

/-- KEY_PROG. -/
def keyProgStep (i set : Nat) (key : List Byte) (s : State) : State :=
  if i > 16 || set > 1 then sayOther s else
  say (.keyProg i set) (setIde s i { ideOf s i with keys := tupd (ideOf s i).keys set (fitB 32 key) })

/-- K_SET_GO. -/
def keyGo (i set : Nat) (s : State) : State :=
  if (tfind (ideOf s i).keys set).isNone then sayOther s
  else say (.kSetGo i set) (setIde s i { ideOf s i with secure := true, keySet := set })

/-- K_SET_STOP. -/
def keyStop (i set : Nat) (s : State) : State :=
  let x := ideOf s i
  if (tfind x.keys set).isNone then sayOther s
  else say (.kSetStop i set) (setIde s i { x with keys := tdel x.keys set, secure := x.secure && x.keySet != set })

/-- A TLP of stream `i` fails integrity (R371): AER records it at the stream's function (bit 28, IDE Check Failed, PRESUMED) and the TDI of
a VF enters ERROR, from every state. -/
def ideFailed (i : Nat) (s : State) : State :=
  match tfind s.spdm.ide i with
  | none => s
  | some x =>
    if !x.secure then s else
    let s0 := setIde s i { x with secure := false }
    let s1 := raise (setFunc s0 x.fn { func s0 x.fn with aer := (func s0 x.fn).aer ||| 2 ^ 28 }) (mkEvent 2 3 x.fn 0x02 (fnDeckle x.fn) i)
    if x.fn != 0 then tdiError s1 x.fn else s1

/-! ### TDISP (R372) -/

/-- A TDISP request of a VF inside a session. -/
def tdisp (sess vf : Nat) (f : State → State) (s : State) : State :=
  inside (some sess) (fun s => if vf = 0 || vf > 16 then say (.tdispError vf .invalidInterface) s else f s) s

/-- The number of a TDI state. -/
def tdiCode : Tdi → Nat
  | .unlocked => 0
  | .locked => 1
  | .run => 2
  | .error => 3

/-- LOCK_INTERFACE_REQUEST. -/
def lockStep (vf : Nat) (s : State) : State :=
  if !s.sealed || !deckleExists s (vf - 1) then say (.tdispError vf .invalidDeviceConfiguration) s
  else if (func s vf).tdi != .unlocked then say (.tdispError vf .invalidInterfaceState) s
  else
    let (v, s1) := takeFree s
    say (.tdispLocked vf (leBytes 32 v)) (setFunc s1 vf { func s1 vf with tdi := .locked })

/-- GET_DEVICE_INTERFACE_REPORT. -/
def interfaceReport (vf : Nat) (s : State) : State :=
  let t := (func s vf).tdi
  if t = .locked || t = .run then say (.tdispReport vf [0, 2]) s else say (.tdispError vf .invalidInterfaceState) s

/-- START_INTERFACE_REQUEST. -/
def startStep (vf : Nat) (s : State) : State :=
  if (func s vf).tdi = .locked then say (.tdispStarted vf) (setFunc s vf { func s vf with tdi := .run })
  else say (.tdispError vf .invalidInterfaceState) s

/-! ### Meanings -/

/-- GET_VERSION. -/
def execGetVersion (s : State) : Res := .next (if doeUp s then say (.version [0x13]) s else s)
/-- GET_CAPABILITIES. -/
def execGetCapabilities (s : State) : Res :=
  .next (if doeUp s then say (.capabilities [.pskWithContext, .measNoSignature, .encrypt, .mac, .keyUpdate, .heartbeat, .chunk]) s else s)
/-- NEGOTIATE_ALGORITHMS. -/
def execNegotiateAlgorithms (hash : SpdmHashes) (aead : SpdmAlg) (s : State) : Res :=
  .next (if !doeUp s then s else if hash.base = .sha256 && hash.meas = .sha256 && aead = .aes256gcm then say .algorithms s else sayOther s)
/-- PSK_EXCHANGE. -/
def execPskExchange (hint : List Byte) (_ : List Byte) (s : State) : Res := .next (if doeUp s then pskStart hint s else s)
/-- PSK_FINISH. -/
def execPskFinish (sess : Nat) (verified : Bool) (s : State) : Res := .next (if doeUp s then pskEnd sess verified s else s)
/-- HEARTBEAT. -/
def execHeartbeat (sess : Nat) (s : State) : Res := .next (inside (some sess) (say (.heartbeat sess)) s)
/-- KEY_UPDATE. -/
def execKeyUpdate (sess : Nat) (s : State) : Res := .next (inside (some sess) (keyUpdated sess) s)
/-- END_SESSION. -/
def execEndSession (sess : Nat) (s : State) : Res :=
  .next (inside (some sess) (fun s => say (.endSession sess) { s with spdm.sessions := tdel s.spdm.sessions sess }) s)
/-- GET_MEASUREMENTS. -/
def execGetMeasurements (sess : Option Nat) (index : Nat) (nonce : List Byte) (s : State) : Res :=
  .next (inside sess (measureReq (sess.getD 0) index nonce) s)
/-- CHUNK_SEND. -/
def execChunkSend (handle seq : Nat) (last : Bool) (data : List Byte) (s : State) : Res :=
  .next (if doeUp s then chunkIn handle seq last data s else s)
/-- CHUNK_GET. -/
def execChunkGet (handle seq : Nat) (s : State) : Res := .next (if doeUp s then chunkNext handle seq s else s)
/-- VENDOR_DEFINED_REQUEST: the IDE_KM or TDISP message it carries is a command of its own. -/
def execVendorDefinedRequest (sess : Option Nat) (payload : VendorMsg) (s : State) : Res :=
  .next (inside sess (fun s => match payload with
    | .ideKm _ | .tdisp _ => s
    | .other => say (.error .unsupportedRequest) s) s)
/-- UNSUPPORTED_REQUEST. -/
def execUnsupportedRequest (_ : Nat) (s : State) : Res := .next (if doeUp s then say (.error .unsupportedRequest) s else s)
/-- KEY_PROG. -/
def execKeyProg (sess stream keySet : Nat) (key : List Byte) (s : State) : Res :=
  .next (inside (some sess) (keyProgStep stream keySet key) s)
/-- K_SET_GO. -/
def execKSetGo (sess stream keySet : Nat) (s : State) : Res := .next (inside (some sess) (keyGo stream keySet) s)
/-- K_SET_STOP. -/
def execKSetStop (sess stream keySet : Nat) (s : State) : Res := .next (inside (some sess) (keyStop stream keySet) s)
/-- QUERY. -/
def execQuery (sess : Nat) (s : State) : Res :=
  .next (inside (some sess) (fun s => say (.ideQuery (s.spdm.ide.map (fun p => (p.1, p.2.secure, p.2.keySet)))) s) s)
/-- IDE_FAIL. -/
def execIdeFail (stream : Nat) (s : State) : Res := .next (ideFailed stream s)
/-- GET_TDISP_VERSION: the version is a value the manual does not give. -/
def execGetTdispVersion (sess vf : Nat) (s : State) : Res :=
  .next (tdisp sess vf (fun s => let (v, s1) := takeFree s; say (.tdispVersion (v % 256)) s1) s)
/-- GET_TDISP_CAPABILITIES: the capabilities are a value the manual does not give. -/
def execGetTdispCapabilities (sess vf : Nat) (s : State) : Res :=
  .next (tdisp sess vf (fun s => let (v, s1) := takeFree s; say (.tdispCapabilities (v % 2 ^ 32)) s1) s)
/-- LOCK_INTERFACE_REQUEST. -/
def execLockInterfaceRequest (sess vf : Nat) (s : State) : Res := .next (tdisp sess vf (lockStep vf) s)
/-- GET_DEVICE_INTERFACE_REPORT. -/
def execGetDeviceInterfaceReport (sess vf : Nat) (s : State) : Res := .next (tdisp sess vf (interfaceReport vf) s)
/-- GET_DEVICE_INTERFACE_STATE. -/
def execGetDeviceInterfaceState (sess vf : Nat) (s : State) : Res :=
  .next (tdisp sess vf (fun s => say (.tdispState vf (tdiCode (func s vf).tdi)) s) s)
/-- START_INTERFACE_REQUEST. -/
def execStartInterfaceRequest (sess vf : Nat) (s : State) : Res := .next (tdisp sess vf (startStep vf) s)
/-- STOP_INTERFACE_REQUEST: a FUNCTION reset of the VF. -/
def execStopInterfaceRequest (sess vf : Nat) (s : State) : Res :=
  .next (tdisp sess vf (fun s => say (.tdispStopped vf) (functionReset s vf)) s)

end Sys2Proof.Machine
end

