-- ==== Sys2Proof/Machine/Repair.lean ====
section
/-! DEFINITION. Handling windows, buckets, retirement, the event collector's commands, PCIe width (ch. 17; R598, R599). -/

namespace Sys2Proof.Machine

/-! ### Windows and requests (R506, R515) -/

/-- QRE_ERR_CTL.ACK written 1. -/
def ackWindow (p : Nat) (s : State) : State := if p < 68 then setPhys s p { phys s p with winOpen := false } else s

/-- QRE_ERR_CTL.RETIRE written 1 by function `fn`. -/
def retireWrite (fn p : Nat) (s : State) : State :=
  let refused (s : State) : State := setPhys s p { phys s p with result := 3 }
  if p ≥ 68 then s
  else if fn = 0 && busUp s && !s.fe then
    if s.sealed && ((phys s p).logical.bind (deckleOfQuire s)).isSome then refused s else requestRetire s p
  else if reaches s fn .qreErrCtl p 0 then refused s
  else s

/-! ### Retirement (R515–R519) -/

/-- Usable spares: they hold no logical number and are neither retired nor fenced. -/
def usableSpares (s : State) : List Nat :=
  (List.range 68).filter (fun p => (phys s p).logical.isNone && !(phys s p).retired && !(phys s p).fenced)

/-- A spare fails its test: it is retired with no partner. -/
def spareFails (p : Nat) (s : State) (sp : Nat) : State :=
  let dk := (phys s p).logical.bind (deckleOfQuire s)
  qreRaise (setPhys s sp { phys s sp with retired := true, partner := 0xFF }) p (mkEvent 2 11 p 0x12 dk sp)

/-- Upset words of a quire that is copied: correctable ones are corrected, the others arrive as poison (Table 17.8). -/
def copyUpsets (x : Quire) : Quire :=
  let bad := x.upsets.filter (fun u => u.bits ≥ 2)
  let words := bad.filterMap (fun u => if u.store = .spad then some u.word else none)
  let hit (t : Tile) : Bool := bad.any (fun u => match u.store with
    | .vat sh sl fm | .header sh sl fm => sh == t.sheet && sl == t.slot && fm == t.fmt
    | _ => false)
  { x with
    upsets := bad.filter (fun u => match u.store with
      | .vreg _ _ | .pred _ _ => true
      | _ => false)
    spadPoison := x.spadPoison ++ words.filter (fun w => !x.spadPoison.contains w)
    tiles := x.tiles.map (fun t => if hit t then { t with nan := true } else t) }

/-- Steps 3 to 6: the L1 is written back and invalidated, and the quire's state and its logical number move to the spare. -/
def moveQuire (p q sp : Nat) (s : State) : State :=
  let s0 := handlerUse (handlerUse (l1Flush s p) .copyPath 11 0x11) .remap 11 0x11
  if s0.fe then s0 else
  let s1 := setQuire s0 q (copyUpsets (quire s0 q))
  let x := phys s1 p
  let s2 := setPhys s1 p { x with logical := none, retired := true, partner := sp, busy := false, result := 1, droop := false }
  let s3 := setPhys s2 sp { phys s2 sp with logical := some q, partner := p }
  qreRaise s3 p (mkEvent 0 11 p 0x11 (deckleOfQuire s3 q) sp)

/-- The deckle of the quire drains or scrubs, so its retirement waits (R515). -/
def retireWaits (s : State) (p : Nat) : Bool :=
  match (phys s p).logical.bind (deckleOfQuire s) with
  | some d => (deckle s d).phase == .draining || (deckle s d).phase == .scrubbing
  | none => false

/-- RETIREMENT: the oldest request runs; `failed` are the spares that fail their test. -/
def runRetire (failed : List Nat) (s : State) : State :=
  match s.retireQueue with
  | [] => s
  | p :: rest =>
    if retireWaits s p || !s.power.rails || s.fe then s else
    let s0 := { s with retireQueue := rest }
    match (phys s0 p).logical with
    | none => setPhys s0 p { phys s0 p with busy := false }
    | some q =>
      let spares := usableSpares s0
      let s1 := (spares.filter failed.contains).foldl (spareFails p) s0
      match spares.filter (fun x => !failed.contains x) with
      | sp :: _ => moveQuire p q sp s1
      | [] => let s2 := fenceQuire s1 p; setPhys s2 p { phys s2 p with busy := false, result := 2 }

/-! ### Buckets (R513, R514) -/

/-- A quire bucket above 0 loses one. -/
def leakQuire (p : Nat) (s : State) : State := fset s .qreCeb 15 0 (fget s .qreCeb 15 0 p - 1) p

/-- Every frame bucket of a controller loses one. -/
def leakFrames (c : Nat) (s : State) : State :=
  let x := ctl s c
  setCtl s c { x with buckets := x.buckets.map (fun b => { b with level := b.level - 1 }) }

/-! ### The collector (R423, R498–R500, R598, R599) -/

/-- The event ring of function `f`. -/
def evRing (s : State) (f : Nat) : EvRing := tget {} s.ev.rings f
/-- Store it. -/
def setEvRing (s : State) (f : Nat) (x : EvRing) : State := { s with ev.rings := tset {} s.ev.rings f x }

/-- R423: of the events raised at one time, the one of the lowest block base, then of the lowest instance, enters first; block numbers
ascend with the bases (Tables 17.5 and 22.1). -/
def entersFirst : List Event → Option Event
  | [] => none
  | e :: rest => some (rest.foldl (fun a b =>
      if b.time == e.time && (decide (b.block < a.block) || (b.block == a.block && decide (b.inst < a.inst))) then b else a) e)

/-- EVENT_RECORD_ENTRY: the oldest raised event enters the collector. -/
def recordEntry (s : State) : State :=
  match entersFirst s.ev.pending with
  | some e => if kclkRuns s then evEnter { handlerUse s .collector e.block e.code with ev.pending := s.ev.pending.erase e } e else s
  | none => s

/-- The record a destination takes next (R424). -/
def nextRecord (s : State) (dest : Nat) : Option Event :=
  (s.ev.queue.filter (fun e => e.dests.contains dest)).foldl (fun a e => match a with
    | none => some e
    | some b => if evBefore e b then some e else some b) none

/-- A record has been written, or dropped, for a destination. -/
def recordDone (s : State) (dest seq : Nat) : State :=
  let mark (e : Event) : Event := if e.seq = seq then { e with dests := e.dests.filter (· != dest) } else e
  { s with ev.queue := (s.ev.queue.map mark).filter (fun e => !e.dests.isEmpty) }

/-- The record is written to an enabled ring with a free slot, and the vector of its severity is sent. -/
def recordWrite (s : State) (dest : Nat) (e : Event) : State :=
  let x := evRing s dest
  let n := 2 ^ fget s .evtRingCfg 11 8 dest
  let b := recordBytes e (dest == 0) s.sealed (b2n ((x.pi / n) % 2 == 0))
  let s1 := setEvRing (hostWrite s (fget s .evtRingBase 63 12 dest * 4096 + 32 * (x.pi % n)) b) dest { x with pi := (x.pi + 1) % 2 ^ 32 }
  if fget s .evtRingCfg (16 + e.sev) (16 + e.sev) dest = 1 then sendMsix s1 dest (if dest = 0 then 3 - e.sev else 0) else s1

/-- EVENT_DELIVERY (R498, R499). -/
def deliver (dest : Nat) (s0 : State) : State :=
  match nextRecord s0 dest with
  | none => s0
  | some e =>
    let s := if kclkRuns s0 then handlerUse s0 .collector e.block e.code else s0
    let x := evRing s dest
    let on := fget s .evtRingCfg 0 0 dest == 1
    if !kclkRuns s || !s.power.rails || dest > 16 then s
    else if dest = 0 && !on then s
    else if dest != 0 && (!on || s.fe || (deckle s (dest - 1)).phase != .active) then recordDone s dest e.seq
    else if subMod (2 ^ 32) x.pi x.head ≥ 2 ^ fget s .evtRingCfg 11 8 dest then
      recordDone (fadd s .evtRingSts 47 32 1 dest) dest e.seq
    else recordDone (recordWrite s dest e) dest e.seq

/-- EVT_RING_CFG.ENABLE written 1. -/
def evRingOn (f : Nat) (s : State) : State :=
  if fget s .evtRingCfg 0 0 f = 1 then s
  else
    let n := fget s .evtRingCfg 11 8 f
    if n < 4 || n > 16 then fset s .evtRingCfg 1 1 1 f
    else setEvRing (fset s .evtRingCfg 1 0 1 f) f {}

/-- EVT_RING_CFG.ENABLE written 0. -/
def evRingOff (f : Nat) (s : State) : State := fset s .evtRingCfg 1 0 0 f

/-- EVT_RING_HEAD written. -/
def evHead (f v : Nat) (s : State) : State :=
  let x := evRing s f
  if subMod (2 ^ 32) v x.head > subMod (2 ^ 32) x.pi x.head then fset s .evtRingSts 48 48 1 f
  else setEvRing s f { x with head := v }

/-- A write of EVT_FATAL0 (R599). -/
def fatalWrite (fn size v : Nat) (s : State) : State :=
  if reaches s fn .evtFatal 0 0 && size == 8 && v == 2 ^ 64 - 1 && !s.fe then
    rset ((List.range 4).foldl (fun s k => rset s .evtFatal 0 k) s) .evtFatalNext 0
  else s

/-! ### PCIe width (R521) -/

/-- Lanes from `lo` to `hi` are sound. -/
def lanesSound (bad hi lo : Nat) : Bool := bits bad hi lo == 0

/-- The widest width below x16 whose lanes are sound; 0 where there is none. -/
def soundWidth (bad : Nat) : Nat :=
  if lanesSound bad 15 0 then 16
  else if lanesSound bad 7 0 || lanesSound bad 15 8 then 8
  else if lanesSound bad 3 0 || lanesSound bad 15 12 then 4
  else 0

/-- LANE_FAILURE: `lanes` have failed. -/
def lanesFail (lanes : Nat) (s : State) : State :=
  if !s.power.rails || !s.boot.pcieUp then s else
  let bad := s.boot.badLanes ||| lanes
  let w := min s.boot.width (soundWidth bad)
  let s1 := { s with boot.badLanes := bad }
  if w = 0 then { s1 with boot.pcieUp := false }
  else if w < s.boot.width then raise { s1 with boot.width := w } (mkEvent 0 3 0 0x01 none w)
  else s1

/-- HOST_LINK_REENABLE: the link returns to x16. -/
def linkAgain (s : State) : State :=
  if !s.power.rails || s.boot.held || s.clk.lost.contains 0 then s
  else { s with boot := { s.boot with badLanes := 0, width := 16, pcieUp := true } }

/-! ### Meanings -/

/-- RETIRE. -/
def execRetire (fn p : Nat) (s : State) : Res := .next (retireWrite fn p s)
/-- ERR_ACK. -/
def execErrAck (fn p : Nat) (s : State) : Res := .next (if reaches s fn .qreErrCtl p 0 then ackWindow p s else s)
/-- WINDOW_EXPIRY. -/
def execWindowExpiry (p : Nat) (s : State) : Res := .next (ackWindow p s)
/-- RETIREMENT. -/
def execRetirement (failed : List Nat) (s : State) : Res := .next (runRetire failed s)
/-- QUIRE_BUCKET_LEAK. -/
def execQuireBucketLeak (p : Nat) (s : State) : Res := .next (if p < 68 then leakQuire p s else s)
/-- FRAME_BUCKET_LEAK. -/
def execFrameBucketLeak (c : Nat) (s : State) : Res := .next (if c < 24 then leakFrames c s else s)
/-- SHT_INJ_ARM. -/
def execShtInjArm (fn p : Nat) (value : Word) (s : State) : Res := .next (armStep fn .qreShtInj p value.toNat s)
/-- BTR_INJ_ARM. -/
def execBtrInjArm (fn p : Nat) (value : Word) (s : State) : Res := .next (armStep fn .qreBtrInj p value.toNat s)
/-- LANE_FAILURE. -/
def execLaneFailure (lanes : BitVec 16) (s : State) : Res := .next (lanesFail lanes.toNat s)
/-- HOST_LINK_REENABLE. -/
def execHostLinkReenable (s : State) : Res := .next (linkAgain s)
/-- EVENT_RECORD_ENTRY. -/
def execEventRecordEntry (s : State) : Res := .next (recordEntry s)
/-- EVENT_DELIVERY. -/
def execEventDelivery (dest : Nat) (s : State) : Res := .next (deliver dest s)
/-- EVENT_RING_ENABLE. -/
def execEventRingEnable (fn f : Nat) (value : Word32) (s : State) : Res :=
  .next (if bit value.toNat 0 then ownWrite s fn .evtRingCfg f value.toNat (evRingOn f) else s)
/-- EVENT_RING_DISABLE. -/
def execEventRingDisable (fn f : Nat) (value : Word32) (s : State) : Res :=
  .next (if bit value.toNat 0 then s else ownWrite s fn .evtRingCfg f value.toNat (evRingOff f))
/-- EVENT_HEAD. -/
def execEventHead (fn f : Nat) (value : Word32) (s : State) : Res :=
  .next (if reaches s fn .evtRingHead f 0 then evHead f value.toNat s else s)
/-- FATAL_CLEAR. -/
def execFatalClear (fn size : Nat) (value : Word) (s : State) : Res := .next (fatalWrite fn size value.toNat s)

end Sys2Proof.Machine
end

