-- ==== Sys2Proof/Machine/RegView.lean ====
section
/-! DEFINITION. What a BAR0 read returns: the stored value of a register with the fields that show other state, and what SEALED mode
hides; the register commands REGISTER_WRITE, LATCHING_READ and LOG_CLEAR. -/

namespace Sys2Proof.Machine

/-- Fields placed side by side: low bit, width, value. -/
def pack (l : List (Nat × Nat × Nat)) : Nat := l.foldl (fun v f => v + (f.2.2 % 2 ^ f.2.1) * 2 ^ f.1) 0

/-- `x` with fields replaced. -/
def packInto (x : Nat) (l : List (Nat × Nat × Nat)) : Nat :=
  l.foldl (fun v f => setBits v (f.1 + f.2.1 - 1) f.1 f.2.2) x

/-- One bit per index below `n`. -/
def flagsOf (n : Nat) (p : Nat → Bool) : Nat := (List.range n).foldl (fun v i => v + b2n (p i) * 2 ^ i) 0

/-! ### Outputs and gathered states -/

/-- R576: FAULT_N is asserted. -/
def faultN (s : State) : Bool :=
  s.power.rails && (s.fe || s.boot.stopped == 1 || s.boot.stopped == 2 || s.boot.stopped == 3 || (pin s 3).asserted || !kclkRuns s)

/-- R577: ALERT_N is asserted. -/
def alertN (s : State) : Bool := (List.range 3).any (fun c => fget s .gctAlert c c == 1 && fget s .gctAlert (8 + c) (8 + c) == 1)

/-- R543: the management agent serves requests. -/
def mgtServing (s : State) : Bool :=
  fget s .gctMgtCfg 15 0 != 0 && s.boot.mgmtEn && (1 ≤ s.fuses.lc && s.fuses.lc ≤ 3) && s.boot.ready && s.boot.stopped == 0 && kclkRuns s

/-- R547: the credential record in force. -/
def credRecord (s : State) : Option CredRec :=
  match (bank s 0).creds, (bank s 1).creds with
  | none, c => c
  | some a, none => some a
  | some a, some b => if b.count > a.count then some b else some a

/-- RNG_STS.STATE (R440, R448). -/
def rngState (s : State) : Nat := if s.rng.failed then 2 else if (List.range 4).any (fun g => (drbg s g).ready) then 1 else 0

/-- CLK_STS (Table 14.4). -/
def clkStatus (s : State) : Nat :=
  pack [(0, 12, flagsOf 12 (fun d => (domain s d).onStandby)), (16, 12, flagsOf 12 (fun d => (domain s d).primLocked)),
    (32, 12, flagsOf 12 (fun d => (domain s d).stbyLocked)), (48, 1, b2n (refUp s 1)), (49, 1, b2n (refUp s 2)),
    (50, 1, b2n (refUp s 0)), (51, 1, b2n (refUp s 3)), (52, 1, b2n (!refUp s 1 && refUp s 2))]

/-- The limiters now below 43 (PWR_STS.CAUSE). -/
def limiters (s : State) : Nat :=
  let p := s.power
  pack [(0, 1, b2n p.capped), (1, 1, b2n p.excursion), (2, 1, b2n p.peak), (3, 1, b2n (tempMax s < 43)),
    (4, 1, b2n ((pin s 2).asserted && ctlPos (fget s .pwrCtl 5 0) < 43)),
    (5, 1, b2n ((pin s 1).asserted && ctlPos (fget s .pwrCtl 13 8) < 43)), (6, 1, b2n (calMax s < 43))]

/-- PWR_STS (Table 18.6). -/
def pwrStatus (s : State) : Nat :=
  pack [(0, 6, s.power.l), (8, 6, lmax s), (16, 7, limiters s), (24, 6, s.power.calstep), (32, 6, s.power.tableMax)]

/-- A removal phase as PRT_DSTS codes it. -/
def phaseCode : DeckPhase → Nat
  | .none => 0
  | .active => 1
  | .draining => 2
  | .scrubbing => 3
  | .erasing => 4
  | .creating => 5

/-- PRT_DSTS (Table 16.11). -/
def deckleStatus (s : State) (d : Nat) : Nat :=
  let x := deckle s d
  pack [(0, 3, phaseCode x.phase), (4, 4, x.lastOp), (8, 8, x.result), (16, 16, x.groups), (32, 16, x.ways),
    (48, 1, b2n (deckleExists s d && encOf s d))]

/-- PRT_GSTS (Table 16.11). -/
def deckleGlobal (s : State) : Nat :=
  pack [(0, 16, flagsOf 16 (deckleExists s)), (16, 16, flagsOf 16 (fun d => decide (phaseCode (deckle s d).phase ≥ 2)))]

/-- A byte of MEM_GOWN. -/
def gownByte (s : State) (g : Nat) : Nat :=
  let o := tget 0 s.dram.owner g
  if o = 0 then 0 else 128 + (o - 1)

/-- MEM_SCRUB_STS. -/
def scrubStatus (s : State) : Nat :=
  let least (f : Nat → Nat) : Nat := (List.range 24).foldl (fun m c => min m (f c)) (f 0)
  pack [(0, 32, min (2 ^ 32 - 1) (least (fun c => (ctl s c).passes))), (32, 10, least (fun c => (ctl s c).scrubPos % cwsOf c * 1024 / cwsOf c))]

/-- Frames listed for retirement. -/
def framesListed (s : State) : Nat := ((List.range 256).filter (fun i => fget s .memRetireEnt 0 0 i == 1)).length

/-- QRE_ERR_STS (Table 17.13). -/
def quireStatus (s : State) (p : Nat) : Nat :=
  let x := phys s p
  pack [(0, 1, b2n x.winOpen), (1, 1, b2n x.fenced), (2, 1, b2n x.retired), (3, 1, b2n x.logical.isSome), (4, 1, b2n x.busy),
    (8, 8, x.partner), (16, 6, x.logical.getD 0), (24, 3, (usableSpares s).length), (32, 2, x.result)]

/-- Stream states as Table 05.1 codes them. -/
def streamCode : StreamState → Nat
  | .idle => 0
  | .running => 1
  | .draining => 2
  | .faulted => 3

/-- QRE_STR_FLTn (Table 05.21). -/
def faultWord (sealed : Bool) : Option FaultRec → Nat
  | none => 0
  | some r =>
    pack ([(0, 8, r.code), (8, 1, 1), (9, 1, b2n r.multi), (10, 1, b2n r.exec)]
      ++ if sealed then [] else [(16, 6, r.maj), (22, 5, r.sub), (32, 32, r.pc)])

/-- QRE_MBX_STS (Table 06.7): sends are instructions in flight of the quire's own streams. -/
def mailboxStatus (x : Quire) : Nat :=
  pack [(0, 6, x.arrivals.length), (8, 4, x.returns.length), (12, 4, (x.flights.filter (fun f => f.phase == .inMesh)).length)]

/-- A context as CTX_ENTn shows it (Table 07.1). -/
def ctxWord (c : Ctx) : Nat :=
  let st := match c.state with | .idle => 0 | .resident => 1 | .active => 2 | .swapped => 3
  if st = 0 then 0 else
  pack [(0, 2, st), (2, 1, b2n c.instep), (3, 1, b2n c.moving), (4, 1, b2n c.sampled), (5, 1, c.mode), (8, 4, c.deckle), (12, 4, c.model),
    (16, 8, c.compring), (24, 8, c.tokcap), (32, 32, c.generated), (64, 64, c.position), (128, 64, c.dir), (192, 64, c.tokbuf),
    (256, 32, c.pendingIn), (288, 32, c.genLimit), (320, 32, c.temp), (352, 32, c.topp), (384, 11, c.topk), (400, 13, c.chunk),
    (416, 32, c.nextToken), (448, 32, c.folios), (480, 32, c.lastStep), (512, 32, nth 0xFFFFFFFF c.stops 0),
    (544, 32, nth 0xFFFFFFFF c.stops 1), (576, 32, nth 0xFFFFFFFF c.stops 2), (608, 32, nth 0xFFFFFFFF c.stops 3), (640, 64, c.readySeq)]

/-- A model record (Table 07.9). -/
def modelWord (m : Model) : Nat :=
  let st := match m.state with | .free => 0 | .loading => 1 | .loaded => 2 | .unloading => 3
  pack [(0, 2, st), (16, 13, m.binds), (32, 32, m.kvb), (64, 64, m.hbytes), (128, 64, m.lbytes), (192, 64, m.ptable),
    (256, 32, m.segs.length)]

/-- A basis summary (Table 08.11). -/
def basisWord (i : Nat) (b : BasisSlot) : Nat :=
  if !b.current then 0 else
  pack [(0, 8, b.logn), (8, 8, b.l), (16, 8, b.k), (24, 8, b.alpha), (32, 1, b.scheme), (48, 16, i + 64 * b.gen), (64, 64, b.t),
    (128, 64, b.area), (192, 64, b.areaSize)]

/-- A library entry (Table 08.11). -/
def libWord (s : State) (n : Nat) : Nat :=
  let g := libDigest s
  if s.boot.running.isNone || n ≥ Config.libCount g % 256 then 0 else
  let f := libField g n
  pack [(0, 16, f 0), (16, 8, f 1), (24, 8, f 2), (32, 8, f 3), (40, 8, f 4), (48, 8, f 5), (56, 8, f 6), (64, 16, f 7), (80, 16, f 8),
    (96, 32, (Config.libGalois g n).length + 1), (128, 64, f 9)]

/-- Session states as Table 10.3 codes them. -/
def sesCode : SesSt → Nat
  | .opening => 0
  | .opn => 1
  | .finalising => 2
  | .broken => 3
  | .releasing => 4

/-- Admitted operations of session `n` that have not ended. -/
def sesInflight (s : State) (n : Nat) : Nat :=
  s.quires.foldl (fun a p => a + (p.2.flights.filter (fun f =>
    f.maj == 0x1C && f.sub != 0 && f.val 0 == n && (match f.phase with | .drawing _ _ => true | _ => false))).length) 0

/-- AGG_SES_STS (Table 10.9). -/
def sesStatus (s : State) (n : Nat) : Nat :=
  match tfind s.sessions n with
  | none => 0
  | some x =>
    if x.state == .opening then 0 else
    pack [(0, 3, sesCode x.state), (3, 1, b2n x.noise), (4, 1, b2n x.expose), (5, 2, x.typ), (8, 4, x.deckle), (12, 5, x.slots.length),
      (32, 32, sesInflight s n)]

/-- IZK_PORT_STS (Table 13.9). -/
def portStatus (s : State) (p : Nat) : Nat :=
  let x := port s p
  let st := match x.state with | .disabled => 0 | .training => 1 | .negotiate => 2 | .up => 3
  pack [(0, 3, st), (3, 2, x.width), (8, 8, x.lanes), (16, 2, x.vsel), (18, 2, flagsOf 2 (fun k => (tfind x.keys k).isSome)),
    (20, 8, x.paused)]

/-- IZK_QP_STS (Table 13.10). -/
def qpStatus (s : State) (i : Nat) : Nat :=
  let q := qpOf s i
  let st := match q.state with | .free => 0 | .reset => 1 | .init => 2 | .rtr => 3 | .rts => 4 | .error => 5
  pack [(0, 3, st), (3, 1, b2n q.flushed), (4, 2, q.ctx.port), (6, 4, q.deckle), (10, 11, q.gen), (24, 8, q.cause), (32, 32, q.sqCi)]

/-- HQI_RING_STS (Table 12.10). -/
def ringStatus (s : State) (r : Nat) : Nat :=
  let x := ring s r
  let st := match x.state with | .disabled => 0 | .active => 1 | .draining => 2 | .halted => 3
  pack [(0, 2, st), (2, 3, x.reason), (16, 13, x.tracked.length), (32, 32, x.ci)]

/-- GCT_STS (Table 22.3). -/
def globalStatus (s : State) : Nat :=
  pack [(0, 1, b2n s.boot.ready), (1, 1, b2n s.fe), (2, 1, b2n s.sealed), (3, 1, b2n (faultN s)), (4, 1, b2n s.rng.failed)]

/-- GCT_MGT_STS (Table 19.6). -/
def mgtStatus (s : State) : Nat :=
  let e (n : Nat) : Nat := if s.boot.mgmtEn then n else 0
  pack [(0, 1, e 1), (1, 1, e (b2n s.mgt.link)), (2, 1, b2n (mgtServing s)), (3, 1, e (b2n (s.mgt.staging.state != .idle))),
    (4, 4, e s.mgt.sessions.length), (8, 12, flagsOf 12 (fun i => (credRecord s).any (fun c => (tfind c.slots i).isSome)))]

/-- Fields of GCT_PIN_STS that show the pins (Table 21.5). -/
def pinFields (s : State) : List (Nat × Nat × Nat) :=
  [(0, 4, flagsOf 4 (fun i => (pin s i).asserted)), (4, 4, flagsOf 4 (fun i => (pin s i).forced)), (16, 1, b2n s.boot.mgmtEn),
    (17, 1, b2n s.boot.jtagEn), (18, 1, b2n (faultN s)), (19, 1, b2n (alertN s))]

/-- The quire a QRE instance shows, where it holds one. -/
def viewQuire (s : State) (p : Nat) (f : Quire → Nat) : Nat :=
  match (phys s p).logical with
  | some q => f (quire s q)
  | none => 0

/-- `x` with fields zeroed in SEALED mode. -/
def hideIn (s : State) (x : Nat) (l : List (Nat × Nat)) : Nat := if s.sealed then packInto x (l.map (fun f => (f.1, f.2, 0))) else x

/-! ### The value of a register -/

/-- The value that a read of register instance `r`, `k`, `j` shows, a part at a time by block: GCT to RNG. -/
def valueLow (s : State) (r : Reg) (k j : Nat) : Nat :=
  let x := rget s r k j
  match r with
  | .gctSts => globalStatus s
  | .gctPrf => if s.sealed then 0 else x
  | .gctMgtSts => mgtStatus s
  | .gctPinSts => packInto x (pinFields s)
  | .evtRingSts => packInto x [(0, 32, (evRing s k).pi)]
  | .evtSts => pack [(0, 10, s.ev.queue.length), (32, 32, s.ev.nextSeq)]
  | .hqiRingSts => ringStatus s k
  | .hqiCqSts => packInto x [(0, 32, (ring s k).cqPi)]
  | .hqiFnSts => packInto x [(8, 2, if k = 0 then 0 else tdiCode (func s k).tdi)]
  | .hqiGsts =>
    pack [(0, 16, trackedAll s), (16, 13, s.host.recQueue.length), (32, 5, (s.spdm.ide.filter (fun p => p.2.secure)).length),
      (37, 3, s.spdm.sessions.length)]
  | .prtDsts => deckleStatus s k
  | .prtGsts => deckleGlobal s
  | .secPtkCtl => packInto x [(4, 2, flagsOf 2 (fun n => (tfind (deckle s k).ptk n).isSome))]
  | .secDkSts => (deckle s k).memgen
  | .rngSts => packInto x [(0, 2, rngState s), (4, 4, flagsOf 4 (fun g => (drbg s g).ready)), (8, 4, flagsOf 4 (fun g => (drbg s g).stopped))]
  | .rngSrcSts => pack ((List.range 16).map (fun i =>
      (2 * i, 2, match (source s i).state with | .startup => 0 | .operating => 1 | .disabled => 2)))
  | .rngGrpSts => pack ((List.range 4).flatMap (fun g =>
      let y := group s g
      [(8 * g, 2, kindIx y.ka), (8 * g + 2, 2, kindIx y.kb), (8 * g + 4, 2, kindIx y.sb), (8 * g + 6, 1, b2n y.borrow.isSome)]))
  | _ => x

/-- MEM to CLK. -/
def valueMid (s : State) (r : Reg) (k j : Nat) : Nat :=
  let x := rget s r k j
  match r with
  | .memCsts => pack [(0, 1, b2n (s.boot.step ≥ 6 && !s.boot.untrained.contains k)), (1, 1, b2n (k ≥ 8))]
  | .memPprSts => packInto x [(4, 8, (ctl s k).pendingHard.length)]
  | .memScrubSts => scrubStatus s
  | .memRetireSts => packInto x [(0, 9, framesListed s)]
  | .memDctl => if s.sealed then packInto x [(1, 1, 1)] else x
  | .memScWays => (deckle s k).ways
  | .memProtSts => (deckle s k).prot.length
  | .memGown => pack ((List.range 8).map (fun i => (8 * i, 8, gownByte s (8 * k + i))))
  | .izkPortSts => portStatus s k
  | .izkGsts =>
    pack [(0, 14, (s.izk.qps.filter (fun p => p.2.state != .free)).length), (14, 14, s.izk.cqs.length),
      (28, 17, (s.izk.mrs.filter (fun p => p.2.live)).length)]
  | .izkQpSts => qpStatus s k
  | .pwrSts => pwrStatus s
  | .pwrCnt | .pwrSens | .pwrRail => if s.sealed then 0 else x
  | .clkSts => clkStatus s
  | .clkAclk => packInto x [(8, 6, s.clk.aclk)]
  | .clkTsc => s.tsc
  | _ => x

/-- QRE to PLY. -/
def valueHigh (s : State) (r : Reg) (k j : Nat) : Nat :=
  let x := rget s r k j
  match r with
  | .qreShtReslog => hideIn s x [(24, 7), (32, 7)]
  | .qreVatLog => hideIn s x [(24, 7), (32, 7)]
  | .qreBtrLog => hideIn s x [(32, 7), (40, 7)]
  | .qreErrNext => hideIn s x [(4, 8)]
  | .qreStrFlt => viewQuire s k (fun q => faultWord s.sealed (q.stream j).fault)
  | .qreStrState => viewQuire s k (fun q => pack ((List.range 8).map (fun n => (2 * n, 2, streamCode (q.stream n).state))))
  | .qreStrCtl => if s.sealed then 0 else viewQuire s k (fun q => q.hold)
  | .qreRole => viewQuire s k (fun q => pack [(0, 2, q.role), (2, 1, b2n q.reject), (32, 32, q.epoch)])
  | .qreMbxSts => viewQuire s k mailboxStatus
  | .qreMbxCnt => viewQuire s k (fun q => pack [(0, 32, q.bounced), (32, 32, q.dropped)])
  | .qreErrSts => quireStatus s k
  | .qreSpdSts => packInto x [(0, 9, (phys s k).sparedLines.foldl (fun a p => a + p.2) 0)]
  | .ctxEnt => ctxWord (ctxOf s k)
  | .ctxModel => modelWord (modelOf s k j)
  | .aggSesSts => sesStatus s k
  | .aggSesCnt => match tfind s.sessions k with
    | some y => pack [(0, 32, y.count), (32, 32, y.retracted)]
    | none => 0
  | .aggSesElem => ((tfind s.sessions k).map (·.elements)).getD 0
  | .aggGsts => (s.sessions.filter (fun p => p.2.state != .opening)).length
  | .plyBasMap => flagsOf 64 (fun i => (tget {} (polyOf s k).bases i).current)
  | .plyKeySts => pack [(0, 9, (polyOf s k).keys.length), (9, 1, b2n (!(polyOf s k).releases.isEmpty))]
  | .plyLib => if s.boot.running.isNone then 0 else pack [(0, 8, Config.libCount (libDigest s)), (16, 16, Config.libVersion (libDigest s))]
  | .plyLibent => libWord s k
  | .plyBas => basisWord j (tget {} (polyOf s k).bases j)
  | _ => x

/-- The write-only bits of a register read as zero (Table 00.4). -/
def readMask (x : RegRow) : Nat := x.fields.foldl (fun v f => if f.acc = .wo then v + maskOf f.hi f.lo else v) 0

/-- The value of register instance `r`, `k`, `j` as a read shows it. -/
def regValue (s : State) (r : Reg) (k : Nat := 0) (j : Nat := 0) : Nat :=
  let a := regAddr r k j
  let v := if a < 0x100000 then valueLow s r k j else if a < 0x200000 then valueMid s r k j else valueHigh s r k j
  andNot v (readMask (regRow r))

/-! ### Reads -/

/-- The registers whose lower half latches the upper (R59, R429). -/
def latches (r : Reg) : Bool := isLog r || r == .clkTsc

/-- The latch a function holds at an address. -/
def latchAt (s : State) (fn a : Nat) : Option Word32 := (s.latches.find? (fun l => l.addr == a && l.fn == fn)).map (·.value)

/-- The `size` bytes at byte `off` of a register. -/
def partOf (v off size : Nat) : Nat := v / 2 ^ (8 * off) % 2 ^ (8 * size)

/-- One 4-byte part of a read, or one 8-byte access to a register of 64 bits or more. RNG_RD answers only HOST_WINDOW_READ (R447). -/
def regReadOne (s : State) (fn addr size : Nat) : Nat :=
  match hitOf addr with
  | none => 0
  | some h =>
    if h.row.reg = .rngRd || !reaches s fn h.row.reg h.k h.j then 0
    else match (if latches h.row.reg && h.off = 4 && size = 4 then latchAt s fn (regAddr h.row.reg h.k h.j) else none) with
      | some v => v.toNat
      | none => partOf (regValue s h.row.reg h.k h.j) h.off size

/-- What a BAR0 read of function `fn` returns (R5–R7, R592, R593). -/
def regRead (s : State) (fn addr size : Nat) : Nat :=
  if size = 4 && aligned 4 addr then regReadOne s fn addr 4
  else if size = 8 && aligned 8 addr then
    match hitOf addr with
    | some h =>
      if h.row.width ≥ 64 then regReadOne s fn addr 8
      else regReadOne s fn addr 4 + 2 ^ 32 * regReadOne s fn (addr + 4) 4
    | none => regReadOne s fn addr 4 + 2 ^ 32 * regReadOne s fn (addr + 4) 4
  else 0

/-- A BAR0 read of function `fn` is completed: the link is up, the function is there and is in D0. -/
def answers (s : State) (fn : Nat) : Bool := fn ≤ 16 && busUp s && (fn == 0 || s.host.vfOn) && !(func s fn).d3hot

/-- The latches after a 4-byte read (R593): that of the lower half of a latching register latches its upper half for the function, and
the following read of the upper half uses the latch up. -/
def latchesAfter (s : State) (fn addr : Nat) : List Latch :=
  match (if aligned 4 addr then hitOf addr else none) with
  | none => s.latches
  | some h =>
    if !(latches h.row.reg && reaches s fn h.row.reg h.k h.j) then s.latches else
    let a := regAddr h.row.reg h.k h.j
    let rest := s.latches.filter (fun l => !(l.addr == a && l.fn == fn))
    if h.off = 0 then rest ++ [⟨a, fn, BitVec.ofNat 32 (regValue s h.row.reg h.k h.j / 2 ^ 32)⟩] else rest

/-- LATCHING_READ: a 4-byte BAR0 read, with its completion; an address that is misaligned, reserved or out of the function's reach reads
as zero (R6, R592). -/
def latchStep (fn addr : Nat) (s : State) : State :=
  if !answers s fn then s
  else emit { s with latches := latchesAfter s fn addr } (.readData fn (leBytes 4 (regRead s fn addr 4)) false)

/-! ### Writes -/

/-- GO with a reserved OP, which no other command carries, is answered by ILLEGAL_OP (Tables 13.5, 16.11). -/
def reservedOp (fn addr v : Nat) (s : State) : State :=
  match hitOf addr with
  | none => s
  | some h =>
    if h.off != 0 || !bit v 31 || !reaches s fn h.row.reg h.k 0 then s
    else if h.row.reg = .prtCmd2 then
      let c := dkCmdOf (rget s .prtCmd) v
      if 1 ≤ c.op && c.op ≤ 5 then s else fset s .prtRes 7 0 (deckleCmd c s).1
    else if h.row.reg = .izkDkCmd then
      if (1 ≤ v % 16 && v % 16 ≤ 7) || fget s .izkDkRes 8 8 h.k = 1 then s
      else dkDone s h.k (if (deckle s h.k).phase != .active then 3 else 1) 0
    else s

/-- A BAR0 write to a register without a command of its own. -/
def registerStep (fn addr size v : Nat) (s : State) : State :=
  let s1 := regWrite s fn addr size v
  if size = 4 && aligned 4 addr then reservedOp fn addr (v % 2 ^ 32) s1
  else if size = 8 && aligned 8 addr then reservedOp fn (addr + 4) (v / 2 ^ 32 % 2 ^ 32) (reservedOp fn addr (v % 2 ^ 32) s1)
  else s1

/-- REGISTER_WRITE. -/
def execRegisterWrite (fn addr size : Nat) (value : Word) (s : State) : Res := .next (registerStep fn addr size value.toNat s)
/-- LATCHING_READ. -/
def execLatchingRead (fn addr : Nat) (s : State) : Res := .next (latchStep fn addr s)
/-- LOG_CLEAR. -/
def execLogClear (fn addr size : Nat) (value : Word) (s : State) : Res := .next (logWrite s fn addr size value.toNat)

end Sys2Proof.Machine
end

