-- ==== Sys2Proof/Machine/Mgmt.lean ====
section
/-! DEFINITION. The management port: IPv6 replies, Pliac messages, sessions and commands, image staging, SMBus, the TAP (ch. 19; R452,
R453, R458, R463, R465–R469). -/

namespace Sys2Proof.Machine

/-! ### The port (R541, R542) -/

/-- The port's link-local address: the modified EUI-64 of its MAC. -/
def linkLocal (s : State) : Nat :=
  let m := rget s .gctMgtMac % 2 ^ 48
  0xFE80 * 2 ^ 112 + ((bits m 47 24) ^^^ 0x020000) * 2 ^ 40 + 0xFFFE * 2 ^ 24 + bits m 23 0

/-- An address of the port. -/
def mgtIp (s : State) (a : Nat) : Bool :=
  a == linkLocal s || (fget s .gctMgtCfg 17 17 == 1 && a == rget s .gctMgtIph * 2 ^ 64 + rget s .gctMgtIpl)

/-- The management agent runs: it stops with KCLK (R411, R416). -/
def agentRuns (s : State) : Bool := s.power.rails && kclkRuns s

/-- The port's stack runs: the strap was high, the link is up, KCLK runs. -/
def portUp (s : State) : Bool := s.power.rails && s.boot.mgmtEn && s.mgt.link && kclkRuns s

/-- The port takes a frame (R542): its destination is the port's MAC, all-nodes multicast or the solicited-node multicast address of one
of the port's addresses, and its packet carries no extension header and is no fragment. -/
def frameTaken (s : State) (dstMac : Nat) (plain : Bool) : Bool :=
  let node (a : Nat) : Bool := dstMac == 0x3333FF000000 + bits a 23 0
  plain && (dstMac == rget s .gctMgtMac % 2 ^ 48 || dstMac == 0x333300000001 || node (linkLocal s)
    || (fget s .gctMgtCfg 17 17 == 1 && node (rget s .gctMgtIpl)))

/-- A Neighbor Advertisement: flags, the target and the port's MAC (RFC 4861). -/
def solicited (e : Ether) (src target : Nat) (s : State) : State :=
  if portUp s && frameTaken s e.dst e.plain && mgtIp s target then
    emit s (.icmp e.src src 136 (beBytes 4 0x60000000 ++ beBytes 16 target ++ [2#8, 1#8] ++ beBytes 6 (rget s .gctMgtMac)))
  else s

/-- An Echo Reply with the request's data. -/
def echoed (e : Ether) (src dst : Nat) (data : List Byte) (s : State) : State :=
  if portUp s && frameTaken s e.dst e.plain && mgtIp s dst then emit s (.icmp e.src src 129 data) else s

/-- The management link comes up or goes down. -/
def linkChange (up : Bool) (s : State) : State := if s.power.rails && s.boot.mgmtEn then { s with mgt.link := up } else s

/-! ### Credentials (R545–R547): slot 4 × role + index, 12 the transport key -/

/-- The credential slots that are filled. -/
def credSlots (s : State) : Tab (List Byte) := ((credRecord s).map (·.slots)).getD []

/-- The key of a slot; the transport key serves in PROVISIONED and DEPLOYED. -/
def credKey (s : State) (slot : Nat) : Option (List Byte) :=
  if slot = 12 then (if s.fuses.lc = 1 || s.fuses.lc = 2 then some s.fuses.pliacTk else none)
  else if slot < 12 then tfind (credSlots s) slot else none

/-- The slot that a header's ROLE and CRED name; 13 where there is none. -/
def slotOfHeader (role cred : Nat) : Nat :=
  if role < 3 && cred < 4 then 4 * role + cred else if role = 3 && cred = 0 then 12 else 13

/-- R547: the credential record is written with COUNT + 1 to the bank whose record has the lower COUNT. -/
def writeCreds (slots : Tab (List Byte)) (s : State) : State :=
  let count (b : Nat) : Option Nat := (bank s b).creds.map (·.count)
  let b := match count 0, count 1 with
    | none, _ => 0
    | some _, none => 1
    | some x, some y => if y < x then 1 else 0
  setBank s b { bank s b with creds := some ⟨((credRecord s).map (·.count)).getD 0 + 1, slots⟩ }

/-! ### Messages (R544, R545, R551) -/

/-- A message: header, body and MAC (Table 19.1). -/
def message (ver typ cmd slot status detail : Nat) (sid : List Byte) (seq : Nat) (key body : List Byte) : List Byte :=
  let h := leBytes 4 0x31434C50 ++ leBytes 1 ver ++ leBytes 1 typ ++ leBytes 2 cmd ++ leBytes 1 (slot / 4) ++ leBytes 1 (slot % 4)
    ++ leBytes 1 status ++ leBytes 1 detail ++ leBytes 4 body.length ++ fitB 8 sid ++ leBytes 8 seq ++ zeros 8
  h ++ body ++ hmac key (h ++ body)

/-- Send a message to where a request came from. -/
def sendTo (r : PReq) (m : List Byte) (s : State) : State := emit s (.datagram r.srcMac r.srcIp r.srcPort m)

/-- Session of a slot. -/
def setPSession (s : State) (slot : Nat) (x : PSession) : State := { s with mgt.sessions := tupd s.mgt.sessions slot x }

/-- A session ends, with the report it waits for. -/
def endSession (slot : Nat) (s : State) : State :=
  { s with mgt.sessions := tdel s.mgt.sessions slot, reports := dropReports slot s.reports }

/-- Count a BUSY response. -/
def countBusy (status : Nat) (s : State) : State := if status = 7 then fadd s .gctMgtCnt 47 32 1 else s

/-- The response to the request a session executes: it is sent, kept as the cached response, and the request has ended. -/
def respond (slot status detail : Nat) (body : List Byte) (s : State) : State :=
  match tfind s.mgt.sessions slot with
  | none => s
  | some x =>
    match x.exec with
    | none => s
    | some r =>
      let m := message x.ver 1 r.cmd slot status detail x.sid r.seq x.key body
      sendTo r m (countBusy status (setPSession s slot { x with exec := none, cached := m }))

/-- The device did the request. -/
def answerOk (slot : Nat) (body : List Byte) (s : State) : State := respond slot 0 0 body s

/-- A refusal with the code that the rules give. -/
def refuseWith (slot code : Nat) (s : State) : State := respond slot 5 code [] s

/-- A refusal for which no rule gives a code. -/
def refuseFree (slot : Nat) (s : State) : State := let (v, s1) := takeFree s; respond slot 5 (v % 256) [] s1

/-! ### Receiving (R543–R550) -/

/-- The commands of Table 19.4 that a session may carry, by version. -/
def knownCmd (ver cmd : Nat) : Bool :=
  [0x02, 0x10, 0x11, 0x12, 0x20, 0x21, 0x22, 0x30, 0x31, 0x40, 0x41, 0x42, 0x50, 0x51, 0x52, 0x53, 0x60, 0x70, 0x71].contains cmd
    || (ver == 2 && (cmd == 0x80 || cmd == 0x81))

/-- Count a datagram that fails its checks. -/
def authFail (s : State) : State := fadd s .gctMgtCnt 15 0 1

/-- A request of an open session (R550). -/
def sessionRequest (slot : Nat) (x : PSession) (r : PReq) (resv : List Byte) (s : State) : State :=
  if r.seq < x.seq then fadd s .gctMgtCnt 31 16 1
  else if r.seq = x.seq then (if x.exec.isNone && !x.cached.isEmpty then sendTo r x.cached s else s)
  else if x.exec.isSome then
    sendTo r (message x.ver 1 r.cmd slot 7 0 x.sid r.seq x.key []) (countBusy 7 s)
  else
    let y := { x with seq := r.seq, exec := some r, cached := [], srcMac := r.srcMac, srcIp := r.srcIp, srcPort := r.srcPort }
    let s1 := setPSession s slot y
    if !knownCmd x.ver r.cmd then respond slot 4 0 [] s1
    else if !allZero resv then respond slot 3 0 [] s1
    else s1

/-- DATAGRAM_RECEIVE. -/
def receiveDatagram (g : Datagram) (s : State) : State :=
  if !(portUp s && mgtServing s && frameTaken s g.dstMac g.plain && mgtIp s g.dstIp && g.dstPort == fget s .gctMgtCfg 15 0) then s else
  let p := g.payload
  let len := fieldAt p 12 4
  if p.length != 72 + len || len > 1088 || fieldAt p 0 4 != 0x31434C50 || fieldAt p 5 1 != 0 then authFail s else
  let slot := slotOfHeader (fieldAt p 8 1) (fieldAt p 9 1)
  let cmd := fieldAt p 6 2
  let r : PReq := { srcMac := g.srcMac, srcIp := g.srcIp, srcPort := g.srcPort, ver := fieldAt p 4 1, cmd := cmd, seq := fieldAt p 0x18 8
                    body := sliceB p 40 len }
  let macOk (k : List Byte) : Bool := hmac k (p.take (40 + len)) == p.drop (40 + len)
  match credKey s slot with
  | none => authFail s
  | some k =>
    if cmd = 1 then
      if !macOk k then authFail s
      else if (tfind s.mgt.hellos slot).isSome then s
      else { s with mgt.hellos := tupd s.mgt.hellos slot r }
    else
      match tfind s.mgt.sessions slot with
      | none => authFail s
      | some x =>
        if sliceB p 0x10 8 != x.sid || !macOk x.key then authFail s
        else sessionRequest slot x r (sliceB p 0x20 8) s

/-! ### HELLO (R549) -/

/-- The answer to a HELLO that opens no session. -/
def helloAnswer (slot : Nat) (r : PReq) (ver status detail : Nat) (s : State) : State :=
  let s1 := { s with mgt.hellos := tdel s.mgt.hellos slot }
  match credKey s slot with
  | some k => sendTo r (message ver 1 1 slot status detail (zeros 8) r.seq k []) s1
  | none => s1

/-- The version a HELLO selects. -/
def helloVersion (r : PReq) : Nat := if bit (fieldAt r.body 0 1) 1 then 2 else 1

/-- HELLO: the version is selected and the nonces are asked of DRBG instance 2. -/
def helloStep (slot : Nat) (s : State) : State :=
  match tfind s.mgt.hellos slot with
  | none => s
  | some r =>
    if !mgtServing s || (drbg s 2).queue.any (fun q => q.use == .hello slot) then s
    else if s.fuses.lc = 3 && slot / 4 != 2 then helloAnswer slot r 1 2 0 s
    else if r.body.length != 32 || !allZero (sliceB r.body 1 15) then helloAnswer slot r 1 3 0 s
    else if bits (fieldAt r.body 0 1) 1 0 = 0 then helloAnswer slot r 1 4 0 s
    else if s.rng.failed then helloAnswer slot r (helloVersion r) 6 0x40 s
    else askBlock s 2 { who := .agent 2 slot, use := .hello slot }

/-- The draw of a HELLO has been served: the session opens.  An agent that KCLK's loss has stopped takes no block: its read stays
outstanding. -/
def helloDrawn (slot : Nat) (block : List Byte) (s : State) : State :=
  if !agentRuns s then askBlock s 2 { who := .agent 2 slot, use := .hello slot } else
  match tfind s.mgt.hellos slot, credKey s slot with
  | some r, some k =>
    let v := helloVersion r
    let nd := block.take 16
    let sid := (block.drop 16).take 8
    let sk := kdf k "QA76 PLC" (sliceB r.body 16 16 ++ nd ++ sid) 256
    let s1 := endSession slot { s with mgt.hellos := tdel s.mgt.hellos slot }
    let s2 := setPSession s1 slot { sid := sid, key := sk, ver := v, srcMac := r.srcMac, srcIp := r.srcIp, srcPort := r.srcPort }
    sendTo r (message v 1 1 slot 0 0 sid r.seq k (leBytes 1 v ++ zeros 7 ++ sid ++ nd)) s2
  | some _, none => { s with mgt.hellos := tdel s.mgt.hellos slot }
  | none, _ => s

/-- The draw has failed; a stopped agent answers when its HELLO is next served. -/
def helloFailed (slot : Nat) (s : State) : State :=
  if !agentRuns s then s else
  match tfind s.mgt.hellos slot with
  | some r => helloAnswer slot r (helloVersion r) 6 0x40 s
  | none => s

/-! ### Carrying out a request (R552) -/

/-- The role of a slot may not use a command (R454, R546): `least` is the least role. -/
def denied (s : State) (slot cmd least : Nat) : Bool :=
  if slot = 12 then !(cmd == 2 || cmd == 0x70)
  else slot / 4 < least || (s.fuses.lc == 3 && !(slot / 4 == 2 && (cmd == 2 || cmd == 0x40)))

/-- The request with number `cmd` that the session of a slot executes: DENIED, MALFORMED where its body is not `ok`, or its effect. -/
def serveCmd (slot cmd : Nat) (least : PReq → Nat) (ok : List Byte → Bool) (f : PReq → State → State) (s : State) : State :=
  if !mgtServing s then s else
  match (tfind s.mgt.sessions slot).bind (·.exec) with
  | none => s
  | some r =>
    if r.cmd != cmd then s
    else if r.begun then f r s
    else if denied s slot cmd (least r) then respond slot 2 0 [] s
    else if !ok r.body then respond slot 3 0 [] s
    else f r s

/-- A body of `n` bytes that is zero from byte `z` for `k` bytes. -/
def shape (n z k : Nat) (b : List Byte) : Bool := b.length == n && allZero (sliceB b z k)

/-- The request goes on and ends by another command. -/
def goOn (slot : Nat) (r : PReq) (s : State) : State :=
  match tfind s.mgt.sessions slot with
  | some x => setPSession s slot { x with exec := some { r with begun := true } }
  | none => s

/-! ### Observer commands -/

/-- FLAGS of IDENTITY. -/
def identityFlags (s : State) : Nat :=
  b2n s.sealed + 2 * b2n s.fuses.sealOnly + 4 * fget s .secSts 5 5 + 8 * fget s .secSts 10 10

/-- The body of IDENTITY. -/
def identityBody (s : State) : List Byte :=
  let im := s.boot.running.getD {}
  fitB 16 s.fuses.serial ++ leBytes 2 0x7600 ++ leBytes 1 0xB0 ++ leBytes 1 s.fuses.lc ++ leBytes 1 (identityFlags s) ++ leBytes 1 im.svn
    ++ leBytes 1 s.fuses.arb ++ zeros 1 ++ leBytes 8 im.seq ++ fitB 32 im.digest ++ sha256 s.boot.idkPub

/-- The body of TELEMETRY. -/
def telemetryBody (s : State) (ver : Nat) : List Byte :=
  leBytes 8 (regValue s .pwrTel) ++ leBytes 8 (regValue s .pwrSts) ++ leBytes 4 (regValue s .pwrCap) ++ leBytes 4 (regValue s .pwrCtl)
    ++ if ver = 2 then (List.range 8).flatMap (fun r => leBytes 8 (regValue s .pwrRail r)) else []

/-- TELEMETRY. -/
def telemetryReq (slot : Nat) (_ : PReq) (s : State) : State :=
  answerOk slot (telemetryBody s (((tfind s.mgt.sessions slot).map (·.ver)).getD 1)) s

/-- The body of PARTITION_STATUS. -/
def partitionBody (s : State) : List Byte :=
  leBytes 4 (regValue s .prtGsts) ++ zeros 4 ++ (List.range 16).flatMap (fun d => leBytes 8 (regValue s .prtDsts d))

/-- Bytes of a report from an offset. -/
def reportBytes (data : List Byte) (off : Nat) : List Byte := leBytes 4 data.length ++ leBytes 4 off ++ (data.drop off).take 1024

/-- REPORT (R555). -/
def reportReq (slot : Nat) (r : PReq) (s : State) : State :=
  let (nonce, off) := (sliceB r.body 0 32, fieldAt r.body 32 4)
  if r.begun then s
  else if !canReport s then respond slot 6 0 [] s
  else if off = 0 then
    { goOn slot r s with reports := s.reports ++ [{ who := .pliac slot nonce, body := reportBody s nonce }] }
  else match (tfind s.mgt.sessions slot).bind (·.report) with
    | some (n, data) => if n == nonce && off < data.length then answerOk slot (reportBytes data off) s else refuseWith slot 1 s
    | none => refuseWith slot 1 s

/-- The report can be signed and handed over now: the security block runs in SCLK, and a Pliac report leaves through the management agent.
-/
def reportGoes (s : State) (j : ReportJob) : Bool :=
  canReport s && domainRuns s 2 && (match j.who with | .pliac _ _ => agentRuns s | .spdm _ => true)

/-- REPORT_SIGNED: the oldest report is signed and goes to who asked. -/
def reportDone (s : State) : State :=
  match s.reports with
  | [] => s
  | j :: rest =>
    if !reportGoes s j then s else
    let s1 := { s with reports := rest }
    let data := signedReport s j.body
    match j.who with
    | .spdm i => reportToSpdm i data s1
    | .pliac slot nonce =>
      match tfind s1.mgt.sessions slot with
      | some x => answerOk slot (reportBytes data 0) (setPSession s1 slot { x with report := some (nonce, data) })
      | none => s1

/-! ### Operator commands -/

/-- POWER. -/
def powerReq (slot : Nat) (r : PReq) (s : State) : State :=
  let s1 := rset s .pwrCap (writeFields (regRow .pwrCap) false (2 ^ 32 - 1) (fieldAt r.body 0 2) (rget s .pwrCap))
  let s2 := rset s1 .pwrCtl (writeFields (regRow .pwrCtl) false (2 ^ 32 - 1) (fieldAt r.body 2 1 + 256 * fieldAt r.body 3 1) (rget s1 .pwrCtl))
  answerOk slot (leBytes 4 (rget s2 .pwrCap) ++ leBytes 4 (rget s2 .pwrCtl)) s2

/-- RETIRE: the response is sent when the retirement ends. -/
def retireReq (slot : Nat) (failed : List Nat) (r : PReq) (s : State) : State :=
  let p := fieldAt r.body 0 1
  let s1 := if r.begun then s else goOn slot r (requestRetire s p)
  let s2 := if s1.retireQueue.contains p then runRetire failed s1 else s1
  if s2.retireQueue.contains p then s2
  else respond slot (if (phys s2 p).result = 1 then 0 else 5) (phys s2 p).result [] s2

/-- PARTITION. -/
def partitionReq (slot : Nat) (r : PReq) (s : State) : State :=
  let (code, s1) := deckleCmd (dkCmdOf (fieldAt r.body 0 8) (fieldAt r.body 8 4)) s
  respond slot (if code = 0 then 0 else 5) code [] (fset s1 .prtRes 7 0 code)

/-- The operator's link key (R463, R554). -/
def linkKeyReq (slot : Nat) (r : PReq) (s : State) : State :=
  let (p, k, tx) := (fieldAt r.body 0 1, fieldAt r.body 1 1, fieldAt r.body 2 1)
  match kwUnwrap s.fuses.kek (sliceB r.body 8 80) with
  | none => refuseFree slot s
  | some b =>
    if !allZero (sliceB b 68 4) then refuseFree slot s else
    let x := port s p
    let s1 := setPort s p { x with keys := tupd x.keys k { tx := sliceB b 0 32, rx := sliceB b 32 32, salt := sliceB b 64 4 } }
    let s2 := if tx = 1 then fset s1 .izkPortCfg 7 7 k p else s1
    wakePort (answerOk slot (leBytes 1 (bits (portStatus s2 p) 19 18) ++ zeros 7) s2) p

/-! ### Owner commands -/

/-- LC_SET: the transitions of Table 16.1 that the owner may ask for. -/
def lcAllowed (s : State) (target : Nat) : Bool :=
  !anyDeckle s &&
    ((s.fuses.lc == 1 && target == 2 && (credSlots s).any (fun p => p.1 / 4 == 2)) || (s.fuses.lc == 2 && target == 3)
      || ((s.fuses.lc == 1 || s.fuses.lc == 2 || s.fuses.lc == 3) && target == 4))

/-- LC_SET: the fuses are blown, the request is answered and a WARM reset follows. -/
def lcReq (slot : Nat) (b : BootIn) (r : PReq) (s : State) : State :=
  let t := fieldAt r.body 0 1
  if !lcAllowed s t then refuseFree slot s
  else pulseReset b (answerOk slot [] { s with fuses.lc := t })

/-- MODE: 0 SEAL, 1 UNSEAL, 2 blow SEAL_ONLY. -/
def modeReq (slot : Nat) (r : PReq) (s : State) : State :=
  let op := fieldAt r.body 0 1
  if op = 2 then
    if s.fuses.lc = 2 then answerOk slot [] (fset { s with fuses.sealOnly := true } .secSts 4 4 1) else refuseFree slot s
  else
    let (ok, s1) := askMode (op == 0) s
    if ok then answerOk slot [] s1 else refuseFree slot s1

/-- ARB_ADVANCE (R469). -/
def arbReq (slot : Nat) (r : PReq) (s : State) : State :=
  let n := fieldAt r.body 0 1
  if n > s.fuses.arb && n ≤ (s.boot.running.map (·.svn)).getD 0 then answerOk slot [] (fset { s with fuses.arb := n } .secSts 23 16 n)
  else refuseFree slot s

/-- CRED_INSTALL (R548). -/
def installReq (slot : Nat) (r : PReq) (s : State) : State :=
  let dst := 4 * fieldAt r.body 0 1 + fieldAt r.body 1 1
  if slot = 12 && dst / 4 != 2 then respond slot 2 0 [] s else
  match tfind s.mgt.sessions slot with
  | none => s
  | some x =>
    match kwUnwrap (kdf x.key "QA76 PWK" x.sid 256) (sliceB r.body 8 40) with
    | none => refuseWith slot 1 s
    | some key =>
      let filled := (tfind (credSlots s) dst).isSome
      let s1 := answerOk slot [] (writeCreds (tupd (credSlots s) dst key) s)
      if filled then endSession dst s1 else s1

/-- CRED_REMOVE. -/
def removeReq (slot : Nat) (r : PReq) (s : State) : State :=
  let dst := 4 * fieldAt r.body 0 1 + fieldAt r.body 1 1
  let rest := tdel (credSlots s) dst
  let last := (credSlots s).any (fun p => p.1 / 4 == 2) && !rest.any (fun p => p.1 / 4 == 2)
  if last && (s.fuses.lc == 2 || s.fuses.lc == 3) then refuseWith slot 3 s
  else endSession dst (answerOk slot [] (writeCreds rest s))

/-! ### Image staging (R465–R468, R556) -/

/-- Another credential holds the staging. -/
def stagingTaken (s : State) (slot : Nat) : Bool := s.mgt.staging.state != .idle && s.mgt.staging.holder != slot

/-- IMG_BEGIN. -/
def beginReq (slot : Nat) (r : PReq) (s : State) : State :=
  let n := fieldAt r.body 0 4
  if stagingTaken s slot then respond slot 7 0 [] s
  else if fget s .secSts 10 10 = 1 || s.mgt.staging.state == .verifying then refuseWith slot 0x61 s
  else if n % 4096 != 0 || n > 33488896 then refuseWith slot 1 s
  else
    let b := stagedBank s
    let s1 := setBank s b { bank s b with image := none }
    respond slot 1 0 [] { s1 with mgt.staging := { state := .erasing, holder := slot, size := n } }

/-- ERASE_DONE. -/
def eraseEnd (s : State) : State := if s.mgt.staging.state == .erasing && agentRuns s then { s with mgt.staging.state := .opn } else s

/-- IMG_WRITE. -/
def writeReq (slot : Nat) (r : PReq) (s : State) : State :=
  let g := s.mgt.staging
  let data := r.body.drop 8
  let off := fieldAt r.body 0 4
  if stagingTaken s slot then respond slot 7 0 [] s
  else if g.state != .opn then refuseWith slot 0x61 s
  else if off + data.length > g.size then refuseWith slot 1 s
  else answerOk slot [] { s with mgt.staging := { g with data := tputs 0xFF#8 g.data off data, written := g.written + data.length } }

/-- One section of a staged image: its kind, place and digest, where its entry meets Table 16.5. -/
def sectionOf (b : List Byte) (i : Nat) : Option (Nat × Nat × Nat × List Byte) :=
  let e := sliceB b (0x100 + 48 * i) 48
  let (kind, off, n) := (fieldAt e 0 1, fieldAt e 4 4, fieldAt e 8 4)
  let ok := decide (1 ≤ kind) && decide (kind ≤ 4) && fieldAt e 1 1 == (if kind ≤ 2 then 1 else 0) && fieldAt e 2 2 == 0 && fieldAt e 12 4 == 0
    && off % 64 == 0 && decide (0x1C0 ≤ off) && decide (off + n + 16224 ≤ b.length) && sha256 (sliceB b off n) == sliceB e 16 32
  if ok then some (kind, off, n, sliceB e 16 32) else none

/-- The image that staged bytes hold, where every field meets Table 16.5 and the sections are sound (R466, apart from the fuses). -/
def parseImage (data : Tab Byte) (sigOk : Bool) : Option ImageInfo :=
  let h := tslice 0xFF#8 data 0 0x1C0
  let n := fieldAt h 0x10 4
  if n % 4096 != 0 || n > 33488896 || n < 20480 then none else
  let b := tslice 0xFF#8 data 0 n
  let secs := (List.range 4).filterMap (sectionOf b)
  let digs := [1, 2, 3, 4].filterMap (fun k => (secs.find? (fun x => x.1 == k)).map (fun x => x.2.2.2))
  let apart := (List.range 4).all (fun i => (List.range i).all (fun j =>
    !overlaps ((nth (0, 0, 0, []) secs i).2.1, (nth (0, 0, 0, []) secs i).2.2.1) ((nth (0, 0, 0, []) secs j).2.1, (nth (0, 0, 0, []) secs j).2.2.1)))
  let ok := fieldAt h 0 4 == 0x324D4951 && fieldAt h 4 2 == 2 && fieldAt h 6 2 == 4 && fieldAt h 0x14 2 == 0x7600 && fieldAt h 0x16 1 == 0xB0
    && allZero (sliceB h 0x19 7) && allZero (sliceB h 0x50 176) && digs.length == 4 && apart && sigOk
  if ok then
    some { size := n, seq := fieldAt h 8 8, svn := fieldAt h 0x17 1, vkey := fieldAt h 0x18 1, vpubDigest := sha256 (sliceB h 0x20 48)
           digests := digs, digest := sha256 b, sound := true }
  else none

/-- A boot record that names bank `b` is written over the older one (R462, R468). -/
def nameBank (b : Nat) (s : State) : State :=
  let (k, r) := currentRecord s
  setBank s (1 - k) { bank s (1 - k) with boot := some ⟨r.count + 1, r.bootcnt, b⟩ }

/-- A commit: the staged image is verified and activated live, or pends (R468). -/
def commitImage (sigOk : Bool) (s : State) : State :=
  let stage (st : StageSt) (s : State) : State := { s with mgt.staging.state := st }
  let r := (parseImage s.mgt.staging.data sigOk).filter (imageValid s)
  if r.isNone then stage .failed s else
    let im := r.getD factoryImage
    let b := stagedBank s
    let s1 := nameBank b (setBank s b { bank s b with image := some im })
    let old := (s.boot.running.map (·.digests)).getD []
    if nth [] im.digests 0 == nth [] old 0 && nth [] im.digests 1 == nth [] old 1 then stage .verifying s1
    else stage .pend (fset s1 .secSts 10 10 1)

/-- IMG_COMMIT. -/
def commitReq (slot : Nat) (sigOk : Bool) (s : State) : State :=
  if stagingTaken s slot then respond slot 7 0 [] s
  else if s.mgt.staging.state != .opn then refuseWith slot 0x61 s
  else commitImage sigOk (respond slot 1 0 [] s)

/-- Staging states as Table 19.5 codes them. -/
def stageCode : StageSt → Nat
  | .idle => 0
  | .erasing => 1
  | .opn => 2
  | .verifying => 3
  | .live => 4
  | .pend => 5
  | .failed => 6

/-- The body of IMG_STATUS: STATE, BYTES and the SEQ field of the staged header. -/
def stageBody (s : State) : List Byte :=
  let g := s.mgt.staging
  leBytes 1 (stageCode g.state) ++ zeros 3 ++ leBytes 4 g.written ++ tslice 0xFF#8 g.data 8 8

/-- STAGING_TIMEOUT; a commit under way is not interrupted. -/
def stagingEnds (s : State) : State := if s.mgt.staging.state == .verifying || !agentRuns s then s else { s with mgt.staging := {} }

/-! ### Event subscription (R557) -/

/-- The subscription of a slot's session changes. -/
def setSub (slot : Nat) (f : PSession → Option Subscr) (s : State) : State :=
  match tfind s.mgt.sessions slot with
  | some x => setPSession s slot { x with sub := f x }
  | none => s

/-- EVENT_SUB. -/
def subReq (slot : Nat) (r : PReq) (s : State) : State :=
  let m := fieldAt r.body 0 1
  answerOk slot [] (setSub slot (fun _ => if m = 0 then none else some { mask := m }) s)

/-- Records that an EVENT message carries. -/
def recordsIn (body : List Byte) : Nat := fieldAt body 4 4

/-- EVENT_ACK frees the records of every message up to its SEQ. -/
def ackReq (slot : Nat) (r : PReq) (s : State) : State :=
  let n := fieldAt r.body 0 8
  answerOk slot [] (setSub slot (fun x => x.sub.map (fun b =>
    let left := b.sent.filter (fun m => decide (m.1 > n))
    { b with sent := left, heldRecs := left.foldl (fun a m => a + recordsIn m.2) 0 })) s)

/-- Send an EVENT message of a session. -/
def sendEvent (slot : Nat) (x : PSession) (seq : Nat) (body : List Byte) (s : State) : State :=
  emit s (.datagram x.srcMac x.srcIp x.srcPort (message x.ver 2 0x82 slot 0 0 x.sid seq x.key body))

/-- EVENT: up to 32 buffered records are sent in one message. -/
def eventStep (slot : Nat) (s : State) : State :=
  match tfind s.mgt.sessions slot with
  | none => s
  | some x =>
    match x.sub with
    | none => s
    | some b =>
      if !mgtServing s || b.buffer.isEmpty then s else
      let rs := b.buffer.take 32
      let body := leBytes 4 b.lost ++ leBytes 4 rs.length ++ rs.flatMap (fun r => r)
      let y : Subscr :=
        { b with buffer := b.buffer.drop 32, sent := b.sent ++ [(b.next, body)], heldRecs := b.heldRecs + rs.length, next := b.next + 1, lost := 0 }
      sendEvent slot x b.next body (setPSession s slot { x with sub := some y })

/-- EVENT_RESEND: every message not acknowledged is sent again. -/
def resendStep (slot : Nat) (s : State) : State :=
  match tfind s.mgt.sessions slot with
  | none => s
  | some x => if !mgtServing s then s else ((x.sub.map (·.sent)).getD []).foldl (fun s m => sendEvent slot x m.1 m.2 s) s

/-! ### SMBus (R559) -/

/-- A block read: its count byte, and zeros until the fuses have been read. -/
def smbusBlock (data : List Byte) (s : State) : State :=
  if !agentRuns s then s
  else emit s (.smbus (leBytes 1 data.length ++ if s.boot.fusesRead then data else zeros data.length))

/-- A byte read. -/
def smbusByte (v : Nat) (s : State) : State :=
  if !agentRuns s then s else emit s (.smbus (leBytes 1 (if s.boot.fusesRead then min v 255 else 255)))

/-- A temperature in °C; in SEALED mode TMAX as its register shows it. -/
def smbusTemp (t : Nat) (s : State) : State := smbusByte ((if s.sealed then fget s .pwrTel 27 16 else t) / 8) s

/-- The identity block. -/
def smbusIdentity (s : State) : List Byte :=
  fitB 16 s.fuses.serial ++ leBytes 2 0x7600 ++ leBytes 1 0xB0 ++ leBytes 1 s.fuses.lc ++ leBytes 1 (identityFlags s)
    ++ leBytes 1 ((s.boot.running.map (·.svn)).getD 0) ++ zeros 2

/-! ### TAP (R452, R458, R523) -/

/-- The TAP is out of Test-Logic-Reset. -/
def tapOpen (s : State) : Bool := s.power.rails && !s.sealed && s.boot.jtagEn

/-- TAP_ACCESS. -/
def tapStep (a : TapOp) (s : State) : State :=
  if !tapOpen s then s else
  match a with
  | .debugChain => approvedOff s
  | .traceBuffer => let (v, s1) := takeFree s; emit s1 (.tap (leBytes 8 v))
  | .writeInjection addr value =>
    match hitOf addr with
    | none => s
    | some h =>
      if h.off != 0 || !(1 ≤ s.fuses.lc && s.fuses.lc ≤ 3) then s
      else match h.row.reg with
        | .qreShtInj | .qreBtrInj | .memFlipPos | .rngHtInj => injWrite s h.row.reg h.k value.toNat
        | .memFlipVal => storeReg s .memFlipVal h.k 0 (2 ^ 64 - 1) value.toNat
        | _ => s

/-- Every secret fuse field is programmed. -/
def secretsThere (f : Fuses) : Bool :=
  f.drs.length == 32 && f.idseed.length == 48 && f.spdmPsk.length == 32 && f.pliacTk.length == 32 && f.kek.length == 32

/-- A life-cycle request of manufacture (Table 16.1, R453). -/
def jtagLc (target : Nat) (b : BootIn) (s : State) : State :=
  let ok := (s.fuses.lc == 0 && target == 1 && secretsThere s.fuses) || (s.fuses.lc == 3 && target == 4)
  if !tapOpen s || anyDeckle s || !ok then s else pulseReset b { s with fuses.lc := target }

/-! ### Meanings -/

/-- HELLO. -/
def execHello (slot : Nat) (s : State) : Res := .next (helloStep slot s)
/-- BYE. -/
def execBye (slot : Nat) (s : State) : Res :=
  .next (serveCmd slot 0x02 (fun _ => 0) (shape 0 0 0) (fun _ s => endSession slot (answerOk slot [] s)) s)
/-- IDENTITY. -/
def execIdentity (slot : Nat) (s : State) : Res :=
  .next (serveCmd slot 0x10 (fun _ => 0) (shape 0 0 0) (fun _ s => answerOk slot (identityBody s) s) s)
/-- TELEMETRY. -/
def execTelemetry (slot : Nat) (s : State) : Res :=
  .next (serveCmd slot 0x11 (fun _ => 0) (shape 0 0 0) (telemetryReq slot) s)
/-- REPORT. -/
def execReport (slot : Nat) (s : State) : Res := .next (serveCmd slot 0x12 (fun _ => 0) (shape 40 36 4) (reportReq slot) s)
/-- REPORT_SIGNED. -/
def execReportSigned (s : State) : Res := .next (reportDone s)
/-- POWER. -/
def execPower (slot : Nat) (s : State) : Res := .next (serveCmd slot 0x20 (fun _ => 1) (shape 8 4 4) (powerReq slot) s)
/-- The Pliac RESET command. -/
def execPliacReset (slot : Nat) (b : BootIn) (s : State) : Res :=
  .next (serveCmd slot 0x21 (fun _ => 1) (shape 8 0 8) (fun _ s => pulseReset b (answerOk slot [] s)) s)
/-- The Pliac RETIRE command. -/
def execPliacRetire (slot : Nat) (failed : List Nat) (s : State) : Res :=
  .next (serveCmd slot 0x22 (fun _ => 1) (fun b => shape 8 1 7 b && fieldAt b 0 1 < 68) (retireReq slot failed) s)
/-- PARTITION. -/
def execPartition (slot : Nat) (s : State) : Res := .next (serveCmd slot 0x30 (fun _ => 1) (shape 16 12 4) (partitionReq slot) s)
/-- PARTITION_STATUS. -/
def execPartitionStatus (slot : Nat) (s : State) : Res :=
  .next (serveCmd slot 0x31 (fun _ => 0) (shape 0 0 0) (fun _ s => answerOk slot (partitionBody s) s) s)
/-- LC_SET. -/
def execLcSet (slot : Nat) (b : BootIn) (s : State) : Res := .next (serveCmd slot 0x40 (fun _ => 2) (shape 8 1 7) (lcReq slot b) s)
/-- MODE. -/
def execMode (slot : Nat) (s : State) : Res :=
  .next (serveCmd slot 0x41 (fun r => if fieldAt r.body 0 1 = 0 then 1 else 2) (fun b => shape 8 1 7 b && fieldAt b 0 1 ≤ 2) (modeReq slot) s)
/-- ARB_ADVANCE. -/
def execArbAdvance (slot : Nat) (s : State) : Res := .next (serveCmd slot 0x42 (fun _ => 2) (shape 8 1 7) (arbReq slot) s)
/-- IMG_BEGIN. -/
def execImgBegin (slot : Nat) (s : State) : Res := .next (serveCmd slot 0x50 (fun _ => 1) (shape 8 4 4) (beginReq slot) s)
/-- ERASE_DONE. -/
def execEraseDone (s : State) : Res := .next (eraseEnd s)
/-- IMG_WRITE. -/
def execImgWrite (slot : Nat) (s : State) : Res :=
  .next (serveCmd slot 0x51 (fun _ => 1) (fun b => decide (9 ≤ b.length) && decide (b.length ≤ 1032) && allZero (sliceB b 4 4)) (writeReq slot) s)
/-- IMG_COMMIT. -/
def execImgCommit (slot : Nat) (sigOk : Bool) (s : State) : Res :=
  .next (serveCmd slot 0x52 (fun _ => 1) (shape 0 0 0) (fun _ s => commitReq slot sigOk s) s)
/-- IMG_STATUS. -/
def execImgStatus (slot : Nat) (s : State) : Res :=
  .next (serveCmd slot 0x53 (fun _ => 0) (shape 0 0 0) (fun _ s => answerOk slot (stageBody s) s) s)
/-- STAGING_TIMEOUT. -/
def execStagingTimeout (s : State) : Res := .next (stagingEnds s)
/-- LINK_KEY. -/
def execLinkKey (slot : Nat) (s : State) : Res :=
  .next (serveCmd slot 0x60 (fun _ => 1)
    (fun b => shape 88 3 5 b && fieldAt b 0 1 ≤ 3 && fieldAt b 1 1 ≤ 1 && fieldAt b 2 1 ≤ 1) (linkKeyReq slot) s)
/-- CRED_INSTALL. -/
def execCredInstall (slot : Nat) (s : State) : Res :=
  .next (serveCmd slot 0x70 (fun _ => 2) (fun b => shape 48 2 6 b && fieldAt b 0 1 ≤ 2 && fieldAt b 1 1 ≤ 3) (installReq slot) s)
/-- CRED_REMOVE. -/
def execCredRemove (slot : Nat) (s : State) : Res :=
  .next (serveCmd slot 0x71 (fun _ => 2) (fun b => shape 8 2 6 b && fieldAt b 0 1 ≤ 2 && fieldAt b 1 1 ≤ 3) (removeReq slot) s)
/-- EVENT_SUB. -/
def execEventSub (slot : Nat) (s : State) : Res := .next (serveCmd slot 0x80 (fun _ => 0) (shape 8 1 7) (subReq slot) s)
/-- EVENT_ACK. -/
def execEventAck (slot : Nat) (s : State) : Res := .next (serveCmd slot 0x81 (fun _ => 0) (shape 8 0 0) (ackReq slot) s)
/-- EVENT. -/
def execEvent (slot : Nat) (s : State) : Res := .next (eventStep slot s)
/-- EVENT_RESEND. -/
def execEventResend (slot : Nat) (s : State) : Res := .next (resendStep slot s)
/-- SESSION_TIMEOUT. -/
def execSessionTimeout (slot : Nat) (s : State) : Res := .next (if agentRuns s then endSession slot s else s)
/-- DATAGRAM_RECEIVE. -/
def execDatagramReceive (d : Datagram) (s : State) : Res := .next (receiveDatagram d s)
/-- NEIGHBOR_SOLICITATION. -/
def execNeighborSolicitation (e : Ether) (src target : Nat) (s : State) : Res := .next (solicited e src target s)
/-- ECHO_REQUEST. -/
def execEchoRequest (e : Ether) (src dst : Nat) (data : List Byte) (s : State) : Res := .next (echoed e src dst data s)
/-- SMBUS_IDENTITY_READ. -/
def execSmbusIdentityRead (s : State) : Res := .next (smbusBlock (smbusIdentity s) s)
/-- SMBUS_DIE_TEMPERATURE. -/
def execSmbusDieTemperature (s : State) : Res := .next (smbusTemp (hottestDie s.power.temps) s)
/-- SMBUS_MEMORY_TEMPERATURE. -/
def execSmbusMemoryTemperature (s : State) : Res := .next (smbusTemp (hottest s.power.temps 100 123) s)
/-- SMBUS_IMAGE_SEQ. -/
def execSmbusImageSeq (s : State) : Res := .next (smbusBlock (leBytes 8 ((s.boot.running.map (·.seq)).getD 0)) s)
/-- SMBUS_FAULT_STATUS. -/
def execSmbusFaultStatus (s : State) : Res :=
  .next (smbusByte (b2n (fget s .evtFatal 33 32 0 != 0) + 2 * b2n (faultN s) + 4 * b2n s.sealed) s)
/-- SMBUS_WRITE. -/
def execSmbusWrite (_ : Byte) (s : State) : Res := .next (if agentRuns s then emit s .smbusNack else s)
/-- TAP_ACCESS. -/
def execTapAccess (a : TapOp) (s : State) : Res := .next (tapStep a s)
/-- JTAG_LIFE_CYCLE_REQUEST. -/
def execJtagLifeCycleRequest (target : Nat) (b : BootIn) (s : State) : Res := .next (jtagLc target b s)
/-- MANAGEMENT_LINK_CHANGE. -/
def execManagementLinkChange (up : Bool) (s : State) : Res := .next (linkChange up s)

end Sys2Proof.Machine
end

