-- ==== Sys2Proof/Machine/Modular.lean ====
section
/-! DEFINITION. The M. instructions (R114–R119, R154, Table 05.10). -/

namespace Sys2Proof.Machine

/-- M. instructions on elements: QS, BS where `bs` allows it, operand F3 where `two`, the addend where `add`. -/
def mOp (sub : Nat) (w : IWord) (two bs add : Bool) : Op :=
  let scalar := bs && optF w 19 19 == 1
  { maj := 0x10, sub := sub, f1 := .vw, f2 := .v
    f3 := if !two then .none else if scalar then .s else .v
    f4 := if add && decide (f4Of w < 32) then .v else .none
    opt := maskOf 22 20 + (if bs then maskOf 19 19 else 0) + (if add && f4Of w == 32 then maskOf 28 28 else 0)
    masks := true }

/-- M.BFLY. -/
def mBflyOp (w : IWord) : Op :=
  let j := optF w 19 16
  { maj := 0x10, sub := 7, f1 := if j = 8 then .none else .vw, f2 := .v, f3 := if j = 8 then .v else .none, f4 := .v
    opt := maskOf 22 15, masks := true, codes := decide (j ≤ 8)
    vWr := if j = 8 then [w.f2.toNat, f3Of w] else [] }

/-- An M. instruction that names an INVALID slot, or M.MULS on a GENERAL slot, faults with ILLEGAL_OP (R114, Table 04.4). -/
def slotCheck (q : Nat) (s : State) (f : Flight) : Nat :=
  let k := (slotOf (stream s q f.stream) f).kind
  if k == .invalid || (f.sub = 3 && k == .general) then 1 else 0

/-- R114: the values M.SETQ refuses. -/
def setqCheck (_ : State) (f : Flight) : Nat :=
  let v := f.val 0
  if v % 2 = 0 || v < 3 || v ≥ 2 ^ 60 then 1 else 0

/-- R130 for modulus slots: an earlier M. instruction of the stream that waits still needs the slot, or writes it. -/
def slotBusy (x : Quire) (f : Flight) : Bool :=
  (flightsOf x f.stream).any (fun g => g.maj == 0x10 && optF g.w 22 20 == optF f.w 22 20 && (g.sub == 8 || f.sub == 8))

/-- The issue of an M. instruction. -/
def runMod (s : State) (q st : Nat) (w : IWord) (o : Op) (check : State → Flight → Nat) : Res :=
  .next (issue s q st w o
    (fun s f => if slotBusy (quire s q) f then { f := f, full := true } else planPipe q check s f) (pipeEnter q))

/-- M.ADD. -/
def execMAdd (q st : Nat) (w : IWord) (s : State) : Res := runMod s q st w (mOp 0 w true true false) (slotCheck q)
/-- M.SUB. -/
def execMSub (q st : Nat) (w : IWord) (s : State) : Res := runMod s q st w (mOp 1 w true true false) (slotCheck q)
/-- M.NEG. -/
def execMNeg (q st : Nat) (w : IWord) (s : State) : Res := runMod s q st w (mOp 2 w false false false) (slotCheck q)
/-- M.MULS. -/
def execMMuls (q st : Nat) (w : IWord) (s : State) : Res := runMod s q st w (mOp 3 w true true true) (slotCheck q)
/-- M.MULG. -/
def execMMulg (q st : Nat) (w : IWord) (s : State) : Res := runMod s q st w (mOp 4 w true true true) (slotCheck q)
/-- M.TOMONT. -/
def execMTomont (q st : Nat) (w : IWord) (s : State) : Res := runMod s q st w (mOp 5 w false false false) (slotCheck q)
/-- M.FROMMONT. -/
def execMFrommont (q st : Nat) (w : IWord) (s : State) : Res := runMod s q st w (mOp 6 w false false false) (slotCheck q)
/-- M.BFLY. -/
def execMBfly (q st : Nat) (w : IWord) (s : State) : Res := runMod s q st w (mBflyOp w) (slotCheck q)
/-- M.SETQ: its guard governs the instruction (R147). -/
def execMSetq (q st : Nat) (w : IWord) (s : State) : Res :=
  runMod s q st w { maj := 0x10, sub := 8, f1 := .s, opt := maskOf 22 20 } setqCheck

end Sys2Proof.Machine
end

