-- ==== Sys2Proof/Machine/Random.lean ====
section
/-! DEFINITION. What the entropy complex does at a sample and at each turn of a DRBG instance, and the host windows (ch. 15). -/

namespace Sys2Proof.Machine

/-! ### Delivery (R444–R446) -/

/-- A stream's instruction has every block it asked for. -/
def drawn (q : Nat) (s : State) (f : Flight) (blocks : List (List Byte)) : State :=
  match f.maj, f.sub with
  | 0x14, _ => calRun q (blockWords blocks) s f
  | 0x28, _ => sampleRun q s f (blockWords blocks)
  | 0x1C, 0 => openDrawn q s f (blocks.headD [])
  | 0x1C, _ => finalWrite q (nth 64 f.vals 6) blocks s f
  | _, _ => s

/-- A block reaches an instruction: it goes on to ask, or ends.  A.FINAL draws again what a batch of its noise lacks (R302). -/
def drawnOne (g q : Nat) (s : State) (f : Flight) (block : List Byte) : State :=
  match f.phase with
  | .drawing need got =>
    let all := got ++ [block]
    let more := if need ≤ 1 && f.maj = 0x1C && f.sub != 0 then noiseNeed s (nth 64 f.vals 6) all else need - 1
    -- R46: the draws taken, a drain waits on for a reservation over its destination
    if more = 0 && f.maj = 0x14 && reservedFrom (quire s q) f then putFlight s q { f with phase := .drawing 0 all }
    else if more = 0 then settleQuire (drawn q s f all) q
    else askBlock (putFlight s q { f with phase := .drawing more all }) g { who := .stream q f.stream f.seq }
  | _ => s

/-- A function's window takes its block as sixteen words (R447). -/
def windowTake (fn : Nat) (block : List Byte) (s : State) : State :=
  { s with rng.windows := tupd s.rng.windows fn ((List.range 16).map (fun i => fieldAt block (4 * i) 4)) }

/-- A block goes to who asked for it. -/
def deliverBlock (g : Nat) (r : RngReq) (block : List Byte) (s : State) : State :=
  match r.who, r.use with
  | .stream q st seq, _ => match findFlight s q st seq with
    | some f => drawnOne g q s f block
    | none => s
  | .window fn, _ => windowTake fn block s
  | .agent _ _, .mrKey d => mrDrawn d block s
  | .agent _ i, .psk => pskDrawn i block s
  | .agent _ _, .hello slot => helloDrawn slot block s
  | .agent _ _, .none => s

/-- A waiting read completes with RNG_FAILED (R440). -/
def failReader (s : State) (r : RngReq) : State :=
  match r.who, r.use with
  | .stream q st seq, _ => match findFlight s q st seq with
    | some f =>
      settleQuire (match f.maj, f.sub with
        | 0x14, _ => match f.tile with
          | some k => exFault (unrelease s q f k) q f 0x40
          | none => exFault s q f 0x40
        | 0x1C, 0 => exFault (freeSession s (nth 64 f.vals 6)) q f 0x40
        | 0x1C, _ => finalFailed q (nth 64 f.vals 6) s f
        | _, _ => exFault (endDraw s f) q f 0x40) q
    | none => s
  | .window _, _ => s
  | .agent _ _, .mrKey d => mrFailed d s
  | .agent _ i, .psk => pskFailed i s
  | .agent _ _, .hello slot => helloFailed slot s
  | .agent _ _, .none => s

/-! ### Instances (R441–R443) -/

/-- The queues have room again. -/
def refill (s : State) : State := (List.range 4).foldl (fun s g => combine g 8 s) s

/-- INSTANTIATE: two combined blocks make the instance READY.  Without SCLK no instance does anything (R411, R414). -/
def instantiateStep (g : Nat) (s : State) : State :=
  let x := drbg s g
  match x.seeds with
  | b1 :: b2 :: rest =>
    if g ≥ 4 || x.ready || s.rng.failed || !s.rng.started || !domainRuns s 2 then s
    else refill (setDrbg s g { drbgInit x b1 b2 (fitB 16 s.fuses.serial ++ [BitVec.ofNat 8 g]) with seeds := rest })
  | _ => s

/-- RESEED: at a request boundary with n at least 2¹⁶ and a block in the queue. -/
def reseedStep (g : Nat) (s : State) : State :=
  let x := drbg s g
  match x.seeds with
  | b :: rest =>
    if g ≥ 4 || !x.ready || !reseedDue x || !domainRuns s 2 then s else
    let s1 := fadd (setDrbg s g { drbgReseed x b with seeds := rest }) .rngInstCnt 31 0 1 g
    refill (if x.count > 65536 then fadd s1 .rngInstCnt 63 32 1 g else s1)
  | [] => s

/-- Two requests come from one consumer: a stream, or a requester inside an edge agent (R445). -/
def sameConsumer (a b : Consumer) : Bool :=
  match a, b with
  | .stream q st _, .stream q' st' _ => q == q' && st == st'
  | a, b => a == b

/-- R445: after a turn of consumer `c` its further requests wait for the other consumers' turns. -/
def turnsAfter (c : Consumer) (l : List RngReq) : List RngReq :=
  l.filter (fun r => !sameConsumer c r.who) ++ l.filter (fun r => sameConsumer c r.who)

/-- GENERATE: the next request in turn is served; at 2³² requests with no block to reseed from, the instance stops. -/
def generateStep (g : Nat) (s : State) : State :=
  let x := drbg s g
  if g ≥ 4 || !canDeliver x || reseedDue x || !domainRuns s 2 then s else
  match x.queue with
  | [] => s
  | r :: rest =>
    let (y, block) := drbgGen x
    let stop := decide (y.count ≥ 2 ^ 32) && y.seeds.isEmpty
    let s1 := setDrbg s g { y with queue := turnsAfter r.who rest, stopped := stop }
    deliverBlock g r block (if stop then raise s1 (mkEvent 2 6 g 0x05) else s1)

/-! ### Samples (R430, R440) -/

/-- Every source is DISABLED: FAILED, and every waiting read completes. -/
def failAll (s : State) : State :=
  let waiting := (List.range 4).flatMap (fun g => (drbg s g).queue)
  waiting.foldl failReader (enterFailed s)

/-- SAMPLE: the health tests and the conditioner run in SCLK. -/
def sampleStep (i v : Nat) (s : State) : State :=
  if i ≥ 16 || !s.rng.started || s.rng.failed || (source s i).state == .disabled || !s.power.rails || !domainRuns s 2 then s else
  let s1 := takeSample i v s
  if allDisabled s1 then failAll s1 else s1

/-! ### Host windows (R447) -/

/-- The function has a request outstanding. -/
def windowAsked (s : State) (fn : Nat) : Bool := (drbg s 3).queue.any (fun r => r.who == .window fn)

/-- Instance 3 takes turns until the window of `fn` holds a block. -/
def turnsUntil (fn : Nat) : Nat → State → State
  | 0, s => s
  | n + 1, s => if (tget [] s.rng.windows fn).isEmpty then turnsUntil fn n (generateStep 3 (reseedStep 3 s)) else s

/-- The completion of a window read. -/
def windowAnswer (fn data status : Nat) (s : State) : State := emit s (.readData fn (leBytes 8 (data + status * 2 ^ 32)) false)

/-- HOST_WINDOW_READ of the window of `f` by `fn`. -/
def windowRead (fn f : Nat) (inTime : Bool) (s : State) : State :=
  if !busUp s then s
  else if fn != f || !reaches s fn .rngRd f 0 then windowAnswer fn 0 0 s
  else if s.rng.failed then windowAnswer fn 0 2 s
  else
    let s1 := if (tget [] s.rng.windows fn).isEmpty && !windowAsked s fn then askBlock s 3 { who := .window fn } else s
    let s2 := if inTime then turnsUntil fn (drbg s1 3).queue.length s1 else s1
    match tget [] s2.rng.windows fn with
    | v :: rest => windowAnswer fn v 0 { s2 with rng.windows := tset [] s2.rng.windows fn rest }
    | [] => windowAnswer fn 0 1 s2

/-! ### Meanings -/

/-- SAMPLE. -/
def execSample (src : Nat) (v : BitVec 4) (s : State) : Res := .next (sampleStep src v.toNat s)
/-- INSTANTIATE. -/
def execInstantiate (g : Nat) (s : State) : Res := .next (instantiateStep g s)
/-- GENERATE. -/
def execGenerate (g : Nat) (s : State) : Res := .next (generateStep g s)
/-- RESEED. -/
def execReseed (g : Nat) (s : State) : Res := .next (reseedStep g s)
/-- HT_INJ_ARM. -/
def execHtInjArm (fn : Nat) (value : Word) (s : State) : Res := .next (armStep fn .rngHtInj 0 value.toNat s)
/-- HOST_WINDOW_READ. -/
def execHostWindowRead (fn f : Nat) (inTime : Bool) (s : State) : Res := .next (windowRead fn f inTime s)

end Sys2Proof.Machine
end

