-- ==== Sys2Proof/Machine/Dispatch.lean ====
section
/-! DEFINITION. The dispatch: one arm for every command. -/

namespace Sys2Proof.Machine

def exec (i : Instr) (s : State) : Host.Outcome State Fault Refusal :=
  match i with
  | .powerApplied => Sys2Proof.Machine.execPowerApplied s
  | .inputOutOfRange => Sys2Proof.Machine.execInputOutOfRange s
  | .inputSample mv ma => Sys2Proof.Machine.execInputSample mv ma s
  | .perstNAssert => Sys2Proof.Machine.execPerstNAssert s
  | .perstNRelease b => Sys2Proof.Machine.execPerstNRelease b s
  | .gctReset fn value b => Sys2Proof.Machine.execGctReset fn value b s
  | .flr f => Sys2Proof.Machine.execFlr f s
  | .configurationRequest fn a => Sys2Proof.Machine.execConfigurationRequest fn a s
  | .quireReset fn p => Sys2Proof.Machine.execQuireReset fn p s
  | .rawPinEdge pin level => Sys2Proof.Machine.execRawPinEdge pin level s
  | .filterOutputChange pin => Sys2Proof.Machine.execFilterOutputChange pin s
  | .pinHeld pin => Sys2Proof.Machine.execPinHeld pin s
  | .pwrbrkNAssert => Sys2Proof.Machine.execPwrbrkNAssert s
  | .pwrbrkNRelease => Sys2Proof.Machine.execPwrbrkNRelease s
  | .throtNAssert => Sys2Proof.Machine.execThrotNAssert s
  | .throtNRelease => Sys2Proof.Machine.execThrotNRelease s
  | .shutdnNAssert => Sys2Proof.Machine.execShutdnNAssert s
  | .shutdownRailsOff => Sys2Proof.Machine.execShutdownRailsOff s
  | .shutdnNRelease => Sys2Proof.Machine.execShutdnNRelease s
  | .registerWrite fn addr size value => Sys2Proof.Machine.execRegisterWrite fn addr size value s
  | .latchingRead fn addr => Sys2Proof.Machine.execLatchingRead fn addr s
  | .logClear fn addr size value => Sys2Proof.Machine.execLogClear fn addr size value s
  | .bar2Read fn off len => Sys2Proof.Machine.execBar2Read fn off len s
  | .bar2Write fn off data => Sys2Proof.Machine.execBar2Write fn off data s
  | .hostWindowRead fn f inTime => Sys2Proof.Machine.execHostWindowRead fn f inTime s
  | .doorbell fn ring value => Sys2Proof.Machine.execDoorbell fn ring value s
  | .completionDoorbell fn ring value => Sys2Proof.Machine.execCompletionDoorbell fn ring value s
  | .ringEnable fn ring value => Sys2Proof.Machine.execRingEnable fn ring value s
  | .ringDisable fn ring value => Sys2Proof.Machine.execRingDisable fn ring value s
  | .haltClear fn f value => Sys2Proof.Machine.execHaltClear fn f value s
  | .descriptorFetch ring hostOk => Sys2Proof.Machine.execDescriptorFetch ring hostOk s
  | .descriptorStart ring id => Sys2Proof.Machine.execDescriptorStart ring id s
  | .interruptTimer ring => Sys2Proof.Machine.execInterruptTimer ring s
  | .nop ring id => Sys2Proof.Machine.execNop ring id s
  | .dispatch ring id => Sys2Proof.Machine.execDispatch ring id s
  | .load ring id h => Sys2Proof.Machine.execLoad ring id h s
  | .unload ring id => Sys2Proof.Machine.execUnload ring id s
  | .dma ring id h => Sys2Proof.Machine.execDma ring id h s
  | .mload ring id h => Sys2Proof.Machine.execMload ring id h s
  | .submit ring id h => Sys2Proof.Machine.execSubmit ring id h s
  | .cancel ring id => Sys2Proof.Machine.execCancel ring id s
  | .detach ring id => Sys2Proof.Machine.execDetach ring id s
  | .setparam ring id => Sys2Proof.Machine.execSetparam ring id s
  | .modelLoad ring id => Sys2Proof.Machine.execModelLoad ring id s
  | .modelLoaded d m h => Sys2Proof.Machine.execModelLoaded d m h s
  | .modelUnload ring id => Sys2Proof.Machine.execModelUnload ring id s
  | .basisRegister ring id => Sys2Proof.Machine.execBasisRegister ring id s
  | .basisRelease ring id => Sys2Proof.Machine.execBasisRelease ring id s
  | .keyRegister ring id => Sys2Proof.Machine.execKeyRegister ring id s
  | .keyRelease ring id => Sys2Proof.Machine.execKeyRelease ring id s
  | .releaseDrainEnd d n => Sys2Proof.Machine.execReleaseDrainEnd d n s
  | .aggAbandon ring id => Sys2Proof.Machine.execAggAbandon ring id s
  | .sessionReleased session => Sys2Proof.Machine.execSessionReleased session s
  | .xltMap ring id => Sys2Proof.Machine.execXltMap ring id s
  | .xltUnmap ring id => Sys2Proof.Machine.execXltUnmap ring id s
  | .getVersion => Sys2Proof.Machine.execGetVersion s
  | .getCapabilities => Sys2Proof.Machine.execGetCapabilities s
  | .negotiateAlgorithms hash aead => Sys2Proof.Machine.execNegotiateAlgorithms hash aead s
  | .pskExchange hint context => Sys2Proof.Machine.execPskExchange hint context s
  | .pskFinish sess verified => Sys2Proof.Machine.execPskFinish sess verified s
  | .heartbeat sess => Sys2Proof.Machine.execHeartbeat sess s
  | .keyUpdate sess => Sys2Proof.Machine.execKeyUpdate sess s
  | .endSession sess => Sys2Proof.Machine.execEndSession sess s
  | .getMeasurements sess index nonce => Sys2Proof.Machine.execGetMeasurements sess index nonce s
  | .chunkSend handle seq last data => Sys2Proof.Machine.execChunkSend handle seq last data s
  | .chunkGet handle seq => Sys2Proof.Machine.execChunkGet handle seq s
  | .vendorDefinedRequest sess payload => Sys2Proof.Machine.execVendorDefinedRequest sess payload s
  | .unsupportedRequest code => Sys2Proof.Machine.execUnsupportedRequest code s
  | .keyProg sess stream keySet key => Sys2Proof.Machine.execKeyProg sess stream keySet key s
  | .kSetGo sess stream keySet => Sys2Proof.Machine.execKSetGo sess stream keySet s
  | .kSetStop sess stream keySet => Sys2Proof.Machine.execKSetStop sess stream keySet s
  | .query sess => Sys2Proof.Machine.execQuery sess s
  | .ideFail stream => Sys2Proof.Machine.execIdeFail stream s
  | .getTdispVersion sess vf => Sys2Proof.Machine.execGetTdispVersion sess vf s
  | .getTdispCapabilities sess vf => Sys2Proof.Machine.execGetTdispCapabilities sess vf s
  | .lockInterfaceRequest sess vf => Sys2Proof.Machine.execLockInterfaceRequest sess vf s
  | .getDeviceInterfaceReport sess vf => Sys2Proof.Machine.execGetDeviceInterfaceReport sess vf s
  | .getDeviceInterfaceState sess vf => Sys2Proof.Machine.execGetDeviceInterfaceState sess vf s
  | .startInterfaceRequest sess vf => Sys2Proof.Machine.execStartInterfaceRequest sess vf s
  | .stopInterfaceRequest sess vf => Sys2Proof.Machine.execStopInterfaceRequest sess vf s
  | .sAdd q st w => Sys2Proof.Machine.execSAdd q st w s
  | .sSub q st w => Sys2Proof.Machine.execSSub q st w s
  | .sAnd q st w => Sys2Proof.Machine.execSAnd q st w s
  | .sOr q st w => Sys2Proof.Machine.execSOr q st w s
  | .sXor q st w => Sys2Proof.Machine.execSXor q st w s
  | .sShl q st w => Sys2Proof.Machine.execSShl q st w s
  | .sShr q st w => Sys2Proof.Machine.execSShr q st w s
  | .sSra q st w => Sys2Proof.Machine.execSSra q st w s
  | .sSlt q st w => Sys2Proof.Machine.execSSlt q st w s
  | .sSltu q st w => Sys2Proof.Machine.execSSltu q st w s
  | .sAddImmediate q st w => Sys2Proof.Machine.execSAddImmediate q st w s
  | .sSubImmediate q st w => Sys2Proof.Machine.execSSubImmediate q st w s
  | .sAndImmediate q st w => Sys2Proof.Machine.execSAndImmediate q st w s
  | .sOrImmediate q st w => Sys2Proof.Machine.execSOrImmediate q st w s
  | .sXorImmediate q st w => Sys2Proof.Machine.execSXorImmediate q st w s
  | .sShlImmediate q st w => Sys2Proof.Machine.execSShlImmediate q st w s
  | .sShrImmediate q st w => Sys2Proof.Machine.execSShrImmediate q st w s
  | .sSraImmediate q st w => Sys2Proof.Machine.execSSraImmediate q st w s
  | .sSltImmediate q st w => Sys2Proof.Machine.execSSltImmediate q st w s
  | .sSltuImmediate q st w => Sys2Proof.Machine.execSSltuImmediate q st w s
  | .sMul q st w => Sys2Proof.Machine.execSMul q st w s
  | .sMulhu q st w => Sys2Proof.Machine.execSMulhu q st w s
  | .sMulhs q st w => Sys2Proof.Machine.execSMulhs q st w s
  | .sDiv q st w => Sys2Proof.Machine.execSDiv q st w s
  | .sDivu q st w => Sys2Proof.Machine.execSDivu q st w s
  | .sRem q st w => Sys2Proof.Machine.execSRem q st w s
  | .sRemu q st w => Sys2Proof.Machine.execSRemu q st w s
  | .sBeq q st w => Sys2Proof.Machine.execSBeq q st w s
  | .sBne q st w => Sys2Proof.Machine.execSBne q st w s
  | .sBlt q st w => Sys2Proof.Machine.execSBlt q st w s
  | .sBltu q st w => Sys2Proof.Machine.execSBltu q st w s
  | .sJmp q st w => Sys2Proof.Machine.execSJmp q st w s
  | .sJr q st w => Sys2Proof.Machine.execSJr q st w s
  | .sLd q st w => Sys2Proof.Machine.execSLd q st w s
  | .sSt q st w => Sys2Proof.Machine.execSSt q st w s
  | .sLi q st w => Sys2Proof.Machine.execSLi q st w s
  | .sLiu q st w => Sys2Proof.Machine.execSLiu q st w s
  | .sPand q st w => Sys2Proof.Machine.execSPand q st w s
  | .sPor q st w => Sys2Proof.Machine.execSPor q st w s
  | .sPxor q st w => Sys2Proof.Machine.execSPxor q st w s
  | .sPnot q st w => Sys2Proof.Machine.execSPnot q st w s
  | .sPset q st w => Sys2Proof.Machine.execSPset q st w s
  | .vAdd q st w => Sys2Proof.Machine.execVAdd q st w s
  | .vSub q st w => Sys2Proof.Machine.execVSub q st w s
  | .vMul q st w => Sys2Proof.Machine.execVMul q st w s
  | .vFma q st w => Sys2Proof.Machine.execVFma q st w s
  | .vMin q st w => Sys2Proof.Machine.execVMin q st w s
  | .vMax q st w => Sys2Proof.Machine.execVMax q st w s
  | .vCmp q st w => Sys2Proof.Machine.execVCmp q st w s
  | .vCvt q st w => Sys2Proof.Machine.execVCvt q st w s
  | .vIadd q st w => Sys2Proof.Machine.execVIadd q st w s
  | .vIsub q st w => Sys2Proof.Machine.execVIsub q st w s
  | .vImul q st w => Sys2Proof.Machine.execVImul q st w s
  | .vShl q st w => Sys2Proof.Machine.execVShl q st w s
  | .vShr q st w => Sys2Proof.Machine.execVShr q st w s
  | .vSra q st w => Sys2Proof.Machine.execVSra q st w s
  | .vAnd q st w => Sys2Proof.Machine.execVAnd q st w s
  | .vOr q st w => Sys2Proof.Machine.execVOr q st w s
  | .vXor q st w => Sys2Proof.Machine.execVXor q st w s
  | .vImin q st w => Sys2Proof.Machine.execVImin q st w s
  | .vImax q st w => Sys2Proof.Machine.execVImax q st w s
  | .vExp2 q st w => Sys2Proof.Machine.execVExp2 q st w s
  | .vLog2 q st w => Sys2Proof.Machine.execVLog2 q st w s
  | .vRcp q st w => Sys2Proof.Machine.execVRcp q st w s
  | .vRsqrt q st w => Sys2Proof.Machine.execVRsqrt q st w s
  | .vSqrt q st w => Sys2Proof.Machine.execVSqrt q st w s
  | .vTanh q st w => Sys2Proof.Machine.execVTanh q st w s
  | .vRsum q st w => Sys2Proof.Machine.execVRsum q st w s
  | .vRmax q st w => Sys2Proof.Machine.execVRmax q st w s
  | .vRmin q st w => Sys2Proof.Machine.execVRmin q st w s
  | .vPerm q st w => Sys2Proof.Machine.execVPerm q st w s
  | .vBitrev q st w => Sys2Proof.Machine.execVBitrev q st w s
  | .vLd q st w => Sys2Proof.Machine.execVLd q st w s
  | .vSt q st w => Sys2Proof.Machine.execVSt q st w s
  | .pipeStart q pipe u => Sys2Proof.Machine.execPipeStart q pipe u s
  | .mAdd q st w => Sys2Proof.Machine.execMAdd q st w s
  | .mSub q st w => Sys2Proof.Machine.execMSub q st w s
  | .mNeg q st w => Sys2Proof.Machine.execMNeg q st w s
  | .mMuls q st w => Sys2Proof.Machine.execMMuls q st w s
  | .mMulg q st w => Sys2Proof.Machine.execMMulg q st w s
  | .mTomont q st w => Sys2Proof.Machine.execMTomont q st w s
  | .mFrommont q st w => Sys2Proof.Machine.execMFrommont q st w s
  | .mBfly q st w => Sys2Proof.Machine.execMBfly q st w s
  | .mSetq q st w => Sys2Proof.Machine.execMSetq q st w s
  | .tZero q st w => Sys2Proof.Machine.execTZero q st w s
  | .tPreload q st w => Sys2Proof.Machine.execTPreload q st w s
  | .tMma q st w => Sys2Proof.Machine.execTMma q st w s
  | .pass q sheet u => Sys2Proof.Machine.execPass q sheet u s
  | .tMerge q st w => Sys2Proof.Machine.execTMerge q st w s
  | .tDrain q st w => Sys2Proof.Machine.execTDrain q st w s
  | .tRmax q st w => Sys2Proof.Machine.execTRmax q st w s
  | .tRmin q st w => Sys2Proof.Machine.execTRmin q st w s
  | .orderingOperationStart q sheet slot fmt => Sys2Proof.Machine.execOrderingOperationStart q sheet slot fmt s
  | .pNtt q st w => Sys2Proof.Machine.execPNtt q st w s
  | .pIntt q st w => Sys2Proof.Machine.execPIntt q st w s
  | .pAuto q st w => Sys2Proof.Machine.execPAuto q st w s
  | .pKsw q st w => Sys2Proof.Machine.execPKsw q st w s
  | .pRescale q st w => Sys2Proof.Machine.execPRescale q st w s
  | .pBoot q st w => Sys2Proof.Machine.execPBoot q st w s
  | .pGate q st w => Sys2Proof.Machine.execPGate q st w s
  | .pLut q st w => Sys2Proof.Machine.execPLut q st w s
  | .pAdd q st w => Sys2Proof.Machine.execPAdd q st w s
  | .pSub q st w => Sys2Proof.Machine.execPSub q st w s
  | .pMulp q st w => Sys2Proof.Machine.execPMulp q st w s
  | .pMulc q st w => Sys2Proof.Machine.execPMulc q st w s
  | .aOpen q st w => Sys2Proof.Machine.execAOpen q st w s
  | .aIngest q st w => Sys2Proof.Machine.execAIngest q st w s
  | .aExpand q st w => Sys2Proof.Machine.execAExpand q st w s
  | .aStage q st w => Sys2Proof.Machine.execAStage q st w s
  | .aCommit q st w => Sys2Proof.Machine.execACommit q st w s
  | .aAbort q st w => Sys2Proof.Machine.execAAbort q st w s
  | .aRetract q st w => Sys2Proof.Machine.execARetract q st w s
  | .aFinal q st w => Sys2Proof.Machine.execAFinal q st w s
  | .cAttach q st w => Sys2Proof.Machine.execCAttach q st w s
  | .cStep q st w => Sys2Proof.Machine.execCStep q st w s
  | .cSample q st w => Sys2Proof.Machine.execCSample q st w s
  | .cSwap q st w => Sys2Proof.Machine.execCSwap q st w s
  | .swapEnd ctx => Sys2Proof.Machine.execSwapEnd ctx s
  | .autoSwapOut d => Sys2Proof.Machine.execAutoSwapOut d s
  | .autoSwapIn d => Sys2Proof.Machine.execAutoSwapIn d s
  | .dCopy q st w => Sys2Proof.Machine.execDCopy q st w s
  | .dPref q st w => Sys2Proof.Machine.execDPref q st w s
  | .dMload q st w => Sys2Proof.Machine.execDMload q st w s
  | .prefetchRequest q hs => Sys2Proof.Machine.execPrefetchRequest q hs s
  | .xFence q st w => Sys2Proof.Machine.execXFence q st w s
  | .fenceEnd q st => Sys2Proof.Machine.execFenceEnd q st s
  | .xWait q st w => Sys2Proof.Machine.execXWait q st w s
  | .xWaitEnd q st => Sys2Proof.Machine.execXWaitEnd q st s
  | .xWaitTimeout q st => Sys2Proof.Machine.execXWaitTimeout q st s
  | .xSignal q st w => Sys2Proof.Machine.execXSignal q st w s
  | .xBar q st w => Sys2Proof.Machine.execXBar q st w s
  | .xBarRelease q st => Sys2Proof.Machine.execXBarRelease q st s
  | .xSend q st w => Sys2Proof.Machine.execXSend q st w s
  | .xRecv q st w => Sys2Proof.Machine.execXRecv q st w s
  | .xEnd q st w => Sys2Proof.Machine.execXEnd q st w s
  | .kSha q st w => Sys2Proof.Machine.execKSha q st w s
  | .kAes q st w => Sys2Proof.Machine.execKAes q st w s
  | .kShake q st w => Sys2Proof.Machine.execKShake q st w s
  | .release fn p value => Sys2Proof.Machine.execRelease fn p value s
  | .roleAssignment fn p value => Sys2Proof.Machine.execRoleAssignment fn p value s
  | .messageArrival src dst => Sys2Proof.Machine.execMessageArrival src dst s
  | .messageResend src dst => Sys2Proof.Machine.execMessageResend src dst s
  | .returnArrival q => Sys2Proof.Machine.execReturnArrival q s
  | .controllerRequest dpa r => Sys2Proof.Machine.execControllerRequest dpa r s
  | .zeroFill frame => Sys2Proof.Machine.execZeroFill frame s
  | .zeroRequestEnd engine => Sys2Proof.Machine.execZeroRequestEnd engine s
  | .patrolScrubRead c us => Sys2Proof.Machine.execPatrolScrubRead c us s
  | .translationEnable fn d value => Sys2Proof.Machine.execTranslationEnable fn d value s
  | .translationDisable fn d value => Sys2Proof.Machine.execTranslationDisable fn d value s
  | .flipArm fn c value => Sys2Proof.Machine.execFlipArm fn c value s
  | .soft fn c value => Sys2Proof.Machine.execSoft fn c value s
  | .hard fn c r => Sys2Proof.Machine.execHard fn c r s
  | .softRepairEnd c spare => Sys2Proof.Machine.execSoftRepairEnd c spare s
  | .poolEnable fn d value => Sys2Proof.Machine.execPoolEnable fn d value s
  | .poolDisable fn d value => Sys2Proof.Machine.execPoolDisable fn d value s
  | .portEnable fn p value => Sys2Proof.Machine.execPortEnable fn p value s
  | .portDisable fn p value => Sys2Proof.Machine.execPortDisable fn p value s
  | .trainingComplete p lanes => Sys2Proof.Machine.execTrainingComplete p lanes s
  | .linkLoss p lanes => Sys2Proof.Machine.execLinkLoss p lanes s
  | .linkHoldExpired p => Sys2Proof.Machine.execLinkHoldExpired p s
  | .helloTransmit p => Sys2Proof.Machine.execHelloTransmit p s
  | .izkaiHello p => Sys2Proof.Machine.execIzkaiHello p s
  | .negotiateFail p => Sys2Proof.Machine.execNegotiateFail p s
  | .pfcFrame p classes quanta => Sys2Proof.Machine.execPfcFrame p classes quanta s
  | .xoff p => Sys2Proof.Machine.execXoff p s
  | .xon p => Sys2Proof.Machine.execXon p s
  | .pfcStorm p prio => Sys2Proof.Machine.execPfcStorm p prio s
  | .frameReceive p frame => Sys2Proof.Machine.execFrameReceive p frame s
  | .write p => Sys2Proof.Machine.execWrite p s
  | .writeImm p => Sys2Proof.Machine.execWriteImm p s
  | .send p => Sys2Proof.Machine.execSend p s
  | .readReq p => Sys2Proof.Machine.execReadReq p s
  | .readResp p => Sys2Proof.Machine.execReadResp p s
  | .ack p => Sys2Proof.Machine.execAck p s
  | .nak p => Sys2Proof.Machine.execNak p s
  | .credit p => Sys2Proof.Machine.execCredit p s
  | .creditReq p => Sys2Proof.Machine.execCreditReq p s
  | .terminate p => Sys2Proof.Machine.execTerminate p s
  | .ackTimer qp path => Sys2Proof.Machine.execAckTimer qp path s
  | .rtoExpiry qp path => Sys2Proof.Machine.execRtoExpiry qp path s
  | .rnrDelayExpiry qp path => Sys2Proof.Machine.execRnrDelayExpiry qp path s
  | .creditTimeout qp => Sys2Proof.Machine.execCreditTimeout qp s
  | .msgTmoExpiry qp msn => Sys2Proof.Machine.execMsgTmoExpiry qp msn s
  | .qpDoorbell qp recv => Sys2Proof.Machine.execQpDoorbell qp recv s
  | .sendEntryStart qp => Sys2Proof.Machine.execSendEntryStart qp s
  | .triggeredStart qp => Sys2Proof.Machine.execTriggeredStart qp s
  | .qpCreate fn d value => Sys2Proof.Machine.execQpCreate fn d value s
  | .qpModify fn d value => Sys2Proof.Machine.execQpModify fn d value s
  | .qpDestroy fn d value => Sys2Proof.Machine.execQpDestroy fn d value s
  | .cqCreate fn d value => Sys2Proof.Machine.execCqCreate fn d value s
  | .cqDestroy fn d value => Sys2Proof.Machine.execCqDestroy fn d value s
  | .mrReg fn d value => Sys2Proof.Machine.execMrReg fn d value s
  | .mrDereg fn d value => Sys2Proof.Machine.execMrDereg fn d value s
  | .revocationDrainEnd d => Sys2Proof.Machine.execRevocationDrainEnd d s
  | .primaryUnlock dom => Sys2Proof.Machine.execPrimaryUnlock dom s
  | .standbyUnlock dom => Sys2Proof.Machine.execStandbyUnlock dom s
  | .pllDualLost dom => Sys2Proof.Machine.execPllDualLost dom s
  | .refLost r => Sys2Proof.Machine.execRefLost r s
  | .refPresent r => Sys2Proof.Machine.execRefPresent r s
  | .primaryRelock dom => Sys2Proof.Machine.execPrimaryRelock dom s
  | .switchBack fn value => Sys2Proof.Machine.execSwitchBack fn value s
  | .aclkStep => Sys2Proof.Machine.execAclkStep s
  | .cdcPtrMismatch cls inst packets => Sys2Proof.Machine.execCdcPtrMismatch cls inst packets s
  | .eventRecordEntry => Sys2Proof.Machine.execEventRecordEntry s
  | .eventDelivery dest => Sys2Proof.Machine.execEventDelivery dest s
  | .eventRingEnable fn f value => Sys2Proof.Machine.execEventRingEnable fn f value s
  | .eventRingDisable fn f value => Sys2Proof.Machine.execEventRingDisable fn f value s
  | .eventHead fn f value => Sys2Proof.Machine.execEventHead fn f value s
  | .fatalClear fn size value => Sys2Proof.Machine.execFatalClear fn size value s
  | .sample src v => Sys2Proof.Machine.execSample src v s
  | .instantiate g => Sys2Proof.Machine.execInstantiate g s
  | .generate g => Sys2Proof.Machine.execGenerate g s
  | .reseed g => Sys2Proof.Machine.execReseed g s
  | .htInjArm fn value => Sys2Proof.Machine.execHtInjArm fn value s
  | .seal fn value => Sys2Proof.Machine.execSeal fn value s
  | .loadKey fn d value => Sys2Proof.Machine.execLoadKey fn d value s
  | .destroy fn d value => Sys2Proof.Machine.execDestroy fn d value s
  | .create src cmd cmd2 => Sys2Proof.Machine.execCreate src cmd cmd2 s
  | .grant src cmd cmd2 => Sys2Proof.Machine.execGrant src cmd cmd2 s
  | .reclaim src cmd cmd2 => Sys2Proof.Machine.execReclaim src cmd cmd2 s
  | .reset src cmd cmd2 => Sys2Proof.Machine.execReset src cmd cmd2 s
  | .remove src cmd cmd2 => Sys2Proof.Machine.execRemove src cmd cmd2 s
  | .drainClose d => Sys2Proof.Machine.execDrainClose d s
  | .keyDestruction d => Sys2Proof.Machine.execKeyDestruction d s
  | .scrubEnd d => Sys2Proof.Machine.execScrubEnd d s
  | .eraseEnd d => Sys2Proof.Machine.execEraseEnd d s
  | .liveActivation => Sys2Proof.Machine.execLiveActivation s
  | .reportSigned => Sys2Proof.Machine.execReportSigned s
  | .retire fn p => Sys2Proof.Machine.execRetire fn p s
  | .errAck fn p => Sys2Proof.Machine.execErrAck fn p s
  | .windowExpiry p => Sys2Proof.Machine.execWindowExpiry p s
  | .retirement failed => Sys2Proof.Machine.execRetirement failed s
  | .quireBucketLeak p => Sys2Proof.Machine.execQuireBucketLeak p s
  | .frameBucketLeak c => Sys2Proof.Machine.execFrameBucketLeak c s
  | .shtInjArm fn p value => Sys2Proof.Machine.execShtInjArm fn p value s
  | .btrInjArm fn p value => Sys2Proof.Machine.execBtrInjArm fn p value s
  | .laneFailure lanes => Sys2Proof.Machine.execLaneFailure lanes s
  | .tick => Sys2Proof.Machine.execTick s
  | .excursion => Sys2Proof.Machine.execExcursion s
  | .peak => Sys2Proof.Machine.execPeak s
  | .droop p => Sys2Proof.Machine.execDroop p s
  | .sensorRead x => Sys2Proof.Machine.execSensorRead x s
  | .caldrop => Sys2Proof.Machine.execCaldrop s
  | .idleWindow tableMax => Sys2Proof.Machine.execIdleWindow tableMax s
  | .hello slot => Sys2Proof.Machine.execHello slot s
  | .bye slot => Sys2Proof.Machine.execBye slot s
  | .identity slot => Sys2Proof.Machine.execIdentity slot s
  | .telemetry slot => Sys2Proof.Machine.execTelemetry slot s
  | .report slot => Sys2Proof.Machine.execReport slot s
  | .power slot => Sys2Proof.Machine.execPower slot s
  | .pliacReset slot b => Sys2Proof.Machine.execPliacReset slot b s
  | .pliacRetire slot failed => Sys2Proof.Machine.execPliacRetire slot failed s
  | .partition slot => Sys2Proof.Machine.execPartition slot s
  | .partitionStatus slot => Sys2Proof.Machine.execPartitionStatus slot s
  | .lcSet slot b => Sys2Proof.Machine.execLcSet slot b s
  | .mode slot => Sys2Proof.Machine.execMode slot s
  | .arbAdvance slot => Sys2Proof.Machine.execArbAdvance slot s
  | .imgBegin slot => Sys2Proof.Machine.execImgBegin slot s
  | .eraseDone => Sys2Proof.Machine.execEraseDone s
  | .imgWrite slot => Sys2Proof.Machine.execImgWrite slot s
  | .imgCommit slot sigOk => Sys2Proof.Machine.execImgCommit slot sigOk s
  | .imgStatus slot => Sys2Proof.Machine.execImgStatus slot s
  | .stagingTimeout => Sys2Proof.Machine.execStagingTimeout s
  | .linkKey slot => Sys2Proof.Machine.execLinkKey slot s
  | .credInstall slot => Sys2Proof.Machine.execCredInstall slot s
  | .credRemove slot => Sys2Proof.Machine.execCredRemove slot s
  | .eventSub slot => Sys2Proof.Machine.execEventSub slot s
  | .eventAck slot => Sys2Proof.Machine.execEventAck slot s
  | .event slot => Sys2Proof.Machine.execEvent slot s
  | .eventResend slot => Sys2Proof.Machine.execEventResend slot s
  | .sessionTimeout slot => Sys2Proof.Machine.execSessionTimeout slot s
  | .datagramReceive d => Sys2Proof.Machine.execDatagramReceive d s
  | .neighborSolicitation e src target => Sys2Proof.Machine.execNeighborSolicitation e src target s
  | .echoRequest e src dst data => Sys2Proof.Machine.execEchoRequest e src dst data s
  | .smbusIdentityRead => Sys2Proof.Machine.execSmbusIdentityRead s
  | .smbusDieTemperature => Sys2Proof.Machine.execSmbusDieTemperature s
  | .smbusMemoryTemperature => Sys2Proof.Machine.execSmbusMemoryTemperature s
  | .smbusImageSeq => Sys2Proof.Machine.execSmbusImageSeq s
  | .smbusFaultStatus => Sys2Proof.Machine.execSmbusFaultStatus s
  | .smbusWrite command => Sys2Proof.Machine.execSmbusWrite command s
  | .standbyRelock dom => Sys2Proof.Machine.execStandbyRelock dom s
  | .tapAccess a => Sys2Proof.Machine.execTapAccess a s
  | .jtagLifeCycleRequest target b => Sys2Proof.Machine.execJtagLifeCycleRequest target b s
  | .hostLinkReenable => Sys2Proof.Machine.execHostLinkReenable s
  | .pauseExpiry p prio => Sys2Proof.Machine.execPauseExpiry p prio s
  | .droopRecovery p => Sys2Proof.Machine.execDroopRecovery p s
  | .managementLinkChange up => Sys2Proof.Machine.execManagementLinkChange up s

end Sys2Proof.Machine
end

