-- ==== Sys2Proof/Machine/Time.lean ====
section
/-! DEFINITION. The passage of time: what a step does when no command waits. -/

namespace Sys2Proof.Machine

/-- R533: ACLK cycles doubled at the quires whose rail droops, `w` 1/200 cycles per 25 MHz of the frequency, reach STRETCH. -/
def stretchOf (w : Nat) (s : State) : State :=
  let d := (s.phys.filter (fun p => p.2.droop)).length
  if d = 0 then s else
  let t := s.power.stretch + d * w * (24 + s.clk.aclk)
  fadd { s with power.stretch := t % 200 } .pwrCnt 31 0 (t / 200)

/-- R597: the ACLK cycles of a stretch of time reach RUNCYC of each quire that has a stream RUNNING or DRAINING: `2 w` 1/200
cycles per 25 MHz of its frequency, half of them where its rail droops; none while ACLK has no PLL. -/
def runCycles (w : Nat) (s : State) : State :=
  if !domainRuns s 0 then s else
  s.phys.foldl (fun s e => match e.2.logical with
    | none => s
    | some q =>
      if (quire s q).streams.any (fun t => t.2.state == .running || t.2.state == .draining) then
        let t := e.2.cycles + (if e.2.droop then 1 else 2) * w * (24 + s.clk.aclk)
        fadd (setPhys s e.1 { e.2 with cycles := t % 200 }) .qrePrf 63 0 (t / 200) e.1 0
      else s) s

/-- One cycle of CORE_REFCLK (100 MHz): model time and the TSC advance by 10 ns.  Without CORE_REFCLK the TSC follows SYS_REFCLK
(156.25 MHz) by 64/100 of a unit a cycle in 2⁻¹⁶ steps, and stops where both are lost (R426).  With the rails off only model time
advances. -/
def idleCycle (s : State) : State :=
  if !s.power.rails then { s with now := s.now + 100 }
  else if !s.clk.lost.contains 1 then runCycles 25 <| stretchOf 25 { s with now := s.now + 100, tsc := (s.tsc + 1) % 2 ^ 64 }
  else if !s.clk.lost.contains 2 then
    let f := s.clk.frac + 0xA3D7
    runCycles 16 <| stretchOf 16 { s with now := s.now + 64, tsc := (s.tsc + f / 65536) % 2 ^ 64, clk.frac := f % 65536 }
  else { s with now := s.now + 64 }

end Sys2Proof.Machine
end

