-- ==== Sys2Proof/Safety.lean ====
section
/-! DEFINITION. The terms in which statements about the block are made: when a command acts, lanes of a register, what only grows. -/

namespace Sys2Proof.Safety

open Sys2Proof.Machine

/-! ### Zidal instructions -/

/-- The scalar registers the word `w` of an operation reads (Table 05.5). -/
def scalarReads (o : Op) (w : IWord) : List Nat :=
  slotRegs o w (fun k => k == .s || k == .sx) ++ (if w.long then [bits w.ext.toNat 57 52, bits w.ext.toNat 51 46] else [])

/-- The fetch at the PC of stream `st` gives the word `w` of the operation `o` and leaves the device in `s1` (R143). -/
def Fetches (s : State) (q st : Nat) (o : Op) (w : IWord) (s1 : State) : Prop :=
  ∃ e, fetch s q st = (s1, .word (baseWord o.maj o.sub w) e) ∧ (w.long = true → e = w.ext.toNat)

/-- Stream `st` of quire `q` may issue, the word `w` of `o` stands at its PC, decodes, passes its feature gates, its guard is read without
an uncorrectable error and lets it act, no register hazard holds it and the issue window has room (R123, R128–R149); `s1` is the state
after the reads of the code and of the guard. -/
def Takes (s : State) (q st : Nat) (o : Op) (w : IWord) (s1 : State) : Prop :=
  mayIssue s q st = true
    ∧ (∃ s0, Fetches s q st o w s0 ∧ decodes o w = true ∧ gatesOk o (programOf s0 q st) = true
      ∧ (w.pg = 0 ∨ (flightsOf (quire s0 q) st).any (fun g => g.pWr.contains w.pg.toNat) = false)
      ∧ guardPassed s0 q st w o = (s1, true))
    ∧ (o.masks = true ∨ ((stream s1 q st).p w.pg.toNat).getLsbD 0 = true)
    ∧ hazard (quire s1 q) (newFlight s1 q st w o) (scalarReads o w) = false
    ∧ windowFull (quire s1 q) st = false

/-- Lane `e` of width `w` of a vector register. -/
def lane (w : Nat) (v : VReg) (e : Nat) : Nat := v.toNat / 2 ^ (w * e) % 2 ^ w

/-! ### What holds of every state that steps reach -/

/-- Memory lists its bytes by rising address and none that is zero, and the registers stand by rising address. -/
def CanonicalForm (s : State) : Prop := Memory.wf s.dram.data = true ∧ Memory.wf s.host.mem = true ∧ tsorted s.regs = true

/-- The fuses of `s` come from `f` by blowing alone: keys, serial number and spares stand, no fuse is unblown (R451, R455, R469). -/
def BlownFrom (f : Fuses) (s : State) : Prop :=
  s.fuses.drs = f.drs ∧ s.fuses.idseed = f.idseed ∧ s.fuses.spdmPsk = f.spdmPsk ∧ s.fuses.pliacTk = f.pliacTk ∧ s.fuses.kek = f.kek
    ∧ s.fuses.vkeys = f.vkeys ∧ s.fuses.vrev = f.vrev ∧ s.fuses.serial = f.serial ∧ s.fuses.spares = f.spares
    ∧ f.arb ≤ s.fuses.arb ∧ f.lc ≤ s.fuses.lc ∧ (f.sealOnly = true → s.fuses.sealOnly = true)

end Sys2Proof.Safety
end

