-- ==== Sys2Proof/Certificates/Slice0/Obligations.lean ====
section
/-! DEFINITION. The statements about the block that the provers are asked to settle. -/

open Sys2Proof Sys2Proof.Machine Sys2Proof.Safety

/-! ### Scalar instructions (R158) -/

/-- 1 or 0 as a 64-bit value. -/
def flag (b : Bool) : Word := if b then 1#64 else 0#64

/-- The scalar value of a register. -/
def sval (s : State) (q st r : Nat) : Word := BitVec.ofNat 64 ((stream s q st).s r)

/-- Register forms: mnemonic, major and minor opcode, and F1 as a function of F2 and F3 (Table 05.14). -/
def scalarRegOps : List ((Nat → Nat → IWord → Instr) × Nat × Nat × (Word → Word → Word)) :=
  [(.sAdd, 1, 0, (· + ·)), (.sSub, 1, 1, (· - ·)), (.sAnd, 1, 2, (· &&& ·)), (.sOr, 1, 3, (· ||| ·)), (.sXor, 1, 4, (· ^^^ ·)),
   (.sShl, 1, 5, fun a b => a <<< (b.toNat % 64)), (.sShr, 1, 6, fun a b => a >>> (b.toNat % 64)),
   (.sSra, 1, 7, fun a b => a.sshiftRight (b.toNat % 64)), (.sSlt, 1, 8, fun a b => flag (a.slt b)),
   (.sSltu, 1, 9, fun a b => flag (a.ult b))]

/-- Immediate forms: mnemonic, minor opcode, and F1 as a function of F2 and the sign-extended immediate. -/
def scalarImmOps : List ((Nat → Nat → IWord → Instr) × Nat × (Word → Word → Word)) :=
  [(.sAddImmediate, 0, (· + ·)), (.sSubImmediate, 1, (· - ·)), (.sAndImmediate, 2, (· &&& ·)), (.sOrImmediate, 3, (· ||| ·)),
   (.sXorImmediate, 4, (· ^^^ ·)), (.sShlImmediate, 5, fun a b => a <<< (b.toNat % 64)),
   (.sShrImmediate, 6, fun a b => a >>> (b.toNat % 64)), (.sSraImmediate, 7, fun a b => a.sshiftRight (b.toNat % 64)),
   (.sSltImmediate, 8, fun a b => flag (a.slt b)), (.sSltuImmediate, 9, fun a b => flag (a.ult b))]

/-- Multiplication and division: mnemonic, minor opcode, and F1; division by zero gives all ones and leaves the dividend. -/
def scalarMulOps : List ((Nat → Nat → IWord → Instr) × Nat × (Word → Word → Word)) :=
  [(.sMul, 0, (· * ·)), (.sMulhu, 1, fun a b => BitVec.ofNat 64 (a.toNat * b.toNat / 2 ^ 64)),
   (.sMulhs, 2, fun a b => BitVec.ofInt 64 (a.toInt * b.toInt / 2 ^ 64)),
   (.sDiv, 3, fun a b => if b = 0#64 then BitVec.allOnes 64 else a.sdiv b),
   (.sDivu, 4, fun a b => if b = 0#64 then BitVec.allOnes 64 else a / b),
   (.sRem, 5, fun a b => if b = 0#64 then a else a.srem b),
   (.sRemu, 6, fun a b => if b = 0#64 then a else a % b)]

/-- Branches: mnemonic, minor opcode, condition on F2 and F3. -/
def branchOps : List ((Nat → Nat → IWord → Instr) × Nat × (Word → Word → Bool)) :=
  [(.sBeq, 0, fun a b => a == b), (.sBne, 1, fun a b => a != b), (.sBlt, 2, fun a b => a.slt b), (.sBltu, 3, fun a b => a.ult b)]

/-- The stream's PC becomes `pc`; nothing else of the state changes. -/
def withPc (s : State) (q st pc : Nat) : State := setStream s q st { stream s q st with pc := pc }

/-- R158: a register-register arithmetic or logic instruction that its stream takes writes F1 (s0 discards it), moves the PC past
the instruction and changes nothing else but what the settling of the quire changes. -/
def ScalarRegisterForms : Prop :=
  ∀ c maj sub g, (c, maj, sub, g) ∈ scalarRegOps → ∀ q st w s s1, Takes s q st (sReg maj sub) w s1 →
    exec (c q st w) s = .next (settleQuire (wrS (advance s1 q st w) q st w.f1.toNat
      (g (sval s1 q st w.f2.toNat) (sval s1 q st (f3Of w))).toNat) q)

/-- R158: the immediate forms; the immediate is the 35-bit field, sign-extended. -/
def ScalarImmediateForms : Prop :=
  ∀ c sub g, (c, sub, g) ∈ scalarImmOps → ∀ q st w s s1, Takes s q st (sImm sub) w s1 →
    exec (c q st w) s = .next (settleQuire (wrS (advance s1 q st w) q st w.f1.toNat
      (g (sval s1 q st w.f2.toNat) (w.low.signExtend 64)).toNat) q)

/-- R158: multiplication and division. -/
def ScalarMultiplyDivide : Prop :=
  ∀ c sub g, (c, sub, g) ∈ scalarMulOps → ∀ q st w s s1, Takes s q st (sReg 3 sub) w s1 →
    exec (c q st w) s = .next (settleQuire (wrS (advance s1 q st w) q st w.f1.toNat
      (g (sval s1 q st w.f2.toNat) (sval s1 q st (f3Of w))).toNat) q)

/-- R158: a branch goes to its own PC plus 8 times the signed 29-bit offset where its condition holds, and on otherwise; S.JMP always
goes there and S.JR goes to F2. -/
def ScalarBranches : Prop :=
  ∀ q st w s s1,
    let target := (BitVec.ofNat 64 (stream s1 q st).pc + (w.low.setWidth 29).signExtend 64 * 8#64).toNat
    (∀ c sub g, (c, sub, g) ∈ branchOps → Takes s q st (sBr sub) w s1 →
      exec (c q st w) s = .next (settleQuire
        (if g (sval s1 q st w.f2.toNat) (sval s1 q st (f3Of w)) then withPc (advance s1 q st w) q st target else advance s1 q st w) q))
    ∧ (Takes s q st { maj := 4, sub := 4, opt := maskOf 28 0 } w s1 →
        exec (.sJmp q st w) s = .next (settleQuire (withPc (advance s1 q st w) q st target) q))
    ∧ (Takes s q st { maj := 4, sub := 5, f2 := .s } w s1 →
        exec (.sJr q st w) s = .next (settleQuire (withPc (advance s1 q st w) q st ((stream s1 q st).s w.f2.toNat)) q))

/-- R158: S.LI writes the sign-extended immediate, S.LIU bits [63:35] of F1 and keeps bits [34:0]; predicate logic writes F1 (p0
discards it) from F2 and F3, whose words hold no error; S.PSET sets the COUNT lowest elements. -/
def ScalarImmediatesAndPredicates : Prop :=
  ∀ q st w s s1,
    (Takes s q st { maj := 6, sub := 0, f1 := .sw, opt := maskOf 34 0 } w s1 →
      exec (.sLi q st w) s = .next (settleQuire (wrS (advance s1 q st w) q st w.f1.toNat (w.low.signExtend 64).toNat) q))
    ∧ (Takes s q st { maj := 6, sub := 1, f1 := .sx, opt := maskOf 28 0 } w s1 →
      exec (.sLiu q st w) s = .next (settleQuire (wrS (advance s1 q st w) q st w.f1.toNat
        ((w.low.setWidth 29) ++ (sval s1 q st w.f1.toNat).setWidth 35).toNat) q))
    ∧ (∀ c sub g, (c, sub, g) ∈ ([(.sPand, 0, (· &&& ·)), (.sPor, 1, (· ||| ·)), (.sPxor, 2, (· ^^^ ·)), (.sPnot, 3, fun a _ => ~~~a)] :
        List ((Nat → Nat → IWord → Instr) × Nat × (Pred → Pred → Pred))) →
      Takes s q st (sPred sub .p (if sub = 3 then .none else .p) 0 true) w s1 → (quire s1 q).upsets = [] →
      exec (c q st w) s = .next (settleQuire (wrP (advance s1 q st w) q st w.f1.toNat
        (g ((stream s1 q st).p w.f2.toNat) ((stream s1 q st).p (f3Of w)))) q))
    ∧ (Takes s q st (sPred 4 .none .none (maskOf 10 0) (decide (bits w.low.toNat 10 0 ≤ 1024))) w s1 → (quire s1 q).upsets = [] →
      exec (.sPset q st w) s = .next (settleQuire (wrP (advance s1 q st w) q st w.f1.toNat
        (BitVec.ofNat 1024 (2 ^ (w.low.setWidth 11).toNat - 1))) q))

/-- R158, R316: S.LD reads and S.ST writes the 8 bytes at F2 plus the sign-extended immediate, an address that is a multiple of 8, with
the protection and translation of the stream's deckle; an instruction whose order field is RELEASE or ORDERED (2 or 3) does so once no
earlier instruction of the stream is in flight. -/
def ScalarLoadStore : Prop :=
  ∀ q st w s s1,
    let a := (sval s1 q st w.f2.toNat + w.low.signExtend 64).toNat
    let f (o : Op) : Flight := { newFlight s1 q st w o with mem := [(a, 8)] }
    let u := consumeLines (advance s1 q st w) q [(a, 8)]
    let free (o : Op) : Prop := a % 8 = 0 ∧ blocked (quire s1 q) (f o) = false
      ∧ (w.ord.toNat < 2 ∨ fenceHolds u q (f o) 3 = true)
    (∀ t bs, Takes s q st (sMem 0 .sw) w s1 → free (sMem 0 .sw) →
      dkRead u (dkOf u q) (.l1 (pOf u q)) a 8 = (t, .ok bs) →
      exec (.sLd q st w) s = .next (settleQuire (wrS (dropFlight t q st (stream s1 q st).nextSeq) q st w.f1.toNat (leNat bs)) q))
    ∧ (∀ t, Takes s q st (sMem 1 .s) w s1 → free (sMem 1 .s) →
      dkWrite u (dkOf u q) (.l1 (pOf u q)) a (leBytes 8 ((stream s1 q st).s w.f1.toNat)) = (t, none) →
      exec (.sSt q st w) s = .next (settleQuire (noteRings (dropFlight t q st (stream s1 q st).nextSeq) q st [(a, 8)]) q))

/-- R158: every scalar arithmetic and logic instruction, register or immediate form, multiplication and division, the wide immediates and
the predicate instructions, writes F1 (s0 and p0 discard it), moves the PC past the instruction and changes nothing else but what the
settling of the quire changes. -/
def ScalarArithmetic : Prop :=
  ScalarRegisterForms ∧ ScalarImmediateForms ∧ ScalarMultiplyDivide ∧ ScalarImmediatesAndPredicates

/-- R158: the scalar instructions: branches and jumps, loads and stores, arithmetic and logic, immediates and predicates. -/
def Obligations.ScalarInstructions : Prop := ScalarBranches ∧ ScalarLoadStore ∧ ScalarArithmetic

/-! ### Vector and modular instructions (R105–R120, R154, R159) -/

/-- The pipes of mask `m` of quire `q` are free and nothing waits for them, no register cell is upset and no injection is armed. -/
abbrev PipesFree (s : State) (q m : Nat) : Prop :=
  (quire s q).pipeBusy &&& m = 0 ∧ pipeWaits (quire s q) m = [] ∧ (quire s q).upsets = []
    ∧ fget s .qreBtrInj 8 8 (pOf s q) = 0

/-- Element `e` of the guard of `w`. -/
def guardBit (s : State) (q st : Nat) (w : IWord) (e : Nat) : Bool := ((stream s q st).p w.pg.toNat).getLsbD e

/-- Lane `e` of width `k` of vector register `r`. -/
def vlane (s : State) (q st k r e : Nat) : Nat := lane k ((stream s q st).v r) e

/-- Lane `e` of operand F3: a vector register, or under BS the low bits of a scalar in every lane (R159). -/
def blane (s : State) (q st k : Nat) (w : IWord) (e : Nat) : Nat :=
  if optF w 16 16 = 1 then (stream s q st).s (f3Of w) % 2 ^ k else vlane s q st k (f3Of w) e

/-- The state after an instruction past which the stream has moved, which has left the issue window and has written `r` to F1. -/
def wrote (s1 : State) (q st : Nat) (w : IWord) (r : VReg) : State :=
  settleQuire (wrV (dropFlight (advance s1 q st w) q st (stream s1 q st).nextSeq) q st w.f1.toNat r) q

/-- `exec` of the command writes F1 so that the elements of width `k` that the guard computes take `g e` and the others keep their
value, and does nothing else. -/
def WritesLanes (i : Instr) (s s1 : State) (q st : Nat) (w : IWord) (k : Nat) (g : Nat → Nat) : Prop :=
  ∃ r : VReg, exec i s = .next (wrote s1 q st w r)
    ∧ ∀ e, e < 16384 / k → lane k r e = if guardBit s1 q st w e then g e % 2 ^ k else vlane s1 q st k w.f1.toNat e

/-- V.INT: constructor, minor opcode, lane operation. -/
def vectorIntOps : List ((Nat → Nat → IWord → Instr) × Nat × (Word32 → Word32 → Word32)) :=
  [(.vIadd, 0, (· + ·)), (.vIsub, 1, (· - ·)), (.vImul, 2, (· * ·)), (.vShl, 3, fun a b => a <<< (b.toNat % 32)),
   (.vShr, 4, fun a b => a >>> (b.toNat % 32)), (.vSra, 5, fun a b => a.sshiftRight (b.toNat % 32)), (.vAnd, 6, (· &&& ·)),
   (.vOr, 7, (· ||| ·)), (.vXor, 8, (· ^^^ ·)), (.vImin, 9, fun a b => if b.slt a then b else a),
   (.vImax, 10, fun a b => if a.slt b then b else a)]

/-- R109, R147, R159: an integer vector instruction that starts at once computes each of the 512 lanes its guard selects from F2 and F3
and leaves the other lanes. -/
def Obligations.VectorIntegerLanes : Prop :=
  ∀ c sub g, (c, sub, g) ∈ vectorIntOps → ∀ q st w s s1, Takes s q st (vInt sub w) w s1 → PipesFree (advance s1 q st w) q 1 →
    WritesLanes (c q st w) s s1 q st w 32
      (fun e => (g (BitVec.ofNat 32 (vlane s1 q st 32 w.f2.toNat e)) (BitVec.ofNat 32 (blane s1 q st 32 w e))).toNat)

/-- The element format EF names: BF16 or FP32. -/
def efOf (w : IWord) : Fmt := if optF w 22 22 = 1 then bf16 else fp32

/-- V.FP with two sources: constructor, minor opcode, exact operation. -/
def vectorFpOps : List ((Nat → Nat → IWord → Instr) × Nat × (FVal → FVal → FVal)) :=
  [(.vAdd, 0, addF), (.vSub, 1, fun a b => addF a (negF b)), (.vMul, 2, mulF), (.vMin, 4, minF), (.vMax, 5, maxF)]

/-- The functions of Table 04.3 by constructor and minor opcode. -/
def vectorTrnOps : List ((Nat → Nat → IWord → Instr) × Nat × (Fmt → FVal → Nat)) :=
  [(.vExp2, 0, exp2F), (.vLog2, 1, log2F), (.vRcp, 2, rcpF), (.vRsqrt, 3, rsqrtF), (.vSqrt, 4, sqrtF), (.vTanh, 5, tanhF)]

/-- R106, R107: a floating-point vector instruction rounds each exact result once, to nearest even; V.FMA rounds F2 × F3 + F4 once. -/
def VectorFloatLanes : Prop :=
  ∀ q st w s s1, PipesFree (advance s1 q st w) q 1 →
    let F := efOf w
    let k := fmtWidth F
    let a (e : Nat) : FVal := decodeF F (vlane s1 q st k w.f2.toNat e)
    let b (e : Nat) : FVal := decodeF F (blane s1 q st k w e)
    (∀ c sub h, (c, sub, h) ∈ vectorFpOps → Takes s q st (vFp sub w) w s1 →
      WritesLanes (c q st w) s s1 q st w k (fun e => encodeF F .rne (h (a e) (b e))))
    ∧ (Takes s q st { vFp 3 w with f4 := .v } w s1 →
      WritesLanes (.vFma q st w) s s1 q st w k
        (fun e => encodeF F .rne (addF (mulF (a e) (b e)) (decodeF F (vlane s1 q st k (f4Of w) e)))))

/-- R110: the transcendental instructions compute their function of each element the guard selects. -/
def VectorTranscendentals : Prop :=
  ∀ c sub h, (c, sub, h) ∈ vectorTrnOps → ∀ q st w s s1, Takes s q st (vTrn sub) w s1 → PipesFree (advance s1 q st w) q 4 →
    let F := efOf w
    ∃ r : VReg, exec (c q st w) s = .next (settleQuire (wrV (dropFlight
          (setQuire (advance s1 q st w) q { quire (advance s1 q st w) q with pipeBusy := (quire (advance s1 q st w) q).pipeBusy ||| 4 })
          q st (stream s1 q st).nextSeq) q st w.f1.toNat r) q)
      ∧ ∀ e, e < 16384 / fmtWidth F → lane (fmtWidth F) r e
          = if guardBit s1 q st w e then h F (decodeF F (vlane s1 q st (fmtWidth F) w.f2.toNat e)) % 2 ^ fmtWidth F
            else vlane s1 q st (fmtWidth F) w.f1.toNat e

/-- V.CMP, V.CVT, V.PERM and V.BITREV (R107, R108, R120): the predicate of a relation, the 512 converted elements, the elements
picked by an index register or by reversing the low G bits of the element number. -/
def VectorCompareConvertPermute : Prop :=
  ∀ q st w s s1,
    let F := efOf w
    let k := fmtWidth F
    let p := if optF w 22 22 = 1 then 64 else 32
    let n := (stream s1 q st).nextSeq
    (Takes s q st { vFp 6 w with f1 := .pw, opt := maskOf 22 19 + maskOf 16 16, codes := decide (optF w 21 19 < 6) } w s1 →
      PipesFree (advance s1 q st w) q 1 →
      ∃ r : Pred, exec (.vCmp q st w) s = .next (settleQuire (wrP (dropFlight (advance s1 q st w) q st n) q st w.f1.toNat r) q)
        ∧ ∀ e, e < 1024 → r.getLsbD e = if e < 16384 / k && guardBit s1 q st w e
            then relF (optF w 21 19) (decodeF F (vlane s1 q st k w.f2.toNat e)) (decodeF F (blane s1 q st k w e))
            else ((stream s1 q st).p w.f1.toNat).getLsbD e)
    ∧ (Takes s q st { maj := 8, sub := 7, f1 := .vw, f2 := .v, opt := maskOf 21 17, masks := true,
                      codes := optF w 21 20 != 3 && optF w 19 18 != 3 } w s1 → PipesFree (advance s1 q st w) q 1 →
      let src := optF w 21 20
      let kd := if optF w 19 18 = 1 then 16 else 32
      ∃ r : VReg, exec (.vCvt q st w) s = .next (wrote s1 q st w r)
        ∧ ∀ e, e < 16384 / kd → lane kd r e = if e < 512 && guardBit s1 q st w e
            then cvtOne src (optF w 19 18) (optF w 17 17) (vlane s1 q st (if src = 1 then 16 else 32) w.f2.toNat e) % 2 ^ kd
            else vlane s1 q st kd w.f1.toNat e)
    ∧ (Takes s q st { maj := 0x0B, sub := 0, f1 := .vw, f2 := .v, f3 := .v, opt := maskOf 22 22, masks := true } w s1 →
      PipesFree (advance s1 q st w) q 8 →
      ∃ r : VReg, exec (.vPerm q st w) s = .next (settleQuire (wrV (dropFlight
            (setQuire (advance s1 q st w) q { quire (advance s1 q st w) q with pipeBusy := (quire (advance s1 q st w) q).pipeBusy ||| 8 })
            q st n) q st w.f1.toNat r) q)
        ∧ ∀ e, e < 16384 / p → lane p r e = if guardBit s1 q st w e
            then vlane s1 q st p w.f2.toNat (vlane s1 q st p (f3Of w) e % (16384 / p)) else vlane s1 q st p w.f1.toNat e)
    ∧ (Takes s q st { maj := 0x0B, sub := 1, f1 := .vw, f2 := .v, opt := maskOf 22 18, masks := true,
                      codes := decide (1 ≤ optF w 21 18) && decide (optF w 21 18 ≤ 9 - optF w 22 22) } w s1 →
      PipesFree (advance s1 q st w) q 8 →
      let G := optF w 21 18
      WritesLanes (.vBitrev q st w) s s1 q st w p
        (fun e => vlane s1 q st p w.f2.toNat ((e / 2 ^ G * 2 ^ G + reverseBits G (e % 2 ^ G)) % (16384 / p))))

/-- R111–R113: a reduction of the elements the guard selects, of COUNT registers or of each segment of 2^SEG elements of one, is
written to every element; an exact sum is rounded once, an empty maximum is −Inf and an empty minimum +Inf. -/
def VectorReductions : Prop :=
  ∀ c sub, (c, sub) ∈ ([(.vRsum, 8), (.vRmax, 9), (.vRmin, 10)] : List ((Nat → Nat → IWord → Instr) × Nat)) →
    ∀ q st w s s1, Takes s q st (vRed sub w) w s1 → PipesFree (advance s1 q st w) q 4 →
    let F := efOf w
    let k := fmtWidth F
    let seg := optF w 19 16
    let on (es : List Nat) (r : Nat) : List FVal :=
      (es.filter (guardBit s1 q st w)).map (fun e => decodeF F (vlane s1 q st k r e))
    ∃ r : VReg, exec (c q st w) s = .next (settleQuire (wrV (dropFlight
          (setQuire (advance s1 q st w) q { quire (advance s1 q st w) q with pipeBusy := (quire (advance s1 q st w) q).pipeBusy ||| 4 })
          q st (stream s1 q st).nextSeq) q st w.f1.toNat r) q)
      ∧ ∀ e, e < 16384 / k → lane k r e =
          reduceF sub F (
            if seg = 0 then (List.range (2 ^ optF w 21 20)).flatMap (fun j => on (List.range (16384 / k)) (w.f2.toNat + j))
            else on ((List.range (2 ^ seg)).map (fun i => e / 2 ^ seg * 2 ^ seg + i)) w.f2.toNat) % 2 ^ k

/-- R25, R150: V.LD reads the 2,048-byte row that F2 addresses, which holds no poison; V.ST writes it. -/
def Obligations.VectorLoadStore : Prop :=
  ∀ q st w s s1,
    let a := (stream s1 q st).s w.f2.toNat
    let u := advance s1 q st w
    let ld : Op := { maj := 0x0C, sub := 0, f1 := .vw, f2 := .s, masks := true, effect := true }
    let sto : Op := { maj := 0x0C, sub := 1, f1 := .v, f2 := .s, masks := true, effect := true }
    a % 2048 = 0 → a < spadSize → (quire u q).upsets = [] →
    (Takes s q st ld w s1 → blocked (quire s1 q) { newFlight s1 q st w ld with spRd := [(a, 2048)] } = false → spadBad s1 q a 2048 = false →
      ∃ r : VReg, exec (.vLd q st w) s = .next (settleQuire (wrV u q st w.f1.toNat r) q)
        ∧ ∀ e, e < 512 → lane 32 r e = if guardBit s1 q st w e then leNat (spadBytes s1 q (a + 4 * e) 4) else vlane s1 q st 32 w.f1.toNat e)
    ∧ (Takes s q st sto w s1 → blocked (quire s1 q) { newFlight s1 q st w sto with spWr := [(a, 2048)] } = false →
      ((stream s1 q st).p w.pg.toNat) = BitVec.allOnes 1024 →
      exec (.vSt q st w) s = .next (settleQuire (spadWrite u q a (leBytes 2048 ((stream s1 q st).v w.f1.toNat).toNat)) q))

/-- M. element instructions: constructor, minor opcode, whether F3 and an addend are read. -/
def modularOps : List ((Nat → Nat → IWord → Instr) × Nat × Bool × Bool) :=
  [(.mAdd, 0, true, false), (.mSub, 1, true, false), (.mNeg, 2, false, false), (.mMuls, 3, true, true), (.mMulg, 4, true, true),
   (.mTomont, 5, false, false), (.mFrommont, 6, false, false)]

/-- The stream's modulus slot that `w` names. -/
def slotNamed (s : State) (q st : Nat) (w : IWord) : ModSlot := tget {} (stream s q st).mslots (optF w 22 20)

/-- R114–R118: an element whose inputs lie below the modulus of a slot that is not INVALID takes the operation's residue; any other
element that the guard computes takes all ones, and QRE_BTR_STS records it (R116). -/
def ModularLanes : Prop :=
  ∀ c sub two add, (c, sub, two, add) ∈ modularOps → ∀ q st w s s1,
    let o := mOp sub w two two add
    let m := slotNamed s1 q st w
    Takes s q st o w s1 → PipesFree (advance s1 q st w) q 2 → slotBusy (quire s1 q) (newFlight s1 q st w o) = false →
    m.kind ≠ .invalid → (sub = 3 → m.kind = .shift) →
    let b (e : Nat) : Nat := if !two then 0 else if optF w 19 19 = 1 then (stream s1 q st).s (f3Of w) else vlane s1 q st 64 (f3Of w) e
    let z (e : Nat) : Nat := if add && decide (f4Of w < 32) then vlane s1 q st 64 (f4Of w) e else 0
    let a (e : Nat) : Nat := vlane s1 q st 64 w.f2.toNat e
    ∃ t, exec (c q st w) s = .next (settleQuire t q)
      ∧ ∀ e, e < 256 → vlane t q st 64 w.f1.toNat e = if guardBit s1 q st w e
          then (if a e < m.q ∧ b e < m.q ∧ z e < m.q then modLane m sub (a e) (b e) (z e) % 2 ^ 64 else 2 ^ 64 - 1)
          else vlane s1 q st 64 w.f1.toNat e

/-- R119: M.BFLY with j below 8 pairs elements i and i + 2^j of F2 with the twiddle at i; with j = 8 it pairs F2 with F3 and writes both. -/
def Obligations.ModularButterfly : Prop :=
  ∀ q st w s s1,
    let m := slotNamed s1 q st w
    let j := optF w 19 16
    let gs := optF w 15 15 == 1
    let a (e : Nat) : Nat := vlane s1 q st 64 w.f2.toNat e
    let b (e : Nat) : Nat := vlane s1 q st 64 (f3Of w) e
    let tw (e : Nat) : Nat := vlane s1 q st 64 (f4Of w) e
    Takes s q st (mBflyOp w) w s1 → PipesFree (advance s1 q st w) q 10 → slotBusy (quire s1 q) (newFlight s1 q st w (mBflyOp w)) = false →
    m.kind ≠ .invalid →
    ∃ t, exec (.mBfly q st w) s = .next (settleQuire t q)
      ∧ (j < 8 → ∀ e, e < 256 → vlane t q st 64 w.f1.toNat e =
          if !guardBit s1 q st w e then vlane s1 q st 64 w.f1.toNat e
          else if !e.testBit j then (bflyPair m gs (a e) (a (e + 2 ^ j)) (tw e)).1 % 2 ^ 64
          else (bflyPair m gs (a (e - 2 ^ j)) (a e) (tw (e - 2 ^ j))).2 % 2 ^ 64)
      ∧ (j = 8 → w.f2.toNat ≠ f3Of w → ∀ e, e < 256 →
          vlane t q st 64 w.f2.toNat e = (if guardBit s1 q st w e then (bflyPair m gs (a e) (b e) (tw e)).1 % 2 ^ 64 else a e)
          ∧ vlane t q st 64 (f3Of w) e = (if guardBit s1 q st w e then (bflyPair m gs (a e) (b e) (tw e)).2 % 2 ^ 64 else b e))

/-- R114: M.SETQ of an odd value between 3 and 2⁶⁰ makes the slot of that modulus. -/
def SetModulus : Prop :=
  ∀ q st w s s1,
    let o : Op := { maj := 0x10, sub := 8, f1 := .s, opt := maskOf 22 20 }
    let v := (stream s1 q st).s w.f1.toNat
    Takes s q st o w s1 → PipesFree (advance s1 q st w) q 2 → slotBusy (quire s1 q) (newFlight s1 q st w o) = false →
    v % 2 = 1 → 3 ≤ v → v < 2 ^ 60 →
    ∃ t, exec (.mSetq q st w) s = .next (settleQuire t q) ∧ slotNamed t q st w = makeSlot v ∧ (makeSlot v).q = v
      ∧ (stream t q st).vregs = (stream s1 q st).vregs ∧ (stream t q st).sregs = (stream s1 q st).sregs

/-- R117, R118: for an odd modulus q below 2⁶⁰ and operands below q, the Montgomery product plus addend lies below q and is congruent
to (xy + 2⁶⁴z)·2⁻⁶⁴ modulo q, and the SHIFT reduction of a modulus 2ᵃ − 2ᵇ + 1 gives the same result as the GENERAL one. -/
def MontgomeryReduction : Prop :=
  (∀ q x y z, q % 2 = 1 → 3 ≤ q → q < 2 ^ 60 → x < q → y < q → z < q →
    montGeneral q (qinvOf q) x y z < q ∧ montGeneral q (qinvOf q) x y z * 2 ^ 64 % q = (x * y + z * 2 ^ 64) % q)
  ∧ (∀ a b x y z, 30 ≤ a → a ≤ 60 → 17 ≤ b → b < a →
    let q := 2 ^ a - 2 ^ b + 1
    x < q → y < q → z < q → montShift q a b x y z = montGeneral q (qinvOf q) x y z)

/-- R105: PIPE_START ends a pipe's occupancy and starts the oldest head of a queue that holds work for it whose every pipe is free; where
no queue holds work for it, the occupancy alone ends. -/
def PipeStart : Prop :=
  ∀ q pipe s, s.boot.ready = true → s.fe = false → q < 64 → pipe < 4 →
    let x := quire s q
    let s1 := setQuire s q { x with pipeBusy := x.pipeBusy - (x.pipeBusy &&& 2 ^ pipe) }
    (∀ f, (pipeHeads x pipe).find? (fun g => (quire s1 q).pipeBusy &&& partPipes g.part == 0) = some f →
      exec (.pipeStart q pipe {}) s = .next (settleQuire (pipeRun q {} (occupy s1 q f) f) q))
    ∧ (pipeHeads x pipe = [] → exec (.pipeStart q pipe {}) s = .next s1)

/-- R114–R118: M.SETQ makes a slot of its modulus, and the modular operations on a slot give residues lane by lane. -/
def Obligations.ModulusSlotsAndLanes : Prop := SetModulus ∧ ModularLanes

/-- R107–R112, R159: comparisons write predicate bits, conversions and permutes write lanes, and reductions write their results. -/
def Obligations.VectorComparesPermutesReductions : Prop := VectorCompareConvertPermute ∧ VectorReductions

/-- R106, R107, R110: the floating-point lanes and the transcendental lanes round the exact value once. -/
def Obligations.VectorRealLanes : Prop := VectorFloatLanes ∧ VectorTranscendentals

/-! ### Tiles (R64–R97, R153) -/

/-- The number of `n` bytes of a scratchpad, least significant byte first. -/
def spadNum (s : State) (q a n : Nat) : Nat := leNat (spadBytes s q a n)

/-- Handle `h` of quire `q` names the open tile `t`, which stream `st` owns and whose release has not been issued. -/
abbrev OwnTile (s : State) (q st h : Nat) (t : Tile) : Prop :=
  tfind (quire s q).handles h = some ⟨t.sheet, t.slot, t.fmt, t.shape⟩ ∧ tileAt (quire s q) t.key = some t
    ∧ t.releasing = false ∧ t.owner = st ∧ t.elems.length = elemsOf t.shape

/-- Nothing is in flight on the tile named `k`, nor on its sheet. -/
abbrev SheetFree (s : State) (q : Nat) (k : TileKey) : Prop :=
  ∀ f ∈ (quire s q).flights, f.tile ≠ some k ∧ f.part ≠ .sheet k.1

/-- A scratchpad operand of `n` bytes at `a` on a 64-byte boundary passes its issue check (R45, R150). -/
abbrev SpadOperand (a n : Nat) : Prop := a % 64 = 0 ∧ a < spadSize ∧ a + n ≤ spadSize

/-- R64, R65, R69, R71, R73, R74: T.ZERO and T.PRELOAD that find their frames free, or held by their own tile, write the handle F1 and
open the tile: all zero with TERMS 0, or holding the converted source with TERMS 1. -/
def Obligations.TileOpening : Prop :=
  ∀ q st w s s1,
    let o := openingOf w
    let x := quire s1 q
    let a := (stream s1 q st).s w.f2.toNat
    let n := colsOf o.shape
    let m := rowsOf o.shape
    let wd := calWidth o.sfmt / 8
    openingCheck x o st = (0, []) → SheetFree s1 q o.key → x.flights.any acquiring = false →
    (Takes s q st (openOp 0 w) w s1 →
      ∃ u, exec (.tZero q st w) s = .next (settleQuire u q)
        ∧ tileAt (quire u q) o.key = some (openTile o st 0 (List.replicate (elemsOf o.shape) 0))
        ∧ tfind (quire u q).handles w.f1.toNat = some ⟨o.key.1, o.key.2.1, o.key.2.2, o.shape⟩)
    ∧ (Takes s q st (openOp 1 w) w s1 → o.sfmt < 8 → ¬ (o.key.2.2 = 2 ∧ o.sfmt < 4) → SpadOperand a (preloadBytes o) →
      blocked x { newFlight s1 q st w (openOp 1 w) with spRd := [(a, preloadBytes o)] } = false →
      x.upsets = [] → spadBad s1 q a (preloadBytes o) = false →
      ∃ u t, exec (.tPreload q st w) s = .next (settleQuire u q) ∧ tileAt (quire u q) o.key = some t
        ∧ tfind (quire u q).handles w.f1.toNat = some ⟨o.key.1, o.key.2.1, o.key.2.2, o.shape⟩
        ∧ t.owner = st ∧ t.shape = o.shape ∧ t.shared = o.shared ∧ t.terms = 1 ∧ t.res = resSum t.elems
        ∧ ∀ i j, i < m → j < n →
            let at_ := if o.mode = 0 then i else if o.mode = 1 then j else if o.transpose then j * m + i else i * n + j
            t.elems.getD (i * n + j) 0 = (preloadOne o.key.2.2 o.sfmt (spadNum s1 q (a + at_ * wd) wd)).1)

/-- R75, R87, R88, R91: T.DRAIN without stochastic rounding writes each element through the Calender, or the raw image (Table 03.5),
puts the header in F3, and keeps, clears or releases its tile. -/
def TileDrain : Prop :=
  ∀ q st w s s1 t,
    let o : Op := { maj := 0x14, sub := 4, f1 := .t, f2 := .s, f3 := .sw, opt := maskOf 22 6, codes := decide (optF w 22 19 ≤ 8)
                    effect := true, gates := (if optF w 22 19 = 8 then [8] else []) ++ (if optF w 18 18 = 1 then [9] else []) }
    let a := (stream s1 q st).s w.f2.toNat
    let c := optF w 22 19
    let n := colsOf t.shape
    let m := rowsOf t.shape
    let wd := calWidth c / 8
    let len := if c = 8 then 64 + elemsOf t.shape * (vatBits t.fmt / 8) else elemsOf t.shape * wd
    Takes s q st o w s1 → optF w 18 18 = 0 → OwnTile s1 q st w.f1.toNat t → SheetFree s1 q t.key → (quire s1 q).upsets = [] → (quire s1 q).strikes = [] →
    resSum t.elems = t.res → SpadOperand a len →
    blocked (quire s1 q) { newFlight s1 q st w o with spWr := [(a, len)] } = false →
    ∃ u, exec (.tDrain q st w) s = .next (settleQuire u q)
      ∧ (c < 8 → ∀ i j, i < m → j < n →
          spadNum u q (a + (if optF w 8 8 = 1 then j * m + i else i * n + j) * wd) wd
            = calOut (tileState t) c .rne (optF w 17 17 == 1) (vatL t.fmt) (signed 8 (optF w 16 9)) (t.elems.getD (i * n + j) 0) % 2 ^ (8 * wd))
      ∧ (c = 8 → spadNum u q a 8 = headerOf t % 2 ^ 64 ∧ (∀ b, b < 56 → spadNum u q (a + 8 + b) 1 = 0)
          ∧ ∀ e, e < elemsOf t.shape →
            spadNum u q (a + 64 + e * (vatBits t.fmt / 8)) (vatBits t.fmt / 8) = wrapTo (vatBits t.fmt) (t.elems.getD e 0))
      ∧ (f3Of w ≠ 0 → sval u q st (f3Of w) = BitVec.ofNat 64 (headerOf t))
      ∧ tileAt (quire u q) t.key = (if optF w 6 6 = 1 then none else if optF w 7 7 = 1 then some (clearTile t) else some t)
      ∧ ∀ b, (b < a ∨ a + len ≤ b) → spadNum u q b 1 = spadNum s1 q b 1

/-- R94, R95: T.RMAX and T.RMIN without stochastic rounding choose K different winners of each line, each the best of those left and
of equals the one of the lowest index, and write each winner's converted value and its index plus the base. -/
def TileReductions : Prop :=
  ∀ c sub, (c, sub) ∈ ([(.tRmax, 5), (.tRmin, 6)] : List ((Nat → Nat → IWord → Instr) × Nat)) → ∀ q st w s s1 t,
    let a := (stream s1 q st).s w.f2.toNat
    let b := (stream s1 q st).s (f3Of w)
    let base := (stream s1 q st).s (f4Of w)
    let fm := optF w 22 19
    let wd := calWidth fm / 8
    let col := optF w 8 8 == 1
    let n := colsOf t.shape
    let lines := if col then n else rowsOf t.shape
    let len := if col then rowsOf t.shape else n
    let K := optF w 7 5 + 1
    let key (l x : Nat) : Int := if tileState t = .finite then t.elems.getD (if col then x * n + l else l * n + x) 0 else 0
    let better (v y : Int) : Prop := if sub = 5 then y < v else v < y
    Takes s q st (redOp sub w) w s1 → optF w 18 18 = 0 → OwnTile s1 q st w.f1.toNat t → SheetFree s1 q t.key →
    (quire s1 q).upsets = [] → (quire s1 q).strikes = [] → resSum t.elems = t.res →
    SpadOperand a (lines * K * wd) → SpadOperand b (2 * (lines * K)) → overlaps (a, lines * K * wd) (b, 2 * (lines * K)) = false →
    blocked (quire s1 q) { newFlight s1 q st w (redOp sub w) with spWr := [(a, lines * K * wd), (b, 2 * (lines * K))] } = false →
    ∃ u, ∃ ix : Nat → Nat → Nat, exec (c q st w) s = .next (settleQuire u q)
      ∧ (f4Of w ≠ 0 → sval u q st (f4Of w) = BitVec.ofNat 64 (headerOf t))
      ∧ tileAt (quire u q) t.key = some t
      ∧ ∀ l k, l < lines → k < K →
          ix l k < len ∧ (∀ j, j < k → ix l j ≠ ix l k)
          ∧ (∀ x, x < len → (∀ j, j < k → ix l j ≠ x) → better (key l (ix l k)) (key l x) ∨ (key l x = key l (ix l k) ∧ ix l k ≤ x))
          ∧ spadNum u q (b + 2 * (l * K + k)) 2 = (ix l k + base) % 65536
          ∧ spadNum u q (a + (l * K + k) * wd) wd
              = calOut (tileState t) fm .rne (optF w 17 17 == 1) (vatL t.fmt) (signed 8 (optF w 16 9)) (key l (ix l k)) % 2 ^ (8 * wd)

/-- Element `i` of a panel of format `c` that starts at scratchpad address `a` and holds `n` elements (R43). -/
def panelElem (s : State) (q a c n i : Nat) : Elem := elemOf c (spadNum s q a (n * elWidth c / 8) / 2 ^ (elWidth c * i) % 2 ^ elWidth c)

/-- R39–R46, R49, R53, R67, R77, R79, R601: T.MMA of a permitted pair and depth issues into its sheet's queue with its panels reserved;
PASS on a sheet takes the next depth of the T.MMA in turn and adds to every element, in one exact addition, the sum of the products
of its finite operands; T.MERGE adds an image's elements, terms and flags. -/
def Obligations.TileAccumulate : Prop :=
  (∀ q st w s s1 t,
    let fa := optF w 22 19
    let fb := optF w 18 15
    let mx := elGroup fa == 4
    let o : Op := { maj := 0x14, sub := 2, f1 := .t, f2 := .s, f3 := .s, f4 := .s, opt := maskOf 22 15, effect := true
                    long := elGroup fa == 4 && elGroup fb == 4 && decide (fa < 10) && decide (fb < 10)
                    codes := decide (fa < 10) && decide (fb < 10)
                    gates := (if (7 ≤ fa && fa < 10) || (7 ≤ fb && fb < 10) then [0] else [])
                      ++ (if elGroup fa = 2 || elGroup fb = 2 then [1] else []) }
    let f := newFlight s1 q st w o
    let K := (stream s1 q st).s (f4Of w)
    Takes s q st o w s1 → elGroup fa = elGroup fb → passDepth (elGroup fa) ≤ K → K ≤ 65536 → K % passDepth (elGroup fa) = 0 →
    OwnTile s1 q st w.f1.toNat t → vatAccepts (elGroup fa) t.fmt = true → SheetFree s1 q t.key →
    (∀ r ∈ mmaPanels f t.shape, SpadOperand r.1 r.2) →
    exec (.tMma q st w) s = .next (settleQuire (putFlight (advance s1 q st w) q
      { f with part := .sheet t.sheet, tile := some t.key, spRd := mmaPanels f t.shape, phase := .mma 0 }) q)
      ∧ (mmaPanels f t.shape).take 2 = [((stream s1 q st).s w.f2.toNat, K * rowsOf t.shape * elWidth fa / 8),
          ((stream s1 q st).s (f3Of w), K * colsOf t.shape * elWidth fb / 8)]
      ∧ (mmaPanels f t.shape).length = if mx then 4 else 2)
  ∧ (∀ q sheet s f p t,
    let x := quire s q
    let fa := optF f.w 22 19
    let fb := optF f.w 18 15
    let d := passDepth (elGroup fa)
    let n := colsOf t.shape
    let m := rowsOf t.shape
    let la := d * m * elWidth fa / 8
    let lb := d * n * elWidth fb / 8
    s.boot.ready = true → s.fe = false → q < 64 → sheet < 32 → nextMma x sheet = some (f, p) → f.tile = some t.key →
    tileAt x t.key = some t → t.sheet = sheet → t.shape < 3 → t.elems.length = elemsOf t.shape → elGroup fa = elGroup fb → elGroup fa ≠ 4 →
    (∀ g ∈ x.flights, g.tile = some t.key → g.sub ≠ 3) → x.upsets = [] → fget s .qreShtInj 8 8 (pOf s q) = 0 →
    spadBad s q (f.val 1 + p * la) la = false → spadBad s q (f.val 2 + p * lb) lb = false →
    ∀ av bv : Nat → Int,
    (∀ i, i < d * m → panelElem s q (f.val 1 + p * la) fa (d * m) i = .fin (av i)) →
    (∀ i, i < d * n → panelElem s q (f.val 2 + p * lb) fb (d * n) i = .fin (bv i)) →
    ∃ u t', exec (.pass q sheet {}) s = .next (settleQuire u q) ∧ tileAt (quire u q) t.key = some t'
      ∧ t'.terms = min (t.terms + d) 0xFFFFFFFF ∧ (t'.nan = t.nan)
      ∧ (∀ i j, i < m → j < n → t'.elems.getD (i * n + j) 0 = (addElem t.fmt (t.elems.getD (i * n + j) 0)
          (((List.range d).map (fun k => av (k * m + i) * bv (k * n + j) * ((2 ^ (vatL t.fmt - fracShift fa - fracShift fb) : Nat) : Int))).sum)).1)
      ∧ (quire u q).spad = x.spad)
  ∧ (∀ q st w s s1 t,
    let o : Op := { maj := 0x14, sub := 3, f1 := .t, f2 := .s, gates := [8], effect := true }
    let a := (stream s1 q st).s w.f2.toNat
    let wd := vatBits t.fmt / 8
    let len := 64 + elemsOf t.shape * wd
    let h := spadNum s1 q a 8
    let img (e : Nat) : Int := signed (vatBits t.fmt) (spadNum s1 q (a + 64 + e * wd) wd)
    Takes s q st o w s1 → OwnTile s1 q st w.f1.toNat t → SheetFree s1 q t.key → (quire s1 q).upsets = [] → SpadOperand a len →
    spadBad s1 q a len = false → blocked (quire s1 q) { newFlight s1 q st w o with spRd := [(a, len)] } = false →
    bits h 45 44 = t.fmt → bits h 47 46 = t.shape → res127 ((List.range (elemsOf t.shape)).map img).sum = bits h 54 48 →
    ∃ u t', exec (.tMerge q st w) s = .next (settleQuire u q) ∧ tileAt (quire u q) t.key = some t'
      ∧ (∀ e, e < elemsOf t.shape → t'.elems.getD e 0 = (addElem t.fmt (t.elems.getD e 0) (img e)).1)
      ∧ t'.terms = min (t.terms + bits h 31 0) 0xFFFFFFFF ∧ (bit h 35 = true → t'.nan = true) ∧ (bit h 33 = true → t'.ovfPos = true)
      ∧ (bit h 34 = true → t'.ovfNeg = true) ∧ (bit h 36 = true → t'.inexact = true) ∧ (bit h 32 = true → t'.bound = true))

/-- R84: ORDERING_OPERATION_START starts the ordering operation that has come to the head of its tile's operations: a T.ZERO that waited
opens its tile all zero and leaves the window; where nothing is in flight on the tile nothing changes. -/
def OrderingOperationStart : Prop :=
  ∀ q sheet slot fmt s, s.boot.ready = true → s.fe = false → q < 64 →
    let x := quire s q
    let k : TileKey := (sheet, slot, fmt)
    (∀ f, (onTile x k).head? = some f → f.maj = 0x14 → f.sub = 0 → f.phase = .queued → blocked x f = false → (openingOf f.w).key = k →
      (∀ g ∈ x.flights, g.tile = some k → g.sub ≠ 3) →
      ∃ u, exec (.orderingOperationStart q sheet slot fmt) s = .next (settleQuire u q)
        ∧ tileAt (quire u q) k = some (openTile (openingOf f.w) f.stream 0 (List.replicate (elemsOf (openingOf f.w).shape) 0))
        ∧ (quire u q).flights = x.flights.filter (fun g => !(g.stream == f.stream && g.seq == f.seq)))
    ∧ (onTile x k = [] → exec (.orderingOperationStart q sheet slot fmt) s = .next s)

/-- R105, R84: a pipe that becomes free starts the oldest instruction that waits for it, and an ordering operation at the head of its
tile starts. -/
def Obligations.PipeAndOrderingStarts : Prop := PipeStart ∧ OrderingOperationStart

/-- R75, R87, R88, R91, R94, R95: T.DRAIN, T.RMAX and T.RMIN write what a tile holds. -/
def Obligations.TileDrainAndReductions : Prop := TileDrain ∧ TileReductions

/-! ### Polynomial engine (R231–R276, R155) -/

/-- R237–R239: over an odd modulus below 2⁶⁰, with a table that R238 describes, the forward transform writes at k the sum of
aᵢ ψ^(i(2 brv(k) + 1)) modulo q, and the inverse transform returns the input. -/
def NegacyclicTransform : Prop :=
  ∀ q n psi (tf a : List Nat), q % 2 = 1 → 3 ≤ q → q < 2 ^ 60 → n ≤ 17 → psi ^ 2 ^ n % q = q - 1 →
    tf.length = 2 ^ n → a.length = 2 ^ n → (∀ x ∈ a, x < q) → (∀ i, i < 2 ^ n → nth 0 tf i = psi ^ brv n i * 2 ^ 64 % q) →
    (∀ k, k < 2 ^ n → nth 0 (nttRaw q n tf a) k = ((List.range (2 ^ n)).map (fun i => nth 0 a i * psi ^ (i * (2 * brv n k + 1)))).sum % q)
    ∧ ∀ psii ninv (ti : List Nat), psi * psii % q = 1 → 2 ^ n * ninv % q = 1 → ti.length = 2 ^ n →
        nth 0 ti 0 = ninv * 2 ^ 64 % q → (∀ i, 0 < i → i < 2 ^ n → nth 0 ti i = psii ^ brv n i * 2 ^ 64 % q) →
        inttRaw q n ti (nttRaw q n tf a) = a

/-- R117, R118, R237–R239: the Montgomery product is reduced and SHIFT equals GENERAL; the transform is the negacyclic evaluation, and its
inverse returns the input. -/
def Obligations.ModularArithmetic : Prop := MontgomeryReduction ∧ NegacyclicTransform

/-- The words of a scratchpad range. -/
def spadWords (s : State) (q a n : Nat) : List Nat := (List.range n).map (fun i => spadNum s q (a + 8 * i) 8)

/-- R239, R240: P.NTT and P.INTT transform the limb at F2 with the table at F3 under the stream's slot QS and write it at F1; the LOGN
field holds the low four bits, so that 0 and 1 are 16 and 17. -/
def Obligations.PolyRawTransforms : Prop :=
  ∀ c inv, (c, inv) ∈ ([(.pNtt, false), (.pIntt, true)] : List ((Nat → Nat → IWord → Instr) × Bool)) → ∀ q st w s s1,
    let n := if optF w 21 18 < 2 then 16 + optF w 21 18 else optF w 21 18
    let o : Op := { maj := 0x18, sub := b2n inv, f1 := .s, f2 := .s, f3 := .s, opt := maskOf 22 15, effect := true
                    codes := decide (10 ≤ n)
                    gates := 2 :: (if optF w 22 22 = 1 then [11] else []) }
    let dst := (stream s1 q st).s w.f1.toNat
    let src := (stream s1 q st).s w.f2.toNat
    let tab := (stream s1 q st).s (f3Of w)
    let m := tget {} (stream s1 q st).mslots (optF w 17 15)
    let out := (if inv then inttRaw else nttRaw) m.q n (spadWords s1 q tab (2 ^ n)) (spadWords s1 q src (2 ^ n))
    Takes s q st o w s1 → (quire s1 q).flights = [] → (quire s1 q).upsets = [] → (quire s1 q).strikes = [] → m.kind ≠ .invalid →
    SpadOperand dst (8 * 2 ^ n) → SpadOperand src (8 * 2 ^ n) → SpadOperand tab (8 * 2 ^ n) →
    (dst = src ∨ overlaps (dst, 8 * 2 ^ n) (src, 8 * 2 ^ n) = false) → overlaps (tab, 8 * 2 ^ n) (dst, 8 * 2 ^ n) = false →
    overlaps (tab, 8 * 2 ^ n) (src, 8 * 2 ^ n) = false → spadBad s1 q src (8 * 2 ^ n) = false → spadBad s1 q tab (8 * 2 ^ n) = false →
    exec (c q st w) s = .next (settleQuire
      (noteRange (spadWrite (advance s1 q st w) q dst (out.flatMap (leBytes 8))) q st out) q)

/-- A step of a tagged instruction goes from `u` to `v` and gives `a`. -/
abbrev PolyDoes {α : Type} (m : PM α) (u : State) (a : α) (v : State) : Prop := m.run u = (.ok a, v)

/-- A stream takes a tagged instruction in an idle quire whose gang's engines are free: `u0` is the state past the instruction, `u` the one
in which it acts with the engines taken, and `f` the instruction in flight. -/
def PolyTakes (s : State) (q st : Nat) (o : Op) (w : IWord) (s1 u0 u : State) (f : Flight) (gang : List Nat) : Prop :=
  Takes s q st o w s1 ∧ (quire s1 q).flights = [] ∧ f = (planPoly q s1 (newFlight s1 q st w o)).f
    ∧ u0 = consumeLines (advance s1 q st w) q [(0, 2 ^ 64)] ∧ gangOf u0 q f = gang
    ∧ takeEngines q (workOf u0 q f) f gang u0 = (u, true)

/-- A tagged instruction whose checks have passed, which has read its sources and stands at `v`: where no source's tag has changed and the
destination's is still INVALID with its SERIAL (R246 steps 4 and 5), it writes the words and the tag `tag`, zeroes its work areas, frees
its engines and ends (R245, R246). -/
def PolyEnds (i : Instr) (s u0 u v : State) (q : Nat) (f : Flight) (gang : List Nat) (tag : Tag) (words : List Nat) : Prop :=
  let d := dkOf v q
  let x := noteRange (dkWrite v d .poly (f.val 0 + 64) (words.flatMap (leBytes 8))).1 q f.stream words
  (quire v q).strikes = [] → (∀ a ∈ sourcesOf f, a ≠ f.val 0 → peek x d a 32 = peek u (dkOf u q) a 32) →
  peek x d (f.val 0) 32 = tagBytes { faultTag with serial := tag.serial } →
  exec i s = .next (settleQuire (freeEngines
    (zeroAreas q f (workOf u0 q f) gang (dropFlight (writeTag x d (f.val 0) tag) q f.stream f.seq)) gang) q)

/-- The tag `t` of a header at `a` is that of an object on the current basis `b` that passes orders 1 and 2 of Table 08.4. -/
abbrev PolyTag (u : State) (d a : Nat) (h : List Byte) (b : BasisSlot) : Prop :=
  a % 64 = 0 ∧ tagSound h = true ∧ (readTag h).kind ≠ 5 ∧ basisAt u d (readTag h).basis = some b ∧ (readTag h).logn = b.logn
    ∧ (readTag h).level < b.l ∧ (if (readTag h).kind % 2 = 1 then b.scheme = 0 else b.scheme = 1)

/-- Coefficient word (c, j, k) of an object, in ordinary form (R234, R235). -/
def coeff (b : BasisSlot) (t : Tag) (bs : List Byte) (c j k : Nat) : Nat :=
  toOrd (modAt b j) t.mont (fieldAt bs (64 + 8 * (2 ^ t.logn * ((t.level + 1) * c + j) + k)) 8)

/-- The components of an object up to limb `lvl`. -/
def components (b : BasisSlot) (t : Tag) (bs : List Byte) (lvl : Nat) : List (List (List Nat)) :=
  (List.range (tagComps t)).map (fun c => (List.range (lvl + 1)).map (fun j => (List.range (2 ^ t.logn)).map (coeff b t bs c j)))

/-- The words of a result of `comps` components at level `lvl`, given word by word. -/
def resultWords (b : BasisSlot) (mont : Bool) (comps lvl n : Nat) (g : Nat → Nat → Nat → Nat) : List Nat :=
  (List.range comps).flatMap (fun c => (List.range (lvl + 1)).flatMap (fun j =>
    (List.range n).map (fun k => fromOrd (modAt b j) mont (g c j k))))

/-- The destination stands on its boundary, and is a source or does not meet it. -/
abbrev PolyApart (dst n a m : Nat) : Prop := dst % 64 = 0 ∧ (dst = a ∨ overlaps (dst, n) (a, m) = false)

/-- R248: P.ADD, P.SUB, P.MULP and P.MULC compute limb by limb at the lower level, with the tag fields of Table 08.5. -/
def Obligations.PolyElementwise : Prop :=
  ∀ c sub, (c, sub) ∈ ([(.pAdd, 8), (.pSub, 9), (.pMulp, 10), (.pMulc, 11)] : List ((Nat → Nat → IWord → Instr) × Nat)) →
    ∀ q st w s s1 u0 u u1 u2 u3 u4 v v1 v2 f ha hb A B b serial,
    let d := dkOf u q
    let dst := (stream s1 q st).s w.f1.toNat
    let a := (stream s1 q st).s w.f2.toNat
    let a2 := (stream s1 q st).s (f3Of w)
    let ta := readTag ha
    let tb := readTag hb
    let ct (k : Nat) : Bool := k == 1 || k == 2
    let lvl := min ta.level tb.level
    let n := 2 ^ ta.logn
    let comps := if sub = 11 then 3 else if ta.deg2 || (ct tb.kind && tb.deg2) then 3 else 2
    let size := 64 + 8 * n * comps * (lvl + 1)
    let x (c j k : Nat) : Nat := if c < tagComps ta then coeff b ta A c j k else 0
    let y (c j k : Nat) : Nat := if c < tagComps tb then coeff b tb B c j k else 0
    let g (c j k : Nat) : Nat :=
      let m := modAt b j
      if sub = 8 then addQ m (x c j k) (y c j k) else if sub = 9 then subQ m (x c j k) (y c j k)
      else if sub = 10 then mulQ m (x c j k) (y 0 j k)
      else if c = 0 then mulQ m (x 0 j k) (y 0 j k)
      else if c = 1 then addQ m (mulQ m (x 0 j k) (y 1 j k)) (mulQ m (x 1 j k) (y 0 j k)) else mulQ m (x 1 j k) (y 1 j k)
    PolyTakes s q st (polyOp sub w .s .none) w s1 u0 u f [q] → PolyDoes (pProbe d true dst 64) u () u1 →
    PolyDoes (pSource d a) u1 ha u2 → PolyDoes (pSource d a2) u2 hb u3 → PolyDoes (pDest d dst size [ha, hb]) u3 () u4 →
    PolyTag u4 d a ha b → PolyTag u4 d a2 hb b →
    ct ta.kind = true → (sub = 10 → ct tb.kind = false) → (sub = 11 → ct tb.kind = true ∧ ta.deg2 = false ∧ tb.deg2 = false) →
    PolyApart dst size a (tagSize ta) → PolyApart dst size a2 (tagSize tb) →
    ta.basis = tb.basis → (ct tb.kind = true → ta.keyset = tb.keyset) → (10 ≤ sub → ta.state = 1 ∧ tb.state = 1) →
    areaFits u4 q st q 65536 = true → PolyDoes (pBegin d dst) u4 serial v →
    PolyDoes (pRead d a (tagSize ta) true) v A v1 → PolyDoes (pRead d a2 (tagSize tb) true) v1 B v2 →
    PolyEnds (c q st w) s u0 u v2 q f [q]
      { ta with level := lvl, deg2 := comps == 3, serial := serial
                state := if 10 ≤ sub then (if lvl = 0 then 2 else 1) else if ta.state = 2 ∨ tb.state = 2 then 2 else 1
                scale := if 10 ≤ sub ∧ b.scheme = 0 then min (ta.scale + tb.scale) 0xFFFF else ta.scale
                noise := min (if sub = 10 then ta.noise + tb.noise else if sub = 11 then ta.noise + tb.noise + 128 * ta.logn
                  else max ta.noise tb.noise + 256) 0xFFFF }
      (resultWords b ta.mont comps lvl n g)

/-- R249, R255, R256: P.RESCALE divides by the last modulus; P.AUTO applies its automorphism and switches the key of component 1;
P.KSW switches component 2 or 1, with the key at F4 that is registered on the object's basis. -/
def Obligations.PolyRescaleAndSwitch : Prop :=
  ∀ q st w s s1 u0 u u1 u2 f ha A b serial,
    let d := dkOf u q
    let dst := (stream s1 q st).s w.f1.toNat
    let a := (stream s1 q st).s w.f2.toNat
    let ka := (stream s1 q st).s (f4Of w)
    let t := readTag ha
    let W := 16 * 2 ^ t.logn
    PolyDoes (pProbe d true dst 64) u () u1 → PolyDoes (pSource d a) u1 ha u2 → (t.kind = 1 ∨ t.kind = 2) →
    (∀ u3 v v1,
      let size := 64 + 8 * 2 ^ t.logn * tagComps t * t.level
      PolyTakes s q st (polyOp 4 w .none .none) w s1 u0 u f [q] → PolyDoes (pDest d dst size [ha]) u2 () u3 → PolyTag u3 d a ha b →
      PolyApart dst size a (tagSize t) → 1 ≤ t.level → t.state = 1 → areaFits u3 q st q W = true → PolyDoes (pBegin d dst) u3 serial v →
      PolyDoes (pRead d a (tagSize t) true) v A v1 →
      PolyEnds (.pRescale q st w) s u0 u v1 q f [q]
        { t with level := t.level - 1, serial := serial
                 scale := if b.scheme = 0 then t.scale - log2x256 (modAt b t.level) else t.scale
                 noise := min (max (t.noise - log2x256 (modAt b t.level)) (128 * t.logn + 256)) 0xFFFF }
        (pWords b t.mont ((components b t A t.level).map (rescaleComp b t.level))))
    ∧ (∀ c sub, (c, sub) ∈ ([(.pAuto, 2), (.pKsw, 3)] : List ((Nat → Nat → IWord → Instr) × Nat)) → ∀ u3 u4 v v1 v2 k hb K,
      let size := 64 + 8 * 2 ^ t.logn * 2 * (t.level + 1)
      let kinds := if sub = 2 then [2] else [1, 3]
      let h := readKey hb
      let gal := (stream s1 q st).s (f3Of w)
      let body := (wordsOf (K.drop 128)).toArray
      let C := if sub = 2 then (components b t A t.level).map (fun c => c.map (autoLimb t.logn gal)) else components b t A t.level
      let sw := keySwitch b t.level (nth [] C (if k.kind = 1 then 2 else 1)) (storedHalf b body) (uniformHalf b (readKey K).seed)
      PolyTakes s q st (polyOp sub w (if sub = 2 then .s else .none) .s) w s1 u0 u f [q] →
      (sub = 2 → gal % 2 = 1 ∧ gal < 2 ^ 18) → PolyDoes (pKeyHead d ka 128 kinds) u2 hb u3 → PolyDoes (pDest d dst size [ha]) u3 () u4 →
      PolyTag u4 d a ha b → keyAt u4 d ka kinds = some k → (if k.kind = 1 then t.deg2 = true else t.deg2 = false) →
      PolyApart dst size a (tagSize t) → k.basis = t.basis → h.logn = b.logn → 1 ≤ b.k →
      t.keyset = (if k.kind = 3 then h.srcset else h.keyset) → (sub = 2 → gal = h.galois) → areaFits u4 q st q W = true →
      PolyDoes (pBegin d dst) u4 serial v → PolyDoes (pRead d a (tagSize t) true) v A v1 →
      PolyDoes (pRead d ka (128 + 8 * 2 ^ b.logn * ceilDiv b.l (max 1 b.alpha) * (b.l + b.k)) true) v1 K v2 →
      PolyEnds (c q st w) s u0 u v2 q f [q]
        { t with deg2 := false, keyset := if k.kind = 3 then h.keyset else t.keyset, noise := min (max t.noise h.ksnoise + 256) 0xFFFF
                 serial := serial }
        (pWords b t.mont [zipLimbs b addQ (nth [] C 0) sw.1, if k.kind = 1 then zipLimbs b addQ (nth [] C 1) sw.2 else sw.2]))

/-- R261–R263: P.BOOT with a sound parameter block, a key set that holds every key the library entry needs, and areas that suffice
takes the engines of its gang and writes the words of the library's sequence, with the tag fields the library states.  The words are
those of `Config.bootWord` and the bytes left in SCRATCH a free value: the model's own reading (log entry 7), since the spec states
neither. -/
def Obligations.PolyBoot : Prop :=
  ∀ q st w s s1 u0 u u1 u2 u3 u4 u5 u6 u7 u8 u9 v v1 v2 f ha pb hb mb heads src keys b k e serial, ∀ members : List PolyKey,
    let d := dkOf u q
    let dst := (stream s1 q st).s w.f1.toNat
    let a := (stream s1 q st).s w.f2.toNat
    let pa := (stream s1 q st).s (f3Of w)
    let ka := (stream s1 q st).s (f4Of w)
    let t := readTag ha
    let dig := libDigest u4
    let lf (i : Nat) : Nat := libField dig e i
    let size := 64 + 8 * 2 ^ t.logn * 2 * (lf 6 + 1)
    let gang := setBitsOf 64 (fieldAt pb 8 8)
    let sc := fieldAt pb 0x10 8
    let sb := fieldAt pb 0x18 8
    let n := fieldAt hb 128 4
    let hs := heads.map readKey
    PolyTakes s q st (polyOp 5 w .s .s) w s1 u0 u f gang → PolyDoes (pProbe d true dst 64) u () u1 → PolyDoes (pSource d a) u1 ha u2 →
    PolyDoes (pHead d pa 64 64) u2 pb u3 → PolyDoes (pKeyHead d ka 136 [5]) u3 hb u4 → (∀ g ∈ gang, deckleOfQuire u4 g = some d) →
    PolyDoes (pProbe d true sc sb) u4 () u5 → PolyDoes (pProbe d false sc sb) u5 () u6 → libEntry u4 (fieldAt pb 4 2) = some e →
    PolyDoes (pDest d dst size [ha]) u6 () u7 → keyAt u4 d ka [5] = some k →
    PolyDoes (if n = 0 then pure [] else pRead d (ka + 136) (8 * n) false) u7 mb u8 →
    (wordsOf mb).map (fun m => keyAt u4 d m [1, 2, 3, 4, 5]) = members.map some →
    PolyDoes (members.mapM (fun m => pHead d m.addr m.size 128)) u8 heads u9 →
    PolyTag u9 d a ha b → t.kind = 1 → t.deg2 = false → fieldAt pb 0 4 = 0x31504251 → fieldAt pb 6 2 = 0 →
    allZero (sliceB pb 0x20 32) = true → pa % 64 = 0 → sc % 65536 = 0 → popcount 64 (fieldAt pb 8 8) = lf 5 → bit (fieldAt pb 8 8) q = true →
    PolyApart dst size a (tagSize t) → k.basis = t.basis → (∀ h ∈ hs, h.kind = 4 ∨ h.basis = t.basis) →
    lf 1 = b.logn → lf 2 = b.l → lf 3 = b.k → lf 4 = b.alpha → 1 ≤ b.k → lf 6 < b.l →
    (readKey hb).keyset = t.keyset → (∀ h ∈ hs, h.keyset = t.keyset) → (∃ h ∈ hs, h.kind = 1) →
    (∀ g ∈ Config.libGalois dig e, ∃ h ∈ hs, h.kind = 2 ∧ h.galois = g) → lf 9 ≤ sb →
    (∀ g ∈ gang, areaFits u9 q st g (16 * 2 ^ t.logn) = true) → PolyDoes (pBegin d dst) u9 serial v →
    PolyDoes (pRead d a (tagSize t) true) v src v1 → PolyDoes (members.mapM (fun m => pRead d m.addr m.size true)) v1 keys v2 →
    PolyEnds (.pBoot q st w) s u0 u (dkWrite (takeFree v2).2 d .poly sc (leBytes (min sb (lf 9)) (takeFree v2).1)).1 q f gang
      { t with level := lf 6, state := 1, scale := lf 7, noise := lf 8, serial := serial }
      ((List.range (2 ^ t.logn * 2 * (lf 6 + 1))).map (fun i =>
        Config.bootWord dig e (src.drop 64 ++ keys.flatten) i % modAt b (i / 2 ^ t.logn % (lf 6 + 1))))

/-- The tag of a header at `a` is one of encrypted bits that Table 09.1 admits. -/
abbrev BitTag (a : Nat) (h : List Byte) : Prop :=
  a % 64 = 0 ∧ tagSound h = true ∧ (readTag h).kind = 5 ∧ ((readTag h).logn = 10 ∨ (readTag h).logn = 11) ∧ (readTag h).level ≤ 31
    ∧ (readTag h).state = 1 ∧ 512 ≤ (readTag h).basis ∧ (readTag h).basis ≤ 1024 ∧ (readTag h).mont = false ∧ (readTag h).deg2 = false
    ∧ 1 ≤ (readTag h).scale ∧ (readTag h).scale ≤ 6

/-- Ciphertext `i` of an object of encrypted bits: its n + 1 words. -/
def cipher (t : Tag) (bs : List Byte) (i : Nat) : List Nat :=
  (List.range (t.basis + 1)).map (fun k => fieldAt bs (64 + 8 * ((t.basis + 1) * i + k)) 8)

/-- R272–R276: P.GATE refreshes 2x + y with the truth table of its word, P.LUT refreshes x with the table at F3; a ciphertext with a word
that is not below the modulus gives all ones. -/
def Obligations.PolyEncryptedBits : Prop :=
  ∀ q st w s s1 u0 u u1 u2 u3 u4 u5 v v1 v2 v3 f ha kb A k K serial,
    let d := dkOf u q
    let dst := (stream s1 q st).s w.f1.toNat
    let a := (stream s1 q st).s w.f2.toNat
    let a2 := (stream s1 q st).s (f3Of w)
    let ka := (stream s1 q st).s (f4Of w)
    let t := readTag ha
    let g := readGate kb
    let count := t.level + 1
    let size := bitSize t
    let words := (chunksOf 8 (K.length / 8) K).toArray
    let high (l : List Nat) : Bool := l.any (fun x => decide (g.q ≤ x))
    let bad := List.replicate (g.n + 1) (2 ^ 64 - 1)
    PolyDoes (pProbe d true dst 64) u () u1 → PolyDoes (pSource d a) u1 ha u2 → PolyDoes (pKeyHead d ka 192 [4]) u3 kb u4 →
    PolyDoes (pDest d dst size [ha]) u4 () u5 → BitTag a ha → keyAt u5 d ka [4] = some k → PolyApart dst size a size →
    t.logn = g.logn → t.basis = g.n → t.keyset = g.keyset → areaFits u5 q st q (16 * count * 2 ^ g.logn) = true →
    PolyDoes (pBegin d dst) u5 serial v → PolyDoes (pRead d a size true) v A v1 → PolyDoes (pRead d ka (gateSize g) true) v2 K v3 →
    (∀ hb B,
      let t2 := readTag hb
      PolyTakes s q st (polyOp 6 w .s .s) w s1 u0 u f [q] → PolyDoes (pSource d a2) u2 hb u3 → BitTag a2 hb →
      PolyApart dst size a2 (bitSize t2) → t2.logn = g.logn → t2.basis = g.n → t2.keyset = g.keyset → t2.level = t.level →
      t.scale = 1 → t2.scale = 1 → PolyDoes (pRead d a2 (bitSize t2) true) v1 B v2 →
      PolyEnds (.pGate q st w) s u0 u v3 q f [q]
        ⟨5, g.logn, t.level, 1, g.n, false, false, 1,
          gateNoise k.lq g.outnoise g.msnoise 3 (max (t.noise + 256) t2.noise + 256) (t.noise == 0xFFFF || t2.noise == 0xFFFF), g.keyset,
          serial⟩
        ((List.range count).flatMap (fun i => let x := cipher t A i
          let y := cipher t2 B i
          if high x || high y then bad
          else refresh g words 3 1 ((List.range 4).map (fun m => bits (optF w 22 19) m m)) (List.zipWith (fun x y => (2 * x + y) % g.q) x y))))
    ∧ (∀ T,
      let logt := optF w 22 20
      let wo := fieldAt T 5 1
      let entries := (List.range (2 ^ logt)).map (fun e => fieldAt T (64 + e) 1)
      PolyTakes s q st (polyOp 7 w .s .s) w s1 u0 u f [q] → PolyDoes (pHead d a2 (64 + 2 ^ logt) (64 + 2 ^ logt)) u2 T u3 → a2 % 64 = 0 →
      fieldAt T 0 4 = 0x31544C51 → fieldAt T 28 4 = crc32c (sliceB T 0 28) → fieldAt T 4 1 = logt → 1 ≤ wo → wo ≤ 6 →
      allZero (sliceB T 6 22) = true → allZero (sliceB T 32 32) = true → (∀ e ∈ entries, e < 2 ^ wo) → t.scale = logt →
      PolyApart dst size a2 (64 + 2 ^ logt) → v2 = v1 →
      PolyEnds (.pLut q st w) s u0 u v3 q f [q]
        ⟨5, g.logn, t.level, 1, g.n, false, false, wo,
          gateNoise k.lq g.outnoise g.msnoise (logt + 2) t.noise (t.noise == 0xFFFF), g.keyset, serial⟩
        ((List.range count).flatMap (fun i => let x := cipher t A i
          if high x then bad else refresh g words (logt + 2) wo entries x)))
/-! ### Secure aggregation (R277–R304, R156) -/

/-- A stream takes the word `w`, and nothing else is in flight in its quire. -/
def Alone (s : State) (q st : Nat) (o : Op) (w : IWord) (s1 : State) : Prop := Takes s q st o w s1 ∧ (quire s1 q).flights = []

/-- A step of an A. instruction goes from `u` to `v` and gives `a`. -/
abbrev AggDoes {α : Type} (m : AM α) (u : State) (a : α) (v : State) : Prop := m.run u = (.ok a, v)

/-- An A. instruction reads the bytes `bs` in state `u`, which the read leaves as `v`; `add` in its add phase. -/
abbrev AggReads (u : State) (d a : Nat) (add : Bool) (bs : List Byte) (v : State) : Prop := AggDoes (aRead d a bs.length add) u bs v

/-- Writes of an A. instruction, in order, all of which are admitted. -/
def aggWrites (d : Nat) : List (Nat × List Byte) → State → Option State
  | [], u => some u
  | (a, bs) :: l, u => match dkWrite u d .agg a bs with
    | (v, none) => aggWrites d l v
    | _ => none

/-- The message of Table 10.5 whose first 64 bytes are `b` passes every check of Table 10.6 for session `x`; `kinds` are the kinds the
instruction accepts, `t` the tag of an RLWE body, which is read from `u` to `v`. -/
def GoodMessage (u v : State) (d : Nat) (x : Session) (va : Nat) (kinds : List Nat) (b : List Byte) (t : Option Tag) : Prop :=
  let kind := fieldAt b 4 1
  fieldAt b 0 4 = 0x31434151 ∧ fieldAt b 0x14 4 = crc32c (sliceB b 0 20 ++ sliceB b 24 40)
    ∧ fieldAt b 6 2 = 0 ∧ (kind = 1 → allZero (sliceB b 0x20 32) = true) ∧ kind ∈ kinds ∧ (kind = 2 → x.typ ≠ 3) ∧ fieldAt b 5 1 = x.typ
    ∧ sliceB b 8 8 = x.nonce ∧ fieldAt b 0x10 4 < x.maxid ∧ fieldAt b 0x18 8 = (if kind = 1 then bodyBytes x else 32)
    ∧ x.inbox ≤ va ∧ va + 64 + (if kind = 1 then bodyBytes x else 0) ≤ x.inbox + x.inboxSize
    ∧ (x.typ ≠ 3 → t = none ∧ v = u)
    ∧ (x.typ = 3 → ∃ tb g, tb.length = 64 ∧ AggReads u d (va + 64) false tb v ∧ tagSound tb = true ∧ g = readTag tb ∧ t = some g
        ∧ (basisAt v d g.basis).isSome = true ∧ g.mont = false ∧ g.deg2 = false ∧ g.kind ≠ 5 ∧ g.kind = x.ckind ∧ g.basis = x.basis
        ∧ g.logn = x.logn ∧ g.level = x.level ∧ (x.ckind = 1 → g.scale = x.scale) ∧ g.keyset = x.keyset)

/-- The elements a message contributes: those of its seed (R292), or those of its body in memory, read from `u` to `v`. -/
def Contributes (u v : State) (d : Nat) (x : Session) (va : Nat) (b : List Byte) (es : List Nat) : Prop :=
  if fieldAt b 4 1 = 2 then es = (List.range x.elements).map (seedElem x (aesKeys (sliceB b 0x20 32))) ∧ v = u
  else ∃ bs, bs.length = elemBytes x * x.elements ∧ AggReads u d (va + if x.typ = 3 then 128 else 64) true bs v ∧ es = elemsOfBytes x bs

/-- An A. instruction on session `x`, number F1, of the stream's deckle acts in `u`; no check of the lanes is about to fail. -/
def AggActs (s : State) (q st : Nat) (o : Op) (w : IWord) (s1 u : State) (mem : List (Nat × Nat)) (x : Session) : Prop :=
  let n := (stream s1 q st).s w.f1.toNat
  Alone s q st o w s1 ∧ u = consumeLines (advance s1 q st w) q mem ∧ n < 64 ∧ tfind s1.sessions n = some x ∧ x.deckle = dkOf s1 q
    ∧ x.state = .opn ∧ (quire s1 q).strikes = []

/-- R289, R292–R295, R297: A.INGEST of a new identity sets its bitmap bit, logs it, adds its elements to the sum and consumes the
message; A.STAGE adds them to the partial sum of its transaction; A.EXPAND writes 2,048 bytes of a seed's elements to the scratchpad. -/
def Obligations.AggregationAdmission : Prop :=
  ∀ q st w s s1 u u1 u2 x b t,
    let d := dkOf u q
    let n := (stream s1 q st).s w.f1.toNat
    let va := (stream s1 q st).s w.f2.toNat
    let ident := fieldAt b 0x10 4
    let seeded := fieldAt b 4 1 == 2
    let seed := sliceB b 0x20 32
    let seq := (stream s1 q st).nextSeq
    let mark (mb : Byte) : Nat × List Byte := (mapBase x + ident / 8, [BitVec.ofNat 8 (setBits (leNat [mb]) (ident % 8) (ident % 8) 1)])
    let mem := [(va, 64 + bodyBytes x)]
    va % 64 = 0 → b.length = 64 → AggReads u d va false b u1 → tfind u1.sessions n = some x →
    (∀ mb cur es u3 u4 u5 u6 v, let c := gcmEnc x.logKey (logIv x ident) [] seed
      AggActs s q st (aggOp 1 .s .s .none .none) w s1 u mem x → GoodMessage u1 u2 d x va [1, 2] b t →
      AggReads u2 d (mapBase x + ident / 8) false [mb] u3 → mb.getLsbD (ident % 8) = false →
      aggWrites d [mark mb, (logAt x ident, if seeded then logEntry ident 1 c.1 (c.2.take 12) else logEntry ident 4 [] [])] u3 = some u4 →
      Contributes u4 u5 d x va b es → cur.length = elemBytes x * x.elements → AggReads u5 d x.area true cur u6 →
      aggWrites d ([(x.area, bytesOfElems x (addElems x false (elemsOfBytes x cur) es))] ++ (if seeded then [(logAt x ident + 3, [2#8])] else [])
        ++ [(va, zeros 4)]) u6 = some v →
      exec (.aIngest q st w) s = .next (settleQuire (dropFlight (setSession v n { x with
        count := x.count + 1, maxNoise := max x.maxNoise ((t.map (·.noise)).getD x.maxNoise)
        exhausted := x.exhausted || (t.map (·.state)).getD 1 == 2 }) q st seq) q))
    ∧ (AggActs s q st (aggOp 2 .s .s .s .s) w s1 u mem x → GoodMessage u1 u2 d x va [2] b t → x.expose = true →
      let dst := (stream s1 q st).s (f3Of w)
      let first := (stream s1 q st).s (f4Of w)
      dst % 2048 = 0 → dst + 2048 ≤ spadSize →
      exec (.aExpand q st w) s = .next (settleQuire (dropFlight (spadWrite u2 q dst
        ((List.range (2048 / elemBytes x)).flatMap (fun i => leBytes (elemBytes x)
          (if first + i < x.elements then seedElem x (aesKeys seed) (first + i) else 0)))) q st seq) q))
    ∧ (∀ k sl mb cur es u3 u4 u5 u6 u7 v, let tx := (stream s1 q st).s (f3Of w)
      AggActs s q st (aggOp 3 .s .s .s .none) w s1 u mem x → GoodMessage u1 u2 d x va [1] b t → 0 < tx → tx < 2 ^ 32 → x.txslots ≠ 0 →
      (slotFor x tx = some (k, sl) ∨ (slotFor x tx = none ∧ tfree x.slots x.txslots = some k ∧ sl = { ident := tx })) → sl.count < x.txids →
      AggReads u2 d (mapBase x + ident / 8) false [mb] u3 → mb.getLsbD (ident % 8) = false → aggWrites d [mark mb] u3 = some u4 →
      aggWrites d [(stageAt x k + sumBytes x + 4 * sl.count, leBytes 4 ident), (logAt x ident, logEntry ident 5 [] [])]
        (setSession u4 n { x with slots := tupd x.slots k { sl with
          count := sl.count + 1, noise := max sl.noise ((t.map (·.noise)).getD 0)
          exhausted := sl.exhausted || (t.map (·.state)).getD 1 == 2 } }) = some u5 →
      Contributes u5 u6 d x va b es → cur.length = elemBytes x * x.elements → AggReads u6 d (stageAt x k) true cur u7 →
      aggWrites d [(stageAt x k, bytesOfElems x (addElems x false (elemsOfBytes x cur) es)), (va, zeros 4)] u7 = some v →
      exec (.aStage q st w) s = .next (settleQuire (dropFlight v q st seq) q))

/-- Undo the admission of identities, in order: the bitmap bit and the log entry of each. -/
def AbortIds (d : Nat) (x : Session) : List Nat → State → State → Prop
  | [], u, v => u = v
  | i :: l, u, v => ∃ b u1 u2, AggReads u d (mapBase x + i / 8) true [b] u1
      ∧ aggWrites d [(mapBase x + i / 8, [BitVec.ofNat 8 (setBits (leNat [b]) (i % 8) (i % 8) 0)]), (logAt x i, logEntry i 0 [] [])] u1 = some u2
      ∧ AbortIds d x l u2 v

/-- R296, R298: A.COMMIT adds a transaction's partial sum to the sum and counts its identities; A.ABORT forgets them; each frees the slot
and zeroes its area.  A.RETRACT subtracts a logged seed's elements again. -/
def Obligations.AggregationSettlement : Prop :=
  ∀ q st w s s1 u x,
    let d := dkOf u q
    let n := (stream s1 q st).s w.f1.toNat
    let seq := (stream s1 q st).nextSeq
    let tx := (stream s1 q st).s (f3Of w)
    let wipe (k : Nat) : Nat × List Byte := (stageAt x k, zeros (sumBytes x + rnd64 (4 * x.txids)))
    (∀ k sl part cur, ∀ ids : List Nat, ∀ u1 u2 u3 u4 u5 v, AggActs s q st (aggOp 4 .s .none .s .none) w s1 u [] x → tx < 2 ^ 32 →
      slotFor x tx = some (k, sl) →
      part.length = elemBytes x * x.elements → AggReads u d (stageAt x k) true part u1 → cur.length = part.length →
      AggReads u1 d x.area true cur u2 →
      aggWrites d [(x.area, bytesOfElems x (addElems x false (elemsOfBytes x cur) (elemsOfBytes x part)))] u2 = some u3 →
      ids.length = sl.count → AggReads u3 d (stageAt x k + sumBytes x) true (ids.flatMap (leBytes 4)) u4 → (∀ i ∈ ids, i < 2 ^ 32) →
      aggWrites d (ids.map (fun i => (logAt x i, logEntry i 4 [] []))) u4 = some u5 →
      let y := { x with count := x.count + sl.count, maxNoise := max x.maxNoise sl.noise, exhausted := x.exhausted || sl.exhausted }
      aggWrites d [wipe k] (setSession u5 n y) = some v →
      exec (.aCommit q st w) s = .next (settleQuire (dropFlight (setSession v n { y with slots := tdel x.slots k }) q st seq) q))
    ∧ (∀ k sl, ∀ ids : List Nat, ∀ u1 u2 v, AggActs s q st (aggOp 5 .s .none .s .none) w s1 u [] x → tx < 2 ^ 32 → slotFor x tx = some (k, sl) →
      ids.length = sl.count → AggReads u d (stageAt x k + sumBytes x) true (ids.flatMap (leBytes 4)) u1 → (∀ i ∈ ids, i < 2 ^ 32) →
      AbortIds d x ids u1 u2 → tfind u2.sessions n = some x → aggWrites d [wipe k] u2 = some v →
      exec (.aAbort q st w) s = .next (settleQuire (dropFlight (setSession v n { x with slots := tdel x.slots k }) q st seq) q))
    ∧ (∀ e cur u1 u2 u3 v, let i := (stream s1 q st).s w.f2.toNat
      let ct := sliceB e 4 32
      let seed := gcmCrypt (aesKeys x.logKey) (logIv x i) ct
      AggActs s q st (aggOp 6 .s .s .none .none) w s1 u [] x → i < x.maxid → i < 2 ^ 24 → e.length = 48 → AggReads u d (logAt x i) false e u1 →
      fieldAt e 3 1 = 2 → (gcmTag (aesKeys x.logKey) (logIv x i) [] ct).take 12 = sliceB e 36 12 →
      aggWrites d [(logAt x i + 3, [3#8])] u1 = some u2 → cur.length = elemBytes x * x.elements → AggReads u2 d x.area true cur u3 →
      aggWrites d [(x.area, bytesOfElems x (addElems x true (elemsOfBytes x cur) ((List.range x.elements).map (seedElem x (aesKeys seed))))),
        (logAt x i, logEntry i 3 [] [])] u3 = some v →
      exec (.aRetract q st w) s = .next (settleQuire (dropFlight (setSession v n { x with
        count := x.count - 1, retracted := x.retracted + 1 }) q st seq) q))

/-- R279–R282, R300–R303: A.OPEN of a good block takes the lowest free session, protects its area and inbox and gives the area to a zero
engine; A.FINAL without noise writes header and sum and releases the session, with noise it waits for its blocks; 
SESSION_RELEASED frees a RELEASING session whose memory is zero. -/
def Obligations.AggregationOpenAndRelease : Prop :=
  (∀ q st w s s1 b y n u1 u2,
    let va := (stream s1 q st).s w.f2.toNat
    let u := consumeLines (advance s1 q st w) q [(0, 2 ^ 64)]
    let d := dkOf u q
    let x := parseSession d b
    Alone s q st (aggOp 0 .sw .s .none .none) w s1 → va % 64 = 0 → dkRead u d .agg va 128 = (u1, .ok b) →
    (x.typ ≠ 3 → y = x ∧ blockOk b x none = true) →
    (x.typ = 3 → ∃ z, basisAt u1 d x.basis = some z ∧ blockOk b x (some z) = true
      ∧ y = { x with mods := z.mods, logn := z.logn, ckind := if z.scheme = 0 then 1 else 2 }) →
    (x.typ = 2 → isPrime64 x.q = true) → dkProbes d .engine true [(x.area, x.areaSize), (x.inbox, x.inboxSize)] u1 = (u2, none) →
    overlaps (x.area, x.areaSize) (x.inbox, x.inboxSize) = false → meetsProt u2 d x.area x.areaSize = false →
    meetsProt u2 d x.inbox x.inboxSize = false → layoutBytes x ≤ x.areaSize → tfree u2.sessions 64 = some n →
    ∃ v, exec (.aOpen q st w) s = .next (settleQuire v q) ∧ tfind v.sessions n = some y ∧ y.state = .opening
      ∧ (∃ e, tfind v.zeros e = some { ranges := dpaRanges u2 d x.area x.areaSize, why := 2, arg := n })
      ∧ (⟨.session, x.area, x.areaSize, false⟩ ∈ (deckle v d).prot ∧ ⟨.inbox, x.inbox, x.inboxSize, x.typ == 3⟩ ∈ (deckle v d).prot)
      ∧ ∃ f ∈ (quire v q).flights, f.stream = st ∧ f.seq = (stream s1 q st).nextSeq ∧ f.phase = .transfer)
  ∧ (∀ q st w s s1 u u1 x sum u2 v,
    let n := (stream s1 q st).s w.f1.toNat
    let dst := (stream s1 q st).s w.f2.toNat
    let len := 64 + bodyBytes x
    let d := dkOf u q
    let guarded := addProt (setSession u1 n { x with state := .finalising, dst := dst }) d { kind := .aggResult, base := dst, len := len }
    AggActs s q st (aggOp 7 .s .s .none .none) w s1 u [(dst, 64 + bodyBytes x)] x → dst % 64 = 0 →
    dkProbe u d .agg true dst len = (u1, none) → tfind u1.sessions n = some x →
    meetsProt u1 d dst len = false → x.slots = [] → x.mincount ≤ x.count →
    (x.noise = false → sum.length = elemBytes x * x.elements → dkRead guarded d .agg x.area (elemBytes x * x.elements) = (u2, .ok sum) →
      dkWrite (if x.typ = 3 then { u2 with tagSerial := if (u2.tagSerial + 1) % 2 ^ 32 = 0 then 1 else u2.tagSerial + 1 } else u2)
        d .agg dst (resultHeader { x with state := .finalising, dst := dst }
          ++ (if x.typ = 3 then tagBytes { resultTag x with serial := u2.tagSerial } ++ zeros 32 else [])
          ++ bytesOfElems x (elemsOfBytes x sum)) = (v, none) →
      ∃ z, exec (.aFinal q st w) s = .next (settleQuire z q)
        ∧ (∀ y, tfind v.sessions n = some y → (tfind z.sessions n).map (fun y => (y.state, y.logKey)) = some (.releasing, []))
        ∧ z.dram = v.dram ∧ ∀ p ∈ (deckle z d).prot, ¬ (p.kind = .aggResult ∧ p.base = dst))
    ∧ (x.noise = true → u1.rng.failed = false →
      ∃ z, exec (.aFinal q st w) s = .next (settleQuire z q) ∧ (tfind z.sessions n).map (·.state) = some .finalising
        ∧ ∃ f ∈ (quire z q).flights, f.stream = st ∧ f.phase = .drawing (1024 * ceilDiv x.elements 256) []))
  ∧ (∀ n s x, tfind s.sessions n = some x → x.state = .releasing → zeroRuns s 1 n = false →
    ∃ z, exec (.sessionReleased n) s = .next z ∧ tfind z.sessions n = none
      ∧ ∀ p ∈ (deckle z x.deckle).prot, ¬ ((p.kind = .session ∧ p.base = x.area) ∨ (p.kind = .inbox ∧ p.base = x.inbox)))
/-! ### Data movement, ordering, messages (R160, R161, R175–R199, R326, R327) -/

/-- One row moves from `a` to `b` without meeting poison or a refusal (Table 05.16). -/
def RowMoves (q : Nat) (w : IWord) (u : State) (a b n : Nat) (v : State) : Prop :=
  ∃ bs p u1, rowRead u q (sspOf w) a n = (u1, .ok bs [] p) ∧ (sspOf w = 1 → bs = spadBytes u1 q a n)
    ∧ (if dspOf w = 0 then dkWrite u1 (dkOf u1 q) .dcopy b bs = (v, none)
       else v = spadWrite u1 (if dspOf w = 2 then dqOf w else q) b bs)

/-- Rows `i … i + k - 1` of a transfer move, in order. -/
def RowsMove (q : Nat) (w : IWord) (x : DDesc) : Nat → Nat → State → State → Prop
  | 0, _, u, v => u = v
  | k + 1, i, u, v => ∃ u1, RowMoves q w u (x.src + i * x.sstr) (x.dst + i * x.dstr) x.bytes u1 ∧ RowsMove q w x k (i + 1) u1 v

/-- The rows of a D.MLOAD move between device addresses, giving the bytes moved. -/
def RowsLoad (q : Nat) (x : DDesc) : Nat → Nat → State → State → List Byte → Prop
  | 0, _, u, v, bs => u = v ∧ bs = []
  | k + 1, i, u, v, bs => ∃ u1 u2 b rest, dkRead u (dkOf u q) .mload (x.src + i * x.sstr) x.bytes = (u1, .ok b)
      ∧ dkWrite u1 (dkOf u1 q) .mload (x.dst + i * x.dstr) b = (u2, none) ∧ RowsLoad q x k (i + 1) u2 v rest ∧ bs = b ++ rest

/-- R160, R326, R327, R472: D.COPY moves the rows its descriptor names and ends; D.MLOAD also adds their bytes to its measured object,
which it closes with FINAL; D.PREF starts the Headbox stream it names; PREFETCH_REQUEST asks for the lines its depth admits and forgets a
stream that has asked for its last line. -/
def Obligations.DataMovement : Prop :=
  (∀ q st w s s1 v,
    let a := (stream s1 q st).s w.f1.toNat
    let x := dDesc (spadBytes s1 q a 32)
    let f (o : Op) : Flight := newFlight s1 q st w o
    let u (o : Op) : State := consumeLines (advance s1 q st w) q (planCopy q s1 (f o)).f.mem
    let seq := (stream s1 q st).nextSeq
    let ready : Prop := a % 32 = 0 ∧ a + 32 ≤ spadSize ∧ (quire s1 q).upsets = [] ∧ spadBad s1 q a 32 = false ∧ descCheck w x = 0
    (Alone s q st (copyOp 0 w) w s1 → ready → (dspOf w = 2 → deckleOfQuire s1 (dqOf w) = deckleOfQuire s1 q ∧ (quire s1 (dqOf w)).flights = []) →
      RowsMove q w x x.rows 0 (u (copyOp 0 w)) v →
      let z := dropFlight v q st seq
      exec (.dCopy q st w) s = .next (settleQuire
        (if dspOf w = 0 then noteRings z q st ((List.range x.rows).map (fun i => (x.dst + i * x.dstr, x.bytes))) else z) q))
    ∧ (∀ bs, let obj := (stream s1 q st).s w.f2.toNat
      let d := dkOf s1 q
      Alone s q st (copyOp 2 w) w s1 → ready → objElsewhere s1 d obj none = false → objRoom s1 d obj none = true →
      RowsLoad q x x.rows 0 (u (copyOp 2 w)) v bs →
      (optF w 12 12 = 0 → exec (.dMload q st w) s = .next (settleQuire (dropFlight (extendObj v d obj none bs) q st seq) q))
      ∧ (optF w 12 12 = 1 → ((deckle v d).measures.filter (fun m => m.kind == 3)).length < 256 →
        ∃ z all, exec (.dMload q st w) s = .next (settleQuire z q)
          ∧ all = (((findObj v d obj none).bind (fun i => v.host.measured[i]?)).map (·.bytes)).getD [] ++ bs
          ∧ (⟨3, obj, leBytes 8 obj ++ leBytes 8 all.length ++ sha256 all⟩ : Measure) ∈ (deckle z d).measures
          ∧ findObj z d obj none = none)))
  ∧ (∀ q st w s s1, let o : Op := { maj := 0x20, sub := 1, f1 := .s, f2 := .s, opt := maskOf 22 13, ord := true }
    Alone s q st o w s1 → ∃ z, exec (.dPref q st w) s = .next (settleQuire z q)
      ∧ tfind (quire z q).prefetch (optF w 22 19) = some
        { stream := st, addr := (stream s1 q st).s w.f1.toNat, len := (stream s1 q st).s w.f2.toNat
          depth := optF w 18 13 + 1, asked := 0, used := 0 })
  ∧ (∀ q hs s p, tfind (quire s q).prefetch hs = some p →
    let upto := min (prefLines p) (p.used + p.depth)
    let r := ((List.range (upto - p.asked)).map (fun i => (p.addr / 128 + p.asked + i) * 128)).foldl (prefLine q) (s, true)
    let del := setQuire r.1 q { quire r.1 q with prefetch := tdel (quire r.1 q).prefetch hs }
    (r.2 = true → upto < prefLines p → exec (.prefetchRequest q hs) s
        = .next (setQuire r.1 q { quire r.1 q with prefetch := tupd (quire r.1 q).prefetch hs { p with asked := max p.asked upto } }))
    ∧ (r.2 = true → prefLines p ≤ upto → exec (.prefetchRequest q hs) s = .next del)
    ∧ (r.2 = false → exec (.prefetchRequest q hs) s = .next del))

/-- The table entry of X.FENCE. -/
def fenceOp (w : IWord) : Op := { maj := 0x23, sub := 0, opt := maskOf 22 20, codes := decide (optF w 22 20 ≤ 4) }

/-- The table entries of X.WAIT (1), X.SIGNAL (2) and X.BAR (3). -/
def syncOp (w : IWord) (sub : Nat) : Op :=
  { maj := 0x23, sub := sub, f1 := .s, f2 := .s, f3 := .sw, opt := (if sub = 1 then maskOf 22 19 + maskOf 15 0 else maskOf 22 20)
    codes := scopeOk w, effect := true }

/-- The table entry of X.SEND. -/
def sendOp : Op := { maj := 0x23, sub := 4, f1 := .s, f2 := .s, opt := maskOf 21 21, ord := true, effect := true }

/-- The table entry of X.RECV. -/
def recvOp : Op := { maj := 0x23, sub := 5, f1 := .s, f2 := .sw, f3 := .s, opt := maskOf 22 20, ord := true, effect := true }

/-- R177, R184–R187: X.FENCE ends at once with nothing earlier in flight, and at SYSTEM scope with its writes to peers acknowledged, and
otherwise waits for FENCE_END; X.SIGNAL adds to a counter
and gives its old value; X.WAIT ends at once or watches its counter until X_WAIT_END or X_WAIT_TIMEOUT; X.BAR counts an arrival, the last
of which advances GEN, and watches GEN until X_BAR_RELEASE; X.END ends the stream, whose registers then stand as Table 05.2 says. -/
def Obligations.FencesSignalsWaitsBarriers : Prop :=
  (∀ q st w s s1,
    let x := quire s1 q
    let n := (stream s1 q st).nextSeq
    let a := (stream s1 q st).s w.f1.toNat
    let v2 := (stream s1 q st).s w.f2.toNat
    let d := dkOf s1 q
    let u (k : Nat) : State := consumeLines (advance s1 q st w) q [(a, k)]
    let ordered4 := optF w 22 20 = 4 → ringsDone s1 q st = true
    (Takes s q st (fenceOp w) w s1 →
      let holds := (∀ g ∈ flightsOf x st, n ≤ g.seq) ∧ (optF w 22 20 = 4 → ringsDone s1 q st = true)
      (holds → exec (.xFence q st w) s = .next (settleQuire (advance s1 q st w) q))
      ∧ (¬ holds → exec (.xFence q st w) s = .next (settleQuire (putFlight (advance s1 q st w) q
          { newFlight s1 q st w (fenceOp w) with phase := .fence (optF w 22 20) }) q)))
    ∧ (∀ bs r v, Alone s q st (syncOp w 2) w s1 → ordered4 → a % 8 = 0 → dkRead (u 8) d .stream a 8 = (r, .ok bs) →
      dkWrite r d .stream a (leBytes 8 (leNat bs + v2)) = (v, none) →
      exec (.xSignal q st w) s = .next (settleQuire (noteRings (wrS (dropFlight v q st n) q st (f3Of w) (leNat bs)) q st [(a, 8)]) q))
    ∧ (∀ bs r, Alone s q st (syncOp w 1) w s1 → a % 8 = 0 → dkRead (u 8) d .stream a 8 = (r, .ok bs) →
      let v := leNat bs
      let met := if w.low.getLsbD 19 then v = v2 else v2 ≤ v
      (met → exec (.xWait q st w) s = .next (settleQuire (wrS r q st (f3Of w) v) q))
      ∧ (¬ met → exec (.xWait q st w) s = .next (settleQuire (putFlight { r with waits := r.waits ++ [{
          quire := q, stream := st, seq := n, dpa := dpaOf r d a, isBar := false, cmpEq := w.low.getLsbD 19, target := v2, last := v }] } q
          { newFlight s1 q st w (syncOp w 1) with mem := [(a, 8)], phase := .waiting }) q)))
    ∧ (∀ bs r v, Alone s q st (syncOp w 3) w s1 → ordered4 → a % 16 = 0 → 1 ≤ v2 → v2 ≤ 512 → bs.length = 16 →
      dkRead (u 16) d .stream a 16 = (r, .ok bs) →
      let count := if fieldAt bs 2 2 = 0 then v2 else fieldAt bs 2 2
      let gen := fieldAt bs 8 8
      (fieldAt bs 0 2 + 1 = count → dkWrite r d .stream a (leBytes 8 0 ++ leBytes 8 (gen + 1)) = (v, none) →
        exec (.xBar q st w) s = .next (settleQuire (wrS (dropFlight v q st n) q st (f3Of w) ((gen + 1) % 2 ^ 64)) q))
      ∧ (fieldAt bs 0 2 + 1 ≠ count → dkWrite r d .stream a (leBytes 2 (fieldAt bs 0 2 + 1) ++ leBytes 2 count ++ zeros 4) = (v, none) →
        exec (.xBar q st w) s = .next (settleQuire (putFlight { v with waits := v.waits ++ [{
          quire := q, stream := st, seq := n, dpa := dpaOf v d (a + 8), isBar := true, cmpEq := false, target := gen, last := gen }] } q
          { newFlight s1 q st w (syncOp w 3) with mem := [(a, 16)], phase := .waiting }) q)))
    ∧ (Alone s q st { maj := 0x23, sub := 6 } w s1 → (stream s1 q st).step = none → (∀ t ∈ x.tiles, t.owner ≠ st) →
      ∃ t, exec (.xEnd q st w) s = .next t ∧ (stream t q st).state = .idle ∧ (stream t q st).sregs = startRegs q st 0 0 0
        ∧ (stream t q st).vregs = [] ∧ (stream t q st).pregs = [] ∧ (stream t q st).mslots = []))
  ∧ (∀ q st s f, fenceWaiting s q st = some f → f.maj = 0x23 → f.sub = 0 → f.phase ≠ .held →
    exec (.fenceEnd q st) s = .next (mailbox q (dropFlight s q f.stream f.seq)))
  ∧ (∀ q st s wt f bar, s.waits.find? (fun w => w.quire == q && w.stream == st && w.met.isSome && w.isBar == bar) = some wt →
    findFlight s q st wt.seq = some f →
    exec (if bar then .xBarRelease q st else .xWaitEnd q st) s
      = .next (settleQuire (wrS (dropWait (dropFlight s q st f.seq) q st f.seq) q st (f3Of f.w) (wt.met.getD 0)) q))
  ∧ (∀ q st s wt f, s.waits.find? (fun w => w.quire == q && w.stream == st && w.met.isNone && !w.isBar) = some wt →
    findFlight s q st wt.seq = some f → optF f.w 15 0 ≠ 0 →
    exec (.xWaitTimeout q st) s
      = .next (settleQuire (wrS (dropWait (dropFlight s q st f.seq) q st f.seq) q st (f3Of f.w) wt.last) q))

/-- R188–R195: X.SEND puts a message into the mesh, X.RECV takes the oldest that matches; MESSAGE_ARRIVAL accepts it, refuses it where 56
wait, or turns it back where the role epoch differs; MESSAGE_RESEND sends a refused one again; RETURN_ARRIVAL holds a returned one for
its sender and counts it; ROLE_ASSIGNMENT and RELEASE are the writes of QRE_ROLE and QRE_STR_CTL.RELEASE that a function may make. -/
def Obligations.MessagesAndRoles : Prop :=
  (∀ q st w s s1,
    let h := (stream s1 q st).s w.f1.toNat
    let a := (stream s1 q st).s w.f2.toNat
    let x := quire s1 q
    (Alone s q st sendOp w s1 → bits h 7 6 = 0 → bits h 31 16 = 0 → deckleOfQuire s1 (bits h 5 0) = deckleOfQuire s1 q → SpadOperand a 64 →
      meshOf s1 q + x.returns.length < 8 → x.upsets = [] → spadBad s1 q a 64 = false →
      ∃ z, exec (.xSend q st w) s = .next (settleQuire (settleQuire z q) q)
        ∧ z.mesh = s1.mesh ++ [{
            src := q, dst := bits h 5 0
            msg := ⟨q, st, bits h 15 8, false, bits h 63 32, x.epoch, w.low.getLsbD 21, (stream s1 q st).nextSeq, spadBytes s1 q a 64⟩ }])
    ∧ (∀ i m, let src := if w.low.getLsbD 20 then x.returns else x.arrivals
      Alone s q st recvOp w s1 → (stream s1 q st).s (f3Of w) < 256 → SpadOperand h 64 → m.payload.length = 64 → x.upsets = [] →
      findIx (fun (m : Msg) => w.low.getLsbD 22 || m.tag == (stream s1 q st).s (f3Of w)) src = some i → src[i]? = some m →
      ∃ z, exec (.xRecv q st w) s = .next (settleQuire (settleQuire z q) q) ∧ spadBytes z q h 64 = m.payload
        ∧ (w.f2.toNat ≠ 0 → sval z q st w.f2.toNat = BitVec.ofNat 64 (headerWord m))
        ∧ (if w.low.getLsbD 20 then (quire z q).returns else (quire z q).arrivals) = dropNth src i))
  ∧ (∀ src dst s i m, s.dram.upsets = [] →
    findIx (fun (m : MeshMsg) => m.src == src && m.dst == dst && !m.isReturn) s.mesh = some i → s.mesh[i]? = some m →
    let x := quire s dst
    (m.refused = false → m.msg.epoch ≠ x.epoch →
      exec (.messageArrival src dst) s = .next { s with mesh := dropNth s.mesh i ++ [{ m with isReturn := true }] })
    ∧ (m.refused = false → m.msg.epoch = x.epoch → 56 ≤ x.arrivals.length →
      exec (.messageArrival src dst) s = .next { s with mesh := setNth s.mesh i { m with refused := true } })
    ∧ (m.refused = false → m.msg.epoch = x.epoch → x.arrivals.length < 56 →
      ∃ z, exec (.messageArrival src dst) s = .next (mailbox src (mailbox dst z)) ∧ z.mesh = dropNth s.mesh i
        ∧ (quire z dst).arrivals = x.arrivals ++ [m.msg])
    ∧ exec (.messageResend src dst) s = .next { s with mesh := setNth s.mesh i { m with refused := false } })
  ∧ (∀ q s i m, s.dram.upsets = [] → findIx (fun (m : MeshMsg) => m.src == q && m.isReturn) s.mesh = some i → s.mesh[i]? = some m →
    let x := quire s q
    m.msg.senderEpoch = x.epoch → m.msg.bfault = false → x.returns.length < 8 →
    ∃ z, exec (.returnArrival q) s = .next (mailbox q z) ∧ z.mesh = dropNth s.mesh i ∧ (quire z q).bounced = satInc 32 x.bounced 1
      ∧ (quire z q).returns = x.returns ++ [{ m.msg with quire := m.dst, bounced := true }] ∧ (quire z q).dropped = x.dropped)
  ∧ (∀ fn p value s q, (phys s p).logical = some q →
    (reaches s fn .qreRole p 0 = true →
      let s0 := regEffect s fn .qreRole p 0 (2 ^ (regRow .qreRole).width - 1) value.toNat
      let x := quire s0 q
      (phys s0 p).logical = some q →
      ((deckleOfQuire s0 q).isSome = true → (phys s0 p).fenced = false → (∀ st, st < 8 → (x.stream st).state = .idle) →
        (∀ f ∈ x.flights, f.part ≠ .mboxSend) →
        ∃ z, exec (.roleAssignment fn p value) s = .next (mailbox q z) ∧ (quire z q).role = bits value.toNat 1 0
          ∧ (quire z q).epoch = (x.epoch + 1) % 2 ^ 32 ∧ (quire z q).arrivals = [] ∧ (quire z q).returns = []
          ∧ (quire z q).dropped = satInc 32 x.dropped x.returns.length ∧ (quire z q).reject = false
          ∧ z.mesh = s0.mesh ++ x.arrivals.map (fun m => { src := m.quire, dst := q, isReturn := true, msg := m }))
      ∧ ((∃ st, st < 8 ∧ (x.stream st).state ≠ .idle) →
        exec (.roleAssignment fn p value) s = .next (setQuire s0 q { x with reject := true })))
    ∧ (∀ st, reaches s fn .qreStrCtl p 0 = true → st < 8 → bits value.toNat 15 8 = 2 ^ st →
      let s0 := regEffect s fn .qreStrCtl p 0 (2 ^ (regRow .qreStrCtl).width - 1) value.toNat
      (phys s0 p).logical = some q → (stream s0 q st).state = .faulted → (stream s0 q st).leaving = false →
      (∀ t ∈ (quire s0 q).tiles, t.owner ≠ st) →
      ∃ z, exec (.release fn p value) s = .next z ∧ (stream z q st).state = .idle ∧ (stream z q st).sregs = startRegs q st 0 0 0
        ∧ (stream z q st).vregs = [] ∧ ∀ r, r ≠ st → stream z q r = stream s0 q r))
/-! ### Serving and hashing (R201–R229, R162) -/

/-- The table entry of a C. instruction. -/
def ctxOp (sub : Nat) (f2 f3 f4 : Slot) (opt : Nat) : Op :=
  { maj := 0x28, sub := sub, f1 := .s, f2 := f2, f3 := f3, f4 := f4, opt := opt, ord := true, gates := [6], effect := true }

/-- The 128 bytes of a C.ATTACH block are well formed (Table 07.3). -/
def AttachBlock (b : List Byte) : Prop :=
  fieldAt b 0 4 = 0x31414351 ∧ fieldAt b 4 1 ≤ 1 ∧ 10 ≤ fieldAt b 5 1 ∧ fieldAt b 5 1 ≤ 24 ∧ fieldAt b 7 1 = 0
    ∧ allZero (sliceB b 0x14 12) = true ∧ allZero (sliceB b 0x38 72) = true ∧ fieldAt b 0x30 8 % 64 = 0

/-- C.ATTACH of the block at F3 finds an IDLE context, a LOADED model and enabled pools, reads a well-formed block `b`, may write the token
buffer, and takes the directory `dir`, which leaves `u3`. -/
def Attaches (s1 u : State) (q st : Nat) (w : IWord) (b : List Byte) (dir : Nat) (u3 : State) : Prop :=
  let a := (stream s1 q st).s w.f1.toNat
  let m := (stream s1 q st).s w.f2.toNat
  let b3 := (stream s1 q st).s (f3Of w)
  let d := dkOf s1 q
  a < 4096 ∧ (ctxOf s1 a).state = .idle ∧ m < 16 ∧ b3 % 64 = 0 ∧ AttachBlock b
    ∧ ∃ u1 u2, dkRead (consumeLines u q [(b3, 128)]) d .ctx b3 128 = (u1, .ok b)
      ∧ dkProbe u1 d .ctx true (fieldAt b 0x30 8) (4 * 2 ^ fieldAt b 5 1) = (u2, none)
      ∧ meetsProt u2 d (fieldAt b 0x30 8) (4 * 2 ^ fieldAt b 5 1) = false
      ∧ (modelOf u2 d m).state = .loaded ∧ fget u2 .ctxPoolCtl 0 0 d = 1 ∧ allocUnit u2 d 2 = some (dir, u3)

/-- The context that C.ATTACH of the block `b` makes (Table 07.3). -/
def attached (b : List Byte) (d model dir : Nat) : Ctx :=
  let temp := fieldAt b 8 4
  let topp := fieldAt b 12 4
  { state := .resident, deckle := d, model := model, compring := fieldAt b 6 1, tokcap := fieldAt b 5 1, dir := dir
    tokbuf := fieldAt b 0x30 8, mode := if 0 < temp ∧ temp < 0x7F800000 then fieldAt b 4 1 else 0, temp := temp
    topp := if 0 < topp ∧ topp ≤ 0x3F800000 then topp else 0x3F800000, topk := min (fieldAt b 16 2) 1024
    chunk := if fieldAt b 18 2 = 0 then 1 else min (fieldAt b 18 2) 4096
    stops := [fieldAt b 0x20 4, fieldAt b 0x24 4, fieldAt b 0x28 4, fieldAt b 0x2C 4] }

/-- R204, R207, R213, R214, R218, R220: C.ATTACH of a sound block makes the context RESIDENT on an empty directory; C.STEP closes the open
step and opens one with the ACTIVE contexts in READY_SEQ order; C.SAMPLE of a context that the step samples takes the FP and TRN pipes and asks for its block; C.SWAP
starts a move, or ends at once where the context stands there already; a greedy draw is the lowest index of the largest logit. -/
def Obligations.ServingInstructions : Prop :=
  ∀ q st w s s1,
    let n := (stream s1 q st).nextSeq
    let a := (stream s1 q st).s w.f1.toNat
    let b2 := (stream s1 q st).s w.f2.toNat
    let b3 := (stream s1 q st).s (f3Of w)
    let d := dkOf s1 q
    let u := advance s1 q st w
    let y := ctxOf s1 a
    (∀ b dir u3, Alone s q st (ctxOp 0 .s .s .none 0) w s1 → Attaches s1 u q st w b dir u3 →
      let v := ctxPut u3 d dir (zeros 8192)
      exec (.cAttach q st w) s = .next (settleQuire (dropFlight (setModel (setCtx v a (attached b d b2 dir)) d b2
        { modelOf v d b2 with binds := (modelOf v d b2).binds + 1 }) q st n) q))
    ∧ (Alone s q st (ctxOp 1 .s .sw .none 0) w s1 → 1 ≤ b2 → b2 ≤ 1024 → SpadOperand a (32 * b2) →
      let c1 := closeStep u q st true
      let ready := readyCtxs c1 d (fun x => x.state == .active && !x.instep)
      (ready = [] → (stream c1 q st).state = .running → exec (.cStep q st w) s = .next (settleQuire (wrS (dropFlight (setStream c1 q st
          { stream c1 q st with step := some [] }) q st n) q st (f3Of w) 0) q))
      ∧ (∀ c u1, ready = [c] → fget c1 .ctxGsts 10 0 < 1024 → 0 < tokensOf (ctxOf c1 c) →
        let x := ctxOf c1 c
        let kvb := (modelOf c1 d x.model).kvb
        let tok := tokensOf x
        let lo := x.position * kvb / 65536
        let hi := ((x.position + tok) * kvb - 1) / 65536
        let smp := tok == x.pendingIn && decide (x.genLimit > 0)
        hi < 2 ^ 20 → mapFolios c1 c ((List.range (hi + 1 - lo)).map (· + lo)) = (u1, .ok) → (stream u1 q st).state = .running →
        ∃ z, exec (.cStep q st w) s = .next (settleQuire (wrS z q st (f3Of w) 1) q)
          ∧ (stream z q st).step = some [{ ctx := c, inTokens := tok, samples := smp, drawn := none }]
          ∧ (ctxOf z c).instep = true ∧ (ctxOf z c).sampled = false
          ∧ spadNum z q a 2 = c % 65536 ∧ spadNum z q (a + 4) 4 = tok % 2 ^ 32 ∧ spadNum z q (a + 3) 1 = b2n smp
          ∧ spadNum z q (a + 8) 8 = x.position % 2 ^ 64 ∧ spadNum z q (a + 24) 8 = (ctxOf u1 c).dir % 2 ^ 64))
    ∧ (Alone s q st (ctxOp 2 .s .s .sw 0) w s1 → 1 ≤ b3 → b3 ≤ 262144 → a < 4096 → y.state ≠ .idle → y.deckle = d → SpadOperand b2 (4 * b3) →
      (quire s1 q).pipeBusy &&& 5 = 0 → (∃ es e, (stream s1 q st).step = some es ∧ e ∈ es ∧ e.ctx = a ∧ e.samples = true) → y.sampled = false → y.sampling = false →
      s1.rng.failed = false →
      ∃ z, exec (.cSample q st w) s = .next (settleQuire z q) ∧ (ctxOf z a).sampling = true
        ∧ (quire z q).pipeBusy &&& 5 = 5 ∧ (drbg z 0).queue = (drbg s1 0).queue ++ [{ who := .stream q st n }]
        ∧ ∃ f ∈ (quire z q).flights, f.stream = st ∧ f.seq = n ∧ f.phase = .drawing 1 [])
    ∧ (Alone s q st (ctxOp 3 .none .none .none (maskOf 22 22)) w s1 → a < 4096 → y.state ≠ .idle → y.deckle = d → y.moving = false →
      let toHbm := w.low.getLsbD 22
      let u := consumeLines u q ((foliosOf s1 a).map (fun p => (p.2.2 / 65536 * 65536, 65536)))
      (∀ v, (if toHbm then y.state = .swapped else y.state = .resident) → startMove u a toHbm (some (q, st, n)) = some v →
        exec (.cSwap q st w) s = .next (settleQuire (putFlight v q
          { newFlight s1 q st w (ctxOp 3 .none .none .none (maskOf 22 22)) with phase := .transfer }) q)
        ∧ (ctxOf v a).state = .swapped ∧ (ctxOf v a).moving = true ∧ (ctxOf v a).moveIn = toHbm)
      ∧ ((if toHbm then y.state ≠ .swapped else y.state = .swapped) → exec (.cSwap q st w) s = .next (settleQuire (dropFlight u q st n) q)))
    ∧ (∀ (x : Ctx) (logits : List Nat) r, x.mode = 0 → logits ≠ [] → (∀ l ∈ logits, ∃ g m e, decodeF fp32 l = .fin g m e) →
      let t := sampleToken x logits r
      t < logits.length ∧ ∀ i, i < logits.length →
        cmpF (decodeF fp32 (nth 0 logits t)) (decodeF fp32 (nth 0 logits i)) ≠ .lt
          ∧ (i < t → cmpF (decodeF fp32 (nth 0 logits i)) (decodeF fp32 (nth 0 logits t)) = .lt))

/-- R220–R222, R229: SWAP_END moves the folios and makes a context that came in ACTIVE or RESIDENT; AUTO_SWAP_OUT moves the RESIDENT context
with the lowest LAST_STEP out below LOW, AUTO_SWAP_IN the longest-waiting SWAPPED one in; POOL_ENABLE and POOL_DISABLE. -/
def Obligations.SwapEngineAndPools : Prop :=
  (∀ c s, let x := ctxOf s c
    x.moving = true → x.detachLater = [] →
    ∃ z, exec (.swapEnd c) s = .next (match x.mover with
        | some (q, st, n) => settleQuire (dropFlight z q st n) q
        | none => z)
      ∧ (ctxOf z c).moving = false ∧ (ctxOf z c).reserved = [] ∧ (ctxOf z c).mover = none
      ∧ (ctxOf z c).state = (if x.moveIn then (if 0 < x.pendingIn then .active else .resident) else x.state))
  ∧ (∀ d s v c, deckleExists s d = true → fget s .ctxSwpCtl 1 1 d = 1 → poolFree s d 0 < fget s .ctxSwpCtl 30 8 d →
    (∀ e ∈ s.serving.ctxs, ¬ (e.2.deckle = d ∧ e.2.moving = true)) →
    s.serving.ctxs.filter (fun e => e.2.deckle == d && e.2.state == .resident && !e.2.instep) = [(c, ctxOf s c)] →
    startMove s c false none = some v →
    ∃ z, exec (.autoSwapOut d) s = .next z ∧ z.serving.ctxs = v.serving.ctxs ∧ d ∈ z.serving.autoOut)
  ∧ (∀ d s v c rest, deckleExists s d = true → fget s .ctxSwpCtl 0 0 d = 1 →
    readyCtxs s d (fun x => x.state == .swapped && !x.moving && decide (x.pendingIn > 0)) = c :: rest →
    (foliosOf s c).length + fget s .ctxSwpCtl 30 8 d ≤ poolFree s d 0 → startMove s c true none = some v →
    exec (.autoSwapIn d) s = .next v)
  ∧ (∀ fn d value s, reaches s fn .ctxPoolCtl d 0 = true →
    let s0 := regEffect s fn .ctxPoolCtl d 0 (2 ^ (regRow .ctxPoolCtl).width - 1) value.toNat
    (value.getLsbD 0 = true → deckleExists s0 d = true → fget s0 .ctxPoolCtl 0 0 d = 0 → poolsOk s0 d = true →
      ∃ z, exec (.poolEnable fn d value) s = .next z ∧ rget z .ctxPoolCtl d = 1
        ∧ poolFree z d 0 = poolCnt s0 d 0 % 2 ^ 24 ∧ poolFree z d 2 = poolCnt s0 d 2 % 2 ^ 16
        ∧ (⟨.pool, poolBase s0 d 2, poolCnt s0 d 2 * 8192, false⟩ : Prot) ∈ (deckle z d).prot)
    ∧ (value.getLsbD 0 = true → deckleExists s0 d = true → fget s0 .ctxPoolCtl 0 0 d = 0 → poolsOk s0 d = false →
      exec (.poolEnable fn d value) s = .next (fset s0 .ctxPoolCtl 1 1 1 d))
    ∧ (value.getLsbD 0 = true → deckleExists s0 d = true → fget s0 .ctxPoolCtl 0 0 d = 1 →
      exec (.poolEnable fn d value) s = .next (fset s0 .ctxPoolCtl 1 1 0 d))
    ∧ (value.getLsbD 0 = false → fget s0 .ctxPoolCtl 0 0 d = 0 → exec (.poolDisable fn d value) s = .next (fset s0 .ctxPoolCtl 1 1 0 d))
    ∧ (value.getLsbD 0 = false → fget s0 .ctxPoolCtl 0 0 d = 1 → (∀ e ∈ s0.serving.ctxs, e.2.deckle = d → e.2.state = .idle) →
      ∃ z, exec (.poolDisable fn d value) s = .next z ∧ rget z .ctxPoolCtl d = 0 ∧ rget z .ctxPoolFree d = 0
        ∧ ∀ p ∈ (deckle z d).prot, p.kind ≠ .pool))

/-- The table entry of a K. instruction. -/
def keyOp (w : IWord) (sub : Nat) (f4 : Slot) : Op :=
  { maj := 0x26, sub := sub, f1 := .s, f2 := .s, f3 := .s, f4 := f4, opt := if sub = 1 then maskOf 22 21 else 0
    codes := sub != 1 || optF w 22 21 != 3, gates := [7], effect := true }

/-- R162: K.SHA writes the SHA-256 of its source, K.SHAKE as many bytes of SHAKE128 as asked, K.AES the source under the key its handle
names.  That the handle names a transport key, and the counter block or IV as a free value, are the model's (log entries 20, 21). -/
def Obligations.HashingAndCiphering : Prop :=
  ∀ q st w s s1,
    let dst := (stream s1 q st).s w.f1.toNat
    let src := (stream s1 q st).s w.f2.toNat
    let n := (stream s1 q st).s (f3Of w)
    let m := (stream s1 q st).s (f4Of w)
    let u := advance s1 q st w
    let bs := spadBytes s1 q src n
    let fits (a k : Nat) : Prop := a < spadSize ∧ a + k ≤ spadSize
    (quire s1 q).upsets = [] → spadBad s1 q src n = false → fits src n →
    (Alone s q st (keyOp w 0 .none) w s1 → fits dst 32 → exec (.kSha q st w) s = .next (settleQuire (spadWrite u q dst (sha256 bs)) q))
    ∧ (Alone s q st (keyOp w 2 .s) w s1 → fits dst m → exec (.kShake q st w) s = .next (settleQuire (spadWrite u q dst (shake128 bs m)) q))
    ∧ (∀ key, Alone s q st (keyOp w 1 .s) w s1 → fits dst n → keyOf s1 q m = some key →
      let v := (takeFree u).1
      exec (.kAes q st w) s = .next (settleQuire (spadWrite (takeFree u).2 q dst
        (if optF w 22 21 = 0 then aesCtr key (leBytes 16 v) bs else gcmCrypt (aesKeys key) (leBytes 12 v) bs)) q))
/-! ### Work rings and requests (R354–R368) -/

/-- The value a register shows after a whole-register write command of function `fn`, before the command's own action. -/
def written (s : State) (fn : Nat) (r : Reg) (k : Nat) (value : Word) : State :=
  regEffect s fn r k 0 (2 ^ (regRow r).width - 1) value.toNat

/-- Descriptor `id` of ring `r` is `d`, has started, is not yet busy and carries opcode `op`, the device serves requests, and
its DMA channel carries it (R366, R367). -/
def Started (s : State) (r id op : Nat) (d : Desc) : Prop :=
  findDesc s r id = some d ∧ serves s = true ∧ d.started = true ∧ d.busy = false ∧ opOf d = op ∧ carries s r d = true

/-- A host DMA read of `n` bytes at a deckle address is admitted whole, meets no poison, and leaves `s2` with the bytes `bs` (R316, R337). -/
def CleanRead (s : State) (k src n : Nat) (s2 : State) (bs : List Byte) : Prop :=
  let rd := reach (reachTouch s k src n) k .hostDma false src n
  rd.bad = none ∧ s2 = segsTouch (reachTouch s k src n) (viaOf k .hostDma) rd.segs ∧ bs = segsRead s2 rd.segs
    ∧ poisonOffs rd.segs (s2.dram.poison.map (fun c => (c, cwSize c))) = []

/-- R354–R360, R365: doorbells move the indices or halt the ring; RING_ENABLE and RING_DISABLE take a ring through Table 12.4; HALT_CLEAR
lets channels go; a fetch tracks the next descriptor of the ring whose turn it is; a start marks it or completes it with what its header gives; INTERRUPT_TIMER
signals the completion ring; NOP completes its descriptor with a 32-byte record. -/
def Obligations.WorkRings : Prop :=
  ∀ s r, let x := ring s r
    (∀ fn (v : Word32), reaches s fn .hqiRingDb r 0 = true → x.state = .active →
      (subMod (2 ^ 32) v.toNat x.ci ≤ 2 ^ fget s .hqiRingCfg 11 8 r → exec (.doorbell fn r v) s = .next (setRing s r { x with pi := v.toNat }))
      ∧ (2 ^ fget s .hqiRingCfg 11 8 r < subMod (2 ^ 32) v.toNat x.ci →
        ∃ t, exec (.doorbell fn r v) s = .next t ∧ (ring t r).reason = 1 ∧ (ring t r).state ≠ .active))
    ∧ (∀ fn (v : Word32), reaches s fn .hqiCqDb r 0 = true →
      (subMod (2 ^ 32) x.cqPi x.cqHead < subMod (2 ^ 32) v.toNat x.cqHead → exec (.completionDoorbell fn r v) s = .next (fset s .hqiCqSts 48 48 1 r))
      ∧ (subMod (2 ^ 32) v.toNat x.cqHead ≤ subMod (2 ^ 32) x.cqPi x.cqHead → (∀ e ∈ s.host.recQueue, e.ring ≠ r) →
        exec (.completionDoorbell fn r v) s = .next (setRing s r { x with cqHead := v.toNat })))
    ∧ (∀ fn (v : Word), reaches s fn .hqiRingCfg r 0 = true → let s0 := written s fn .hqiRingCfg r v
      let c := rget s0 .hqiRingCfg r
      (v.getLsbD 0 = true → x.state = .disabled → 4 ≤ bits c 11 8 → bits c 11 8 ≤ 16 → 4 ≤ fget s0 .hqiCqCfg 51 48 r →
        fget s0 .hqiCqCfg 51 48 r ≤ 16 → bits c 20 16 ≤ 16 → (bit c 1 = true ∨ bit c 2 = true) →
        ∃ t, exec (.ringEnable fn r v) s = .next t ∧ (ring t r).state = .active ∧ (ring t r).reason = 0 ∧ (ring t r).pi = 0 ∧ (ring t r).ci = 0
          ∧ (ring t r).cqPi = 0 ∧ (ring t r).cqHead = 0 ∧ (ring t r).vsel = (if bit c 2 then 2 else 1) ∧ fget t .hqiRingCfg 0 0 r = 1)
      ∧ (v.getLsbD 0 = false → x.state = .active → ∃ t, exec (.ringDisable fn r v) s = .next t ∧ fget t .hqiRingCfg 0 0 r = 0
          ∧ (ring t r).state = if x.tracked.isEmpty then .disabled else .draining))
    ∧ (∀ fn f (v : Word), reaches s fn .hqiFnSts f 0 = true → let s0 := regEffect s fn .hqiFnSts f 0 (2 ^ 64 - 1) v.toNat
      exec (.haltClear fn f v) s = .next (rset s0 .hqiFnSts (andNot (rget s0 .hqiFnSts f) (v.toNat &&& 3)) f))
    ∧ (∀ left, serves s = true → r < 256 →
      ((vfHidden s (ringFn s r) = false ∧ x.state = .active ∧ x.ci ≠ x.pi ∧ (func s (ringFn s r)).busMaster = true
          ∧ (func s (ringFn s r)).d3hot = false ∧ (func s (ringFn s r)).tdi ≠ .locked ∧ (func s (ringFn s r)).tdi ≠ .error ∧ trackedAll s < 32768
          ∧ x.tracked.length < min 4096 (max 1 (fget s .hqiRingCfg 44 32 r)) ∧ cqFree s r ≠ 0 ∧ s.host.turn = (r, left) ∧ left ≠ 0)
        ∨ servedNext s = some (r, left)) →
      let b := hostRead s (fget s .hqiRingBase 63 12 r * 4096 + 64 * (x.ci % 2 ^ fget s .hqiRingCfg 11 8 r)) 64
      (∃ t d, exec (.descriptorFetch r true) s = .next t ∧ (ring t r).ci = (x.ci + 1) % 2 ^ 32 ∧ (ring t r).tracked = x.tracked ++ [d]
        ∧ d.id = s.host.nextId ∧ t.host.turn = (r, left - 1) ∧ d.bytes = b ∧ d.started = false
        ∧ d.deckle = (if ringFn s r = 0 then fieldAt b 3 1 else ringFn s r - 1))
      ∧ (∃ t, exec (.descriptorFetch r false) s = .next t ∧ (ring t r).reason = 2 ∧ (ring t r).state ≠ .active))
    ∧ (∀ id d, findDesc s r id = some d → serves s = true → d.started = false → (x.state = .active ∨ x.state = .draining) → heldBack x d = false →
      (usesChannel d = true → channelHalted s r = false) →
      let s1 := setDesc { s with host.starts := s.host.starts + 1 } r { d with started := true, order := s.host.starts }
      let ends (status code : Nat) : Host.Outcome State Fault Refusal :=
        .next (complete (if opOf d = 5 then dropObj s1 d.deckle (par d 0x28 8) (some r) else s1) r id status code 0)
      (ringFn s r = 0 → s.sealed = true → exec (.descriptorStart r id) s
        = (if opOf d ≠ 0 then ends 0 3 else if headerOk d true then .next s1 else ends 0 1))
      ∧ (¬ (ringFn s r = 0 ∧ s.sealed = true) → (headerOk d (ringFn s r == 0) = true → d.deckle < 16 → (deckle s d.deckle).phase = .active → exec (.descriptorStart r id) s = .next s1)
      ∧ (headerOk d (ringFn s r == 0) = false → exec (.descriptorStart r id) s = ends 0 1)
      ∧ (headerOk d (ringFn s r == 0) = true → (16 ≤ d.deckle ∨ (deckle s d.deckle).phase = .none) →
          exec (.descriptorStart r id) s = ends 0 3)
      ∧ (headerOk d (ringFn s r == 0) = true → d.deckle < 16 → (deckle s d.deckle).phase ≠ .active → (deckle s d.deckle).phase ≠ .none →
          exec (.descriptorStart r id) s = ends 8 0)))
    ∧ (x.unsignalled ≠ 0 → fget s .hqiCqCfg 41 32 r ≠ 0 → x.state ≠ .disabled →
      (fget s .hqiCqCfg 0 0 r = 0 → exec (.interruptTimer r) s = .next s)
      ∧ (fget s .hqiCqCfg 0 0 r = 1 → ∃ t, exec (.interruptTimer r) s = .next t ∧ (ring t r).unsignalled = 0
        ∧ ((func s (ringFn s r)).msixEnable = true → (func s (ringFn s r)).d3hot = false → fget s .hqiCqCfg 8 4 r < msixSize (ringFn s r) →
          (func s (ringFn s r)).unmasked.contains (fget s .hqiCqCfg 8 4 r) = true →
          t.out = s.out ++ [.msix (ringFn s r) (fget s .hqiCqCfg 8 4 r)])))
    ∧ (∀ id d, Started s r id 0 d → d.dropped = false → x.state = .active → ¬ (d.version = 2 ∧ bit (fieldAt d.bytes 1 1) 2 = true) →
      let at_ := fget s .hqiCqBase 63 12 r * 4096 + 32 * (x.cqPi % cqSize s r)
      ∃ t, exec (.nop r id) s = .next t ∧ (∀ e ∈ (ring t r).tracked, e.id ≠ id) ∧ (ring t r).cqPi = (x.cqPi + 1) % 2 ^ 32
        ∧ leNat (hostRead t at_ 8) = (if d.version = 1 then fieldAt d.bytes 8 4 else fieldAt d.bytes 8 8) % 2 ^ 64
        ∧ hostRead t (at_ + 8) 3 = [0#8, 0#8, 0#8] ∧ hostRead t (at_ + 11) 1 = [if x.cqPi / cqSize s r % 2 = 0 then 1#8 else 0#8]
        ∧ leNat (hostRead t (at_ + 12) 2) = r % 65536 ∧ hostRead t (at_ + 14) 18 = zeros 18
        ∧ (∀ a, a < at_ ∨ at_ + 32 ≤ a → hostRead t a 1 = hostRead s a 1) ∧ t.dram = s.dram ∧ t.quires = s.quires)

/-- R133, R140, R141, R363, R366–R368, R472: DISPATCH starts an IDLE stream at its entry with the registers of Table 05.2; LOAD copies a good
image, protects and measures it and answers its handle; UNLOAD withdraws it; DMA moves bytes each way; MLOAD moves and hashes. -/
def Obligations.ProgramAndDataRequests : Prop :=
  ∀ s r id d, let k := d.deckle
    (Started s r id 1 d → let q := par d 0x13 1
      let want := par d 0x14 1
      let e := par d 0x12 1
      ∀ g st, q < 64 → deckleOfQuire s q = some k → (quire s q).role ≠ 0 → programAt s k (par d 0x10 2) = some g → e < g.entries.length →
      (if want = 0xFF then (List.range g.streams).find? (fun i => (stream s q i).state == .idle) = some st
        else want = st ∧ st ≤ 7 ∧ st < g.streams ∧ (stream s q st).state = .idle) →
      ∃ t, exec (.dispatch r id) s = .next t ∧ (stream t q st).state = .running ∧ (stream t q st).pc = nth 0 g.entries e
        ∧ (stream t q st).sregs = startRegs q st (par d 0x20 8) (g.base + g.constOff) (par d 0x10 2) ∧ (stream t q st).vregs = []
        ∧ (stream t q st).pregs = [] ∧ (stream t q st).desc = id ∧ (stream t q st).ring = r
        ∧ (∀ i, i ≠ st → stream t q i = stream s q i) ∧ t.dram = s.dram)
    ∧ (∀ bs v i s1 s2, Started s r id 2 d → let dst := par d 0x18 8
      let size := fieldAt bs 16 4
      let gen := ((((tfind (deckle v k).programs i).map (·.gen)).getD 0) + 1) % 1024
      bs.length = size → imageCheck bs = 0 → size % 64 = 0 → 256 ≤ size → size ≤ 67108864 →
      (par d 0x20 1 = 0 ∧ bs = hostRead s (par d 0x10 8) size ∧ s2 = s
        ∨ par d 0x20 1 = 1 ∧ dkRead s k .hostDma (par d 0x10 8) 128 = (s1, .ok (bs.take 128)) ∧ dkRead s1 k .hostDma (par d 0x10 8) size = (s2, .ok bs)) →
      writePrefix s2 k dst bs = (v, none) → fieldAt bs 0x25 1 ≤ (quiresOf v k).length → freeProgram v k = some i →
      ∃ t, exec (.load r id .ok) s = .next (complete t r d.id 0 0 (i + 64 * gen)) ∧ t.dram = v.dram
        ∧ tfind (deckle t k).programs i = some (programFrom bs gen dst (sha256 bs))
        ∧ (⟨.program, dst, size, false⟩ : Prot) ∈ (deckle t k).prot
        ∧ (⟨1, i + 64 * gen, leBytes 2 (i + 64 * gen) ++ zeros 2 ++ leBytes 4 size ++ zeros 8 ++ sha256 bs⟩ : Measure) ∈ (deckle t k).measures)
    ∧ (∀ g, Started s r id 3 d → programAt s k (par d 0x10 2) = some g →
      (∀ q ∈ quiresOf s k, ∀ st, st < 8 → (stream s q st).prog = par d 0x10 2 →
        (stream s q st).state ≠ .running ∧ (stream s q st).state ≠ .draining) →
      ∃ t, exec (.unload r id) s = .next (complete t r d.id 0 0 0) ∧ programAt t k (par d 0x10 2) = none
        ∧ (∀ p ∈ (deckle t k).prot, ¬ (p.kind = .program ∧ p.base = g.base))
        ∧ (∀ m ∈ (deckle t k).measures, ¬ (m.kind = 1 ∧ m.num = par d 0x10 2)))
    ∧ (Started s r id 4 d → let src := par d 0x10 8
      let dst := par d 0x18 8
      let n := par d 0x20 8
      n ≠ 0 → n ≤ 2 ^ 32 →
      (∀ v, par d 0x28 1 = 0 → writePrefix s k dst (hostRead s src n) = (v, none) → exec (.dma r id .ok) s = .next (complete v r d.id 0 0 n))
      ∧ (∀ v c p, par d 0x28 1 = 0 → writePrefix s k dst (hostRead s src n) = (v, some (c, p)) →
        exec (.dma r id .ok) s = .next (localReq v r d c p))
      ∧ (∀ s2 bs, par d 0x28 1 = 1 → CleanRead s k src n s2 bs →
        exec (.dma r id .ok) s = .next (complete (hostWrite s2 dst bs) r d.id 0 0 n))
      ∧ (∀ v, par d 0x28 1 = 2 → moveRange s k .hostDma src dst n = (v, n, none) →
        exec (.dma r id .ok) s = .next (complete v r d.id 0 0 n))
      ∧ (par d 0x28 1 = 0 → exec (.dma r id .refused) s = .next (complete s r d.id 3 0 0)
        ∧ exec (.dma r id .poisoned) s = .next (complete s r d.id 4 0 0)))
    ∧ (∀ v, Started s r id 5 d → let n := par d 0x20 8
      let obj := par d 0x28 8
      let bs := hostRead s (par d 0x10 8) n
      objElsewhere s k obj (some r) = false → objRoom s k obj (some r) = true → writePrefix s k (par d 0x18 8) bs = (v, none) →
      (par d 0x30 1 = 0 → exec (.mload r id .ok) s = .next (complete (extendObj v k obj (some r) bs) r d.id 0 0 0))
      ∧ (par d 0x30 1 = 1 → ((deckle v k).measures.filter (fun m => m.kind == 3)).length < 256 →
        ∃ t all, exec (.mload r id .ok) s = .next (complete t r d.id 0 0 0)
          ∧ all = (((findObj v k obj (some r)).bind (fun i => v.host.measured[i]?)).map (·.bytes)).getD [] ++ bs
          ∧ (⟨3, obj, leBytes 8 obj ++ leBytes 8 all.length ++ sha256 all⟩ : Measure) ∈ (deckle t k).measures))
/-- R205–R207, R224–R226: SUBMIT appends tokens and makes a RESIDENT context ACTIVE; CANCEL, DETACH and SETPARAM act at once outside a step;
MODEL_LOAD places its segments and MODEL_LOADED copies, measures and completes; MODEL_UNLOAD frees an unbound record. -/
def Obligations.ContextAndModelRequests : Prop :=
  ∀ s r id d, let k := d.deckle
    let c := par d 0x10 2
    let x := ctxOf s c
    let held : Prop := c < 4096 ∧ x.state ≠ .idle ∧ x.deckle = k
    (∀ n g bs s1 v1 v, Started s r id 0x10 d → held → n = par d 0x20 4 → g = par d 0x24 4 → 1 ≤ n → n ≤ 65536 →
      n + x.pendingIn ≤ 2 ^ x.tokcap → bs.length = 4 * n →
      (par d 0x28 1 = 0 ∧ bs = hostRead s (par d 0x18 8) (4 * n) ∧ s1 = s
        ∨ par d 0x28 1 = 1 ∧ dkRead s k .hostDma (par d 0x18 8) (4 * n) = (s1, .ok bs)) →
      let at_ := (x.position + x.pendingIn) % 2 ^ x.tokcap
      let n1 := min n (2 ^ x.tokcap - at_)
      writePrefix s1 k (x.tokbuf + 4 * at_) (bs.take (4 * n1)) = (v1, none) →
      (if n1 = n then v = v1 else writePrefix v1 k x.tokbuf (bs.drop (4 * n1)) = (v, none)) →
      ∃ t, exec (.submit r id .ok) s = .next (complete t r d.id 0 0 0) ∧ t.dram = v.dram ∧ (ctxOf t c).pendingIn = x.pendingIn + n
        ∧ (ctxOf t c).genLimit = g ∧ (ctxOf t c).state = (if x.state = .resident then .active else x.state)
        ∧ (x.state = .resident → (ctxOf t c).readySeq = tget 0 s.serving.readySeq 0))
    ∧ (Started s r id 0x11 d → held → x.instep = false → x.cancelLater = [] →
      exec (.cancel r id) s = .next (complete (setCtx s c { x with
        pendingIn := 0, genLimit := 0, state := if x.state = .active then .resident else x.state }) r d.id 0 0 0))
    ∧ (Started s r id 0x11 d → held → x.instep = true →
      ∃ t, exec (.cancel r id) s = .next t ∧ (ctxOf t c).cancelLater = x.cancelLater ++ [(r, d.id)] ∧ (ctxOf t c).stepStopped = true)
    ∧ (Started s r id 0x12 d → held → x.instep = true ∨ x.moving = true →
      ∃ t, exec (.detach r id) s = .next t ∧ (ctxOf t c).detachLater = x.detachLater ++ [(r, d.id)])
    ∧ (Started s r id 0x12 d → held → x.instep = false → x.moving = false → ∃ t, exec (.detach r id) s = .next t ∧ ctxOf t c = {})
    ∧ (Started s r id 0x13 d → held → par d 0x12 1 ≤ 1 → let temp := par d 0x14 4
      let topp := par d 0x18 4
      exec (.setparam r id) s = .next (complete (setCtx s c { x with
        mode := if 0 < temp ∧ temp < 0x7F800000 then par d 0x12 1 else 0, temp := temp
        topp := if 0 < topp ∧ topp ≤ 0x3F800000 then topp else 0x3F800000, topk := min (par d 0x1C 2) 1024
        stops := [par d 0x20 4, par d 0x24 4, par d 0x28 4, par d 0x2C 4] }) r d.id 0 0 0))
    ∧ (∀ bs s0 s1 hn ln gs, Started s r id 0x14 d → let m := par d 0x10 1
      let pt := par d 0x18 8
      let n := par d 0x38 4
      let hb := par d 0x20 8
      let lb := par d 0x28 8
      let hs := par d 0x30 4 * 65536
      let ls := par d 0x34 4 * 65536
      m ≤ 15 → (modelOf s k m).state = .free → 1 ≤ par d 0x14 4 → par d 0x14 4 ≤ 1048576 → 1 ≤ n → n ≤ 65536 → par d 0x11 1 ≤ 1 →
      dkProbe s k .hostDma false pt (64 * n) = (s0, none) → meetsProt s0 k pt (64 * n) = false → bs.length = 64 * n →
      dkRead s0 k .hostDma pt (64 * n) = (s1, .ok bs) →
      (∀ e ∈ chunksOf 64 n bs, fieldAt e 0x21 1 = 0 ∧ allZero (sliceB e 0x24 28) = true) →
      rangeOf s1 k (some false) hb hs = true → rangeOf s1 k (some true) lb ls = true → rangeTaken s1 k m (hb, hs) = false →
      rangeTaken s1 k m (lb, ls) = false → (∀ g ∈ segsOf n bs, g.tier ≤ 2 ∧ 1 ≤ g.bytes ∧ g.bytes ≤ 2 ^ 36) → hb % 65536 = 0 → lb % 65536 = 0 →
      assignSegs hb hs lb ls (segsOf n bs) = some (hn, ln, gs) →
      ∃ t, exec (.modelLoad r id) s = .next t ∧ (modelOf t k m).state = .loading ∧ (modelOf t k m).segs = gs
        ∧ (modelOf t k m).kvb = par d 0x14 4 ∧ (modelOf t k m).hbytes = hn - hb ∧ (modelOf t k m).lbytes = ln - lb ∧ t.dram = s1.dram)
    ∧ (∀ m, Started s r id 0x15 d → m = par d 0x10 1 → m ≤ 15 → (modelOf s k m).state = .loaded → (modelOf s k m).binds = 0 →
      ∃ t, exec (.modelUnload r id) s = .next (complete t r d.id 0 0 0) ∧ modelOf t k m = {}
        ∧ ∀ e ∈ (deckle t k).measures, ¬ (e.kind = 2 ∧ e.num = m))
    ∧ (∀ k m v gs, m ≤ 15 → (modelOf s k m).state = .loading → let y := modelOf s k m
      (∀ e, findDesc s y.ring y.desc = some e → carries s y.ring e = true) → copySegs k y.sspace .ok y.segs s [] = (v, gs, none) →
      ∃ t, exec (.modelLoaded k m .ok) s = .next (complete t y.ring y.desc 0 0 0) ∧ modelOf t k m = { y with state := .loaded, segs := gs }
        ∧ (⟨2, m, leBytes 1 m ++ zeros 3 ++ leBytes 4 gs.length ++ zeros 8
            ++ sha256 (gs.flatMap (fun g => leBytes 8 g.obj ++ leBytes 8 g.bytes ++ g.digest))⟩ : Measure) ∈ (deckle t k).measures)

/-- R231–R233, R258–R260, R303, R314, R315: the requests of the polynomial engine register and release bases and keys, RELEASE_DRAIN_END
completes a release and gives its ranges back, AGG_ABANDON releases an OPEN or BROKEN session; XLT_MAP maps pages that XLT_UNMAP removes,
completing once no X.WAIT or X.BAR waits on an address translated through one of them. -/
def Obligations.EngineAndTranslationRequests : Prop :=
  ∀ s r id d, let k := d.deckle
    (∀ bs b i s1 s2 s3, Started s r id 0x20 d → let rec_ := par d 0x10 8
      let area := par d 0x18 8
      let size := par d 0x20 8
      let y := polyOf s k
      (List.range 64).find? (fun i => !((tfind y.bases i).map (·.current)).getD false) = some i → rec_ % 64 = 0 →
      bs.length = 64 + 16 * (fieldAt bs 1 1 + fieldAt bs 2 1) → dkRead s k .poly rec_ 64 = (s1, .ok (bs.take 64)) →
      dkRead s1 k .poly rec_ bs.length = (s2, .ok bs) → parseBasis bs = some b → area % 65536 = 0 →
      basisAreaMin b.logn b.l b.k ≤ size → dkProbe s2 k .engine true area size = (s3, none) → meetsProt s3 k area size = false →
      let gen := (((tfind y.bases i).map (·.gen)).getD 0 + 1) % 1024
      ∃ t, exec (.basisRegister r id) s = .next (complete t r d.id 0 0 (i + 64 * gen))
        ∧ tfind (polyOf t k).bases i = some { b with current := true, gen := gen, area := area, areaSize := size }
        ∧ (⟨.basis, area, size, false⟩ : Prot) ∈ (deckle t k).prot)
    ∧ (∀ b, Started s r id 0x21 d → let i := par d 0x10 2
      basisAt s k i = some b → ∃ t, exec (.basisRelease r id) s = .next t ∧ basisAt t k i = none
        ∧ (∀ p ∈ (polyOf t k).keys, p.kind ≠ 4 → p.basis ≠ i)
        ∧ ∃ l, (polyOf t k).releases = (polyOf s k).releases ++ [⟨r, d.id, b.area :: l⟩])
    ∧ (∀ bs need lq s1 s2, Started s r id 0x22 d → let a := par d 0x10 8
      let size := par d 0x18 8
      let h := readKey bs
      let n := fieldAt bs 128 4
      let based (need : BasisSlot → Nat) (m : Nat) : Prop := ∃ b, basisAt s1 k h.basis = some b ∧ b.logn = h.logn ∧ 1 ≤ b.k ∧ m = need b
      (polyOf s k).keys.length < 256 → keyBytes s k a = (s1, .ok bs) → a % 64 = 0 → keySound bs = true →
      allZero (sliceB bs 74 54) = true →
      (h.kind ≤ 3 ∧ lq = 0 ∧ based (fun b => 128 + 8 * 2 ^ b.logn * ceilDiv b.l (max 1 b.alpha) * (b.l + b.k)) need
        ∨ h.kind = 4 ∧ gateOk bs = true ∧ need = gateSize (readGate bs) ∧ lq = log2x256 (readGate bs).q
        ∨ h.kind = 5 ∧ lq = 0 ∧ based (fun _ => 136 + 8 * n) need ∧ 1 ≤ n ∧ n ≤ 64 ∧ allZero (sliceB bs 132 4) = true
          ∧ ∀ m ∈ wordsOf (bs.drop 136), (polyOf s k).keys.any (fun p => p.addr == m) = true) →
      need ≤ size → keyProbe s1 k a size (if h.kind = 4 then some (16 * 2 ^ (readGate bs).logn) else none) = (s2, none) →
      meetsProt s2 k a size = false →
      ∃ t, exec (.keyRegister r id) s = .next (complete t r d.id 0 0 0)
        ∧ (polyOf t k).keys = (polyOf s k).keys ++ [⟨a, size, h.kind, h.keyset, h.basis, lq⟩]
        ∧ (⟨.key, a, size, false⟩ : Prot) ∈ (deckle t k).prot)
    ∧ (Started s r id 0x23 d → let a := par d 0x10 8
      (polyOf s k).keys.any (fun p => p.addr == a) = true →
      ∃ t, exec (.keyRelease r id) s = .next t ∧ (∀ p ∈ (polyOf t k).keys, p.addr ≠ a)
        ∧ (polyOf t k).releases = (polyOf s k).releases ++ [⟨r, d.id, [a]⟩])
    ∧ (∀ k n x, (polyOf s k).releases[n]? = some x →
      ∃ t, exec (.releaseDrainEnd k n) s = .next (complete t x.ring x.desc 0 0 0) ∧ (polyOf t k).releases = dropNth (polyOf s k).releases n
        ∧ ∀ p ∈ (deckle t k).prot, p ∈ (deckle s k).prot ∧ ¬ ((p.kind = .basis ∨ p.kind = .key) ∧ p.base ∈ x.ranges))
    ∧ (∀ x, Started s r id 0x28 d → let n := par d 0x10 1
      tfind s.sessions n = some x → x.deckle = k → (x.state = .opn ∨ x.state = .broken) →
      ∃ t, exec (.aggAbandon r id) s = .next (complete t r d.id 0 0 0)
        ∧ tfind t.sessions n = some { x with state := .releasing, logKey := [] } ∧ zeroRuns t 1 n = true)
    ∧ (∀ u, Started s r id 0x30 d → let va := par d 0x10 8
      let dpa := par d 0x18 8
      let big := par d 0x28 1 == 1
      let page := if big then 2097152 else 65536
      let n := par d 0x20 8
      xltOn s k = true → par d 0x28 1 ≤ 1 → par d 0x29 1 ≤ 1 → n ≠ 0 → n % page = 0 → va % page = 0 → dpa % page = 0 →
      va + n ≤ 2 ^ 40 → ownsRange s k dpa n = true → s.dram.mapped.any (fun m => overlaps m (dpa / 65536, n / 65536)) = false →
      mapObstacle (reachTouch s k va n) k va n = none →
      ((List.range (n / page)).map (fun i => (va + page * i, dpa + page * i))).foldlM (mapPage k big (par d 0x29 1 == 1))
        (reachTouch s k va n) = some u →
      exec (.xltMap r id) s = .next (complete { u with dram.mapped := addRange u.dram.mapped (dpa / 65536) (n / 65536) } r d.id 0 0 0))
    ∧ (∀ pages, Started s r id 0x31 d → let va := par d 0x10 8
      let n := par d 0x18 8
      let s1 := reachTouch s k va n
      let s2 := pages.foldl (unmapPage k) s1
      let used : Prop := ∃ w ∈ s2.waits, w.met = none ∧ ∃ p ∈ pages, overlaps p.2 (w.dpa, w.width) = true
      n ≠ 0 → pagesOf s1 k (n / 65536 + 1) va n = .inl pages → meetsProt s1 k va n = false →
      (¬ used → exec (.xltUnmap r id) s = .next (complete { s2 with
        dram.mapped := pages.foldl (fun m p => delRange m (p.2.1 / 65536) (p.2.2 / 65536)) s2.dram.mapped } r d.id 0 0 0))
      ∧ (used → exec (.xltUnmap r id) s = .next (setDesc s2 r { d with drain := pages.map (·.2), busy := true })))
    ∧ (findDesc s r id = some d → serves s = true → d.started = true → d.busy = true → opOf d = 0x31 →
      (∀ w ∈ s.waits, w.met = none → ∀ g ∈ d.drain, overlaps g (w.dpa, w.width) = false) →
      exec (.xltUnmap r id) s = .next (complete { s with
        dram.mapped := d.drain.foldl (fun m g => delRange m (g.1 / 65536) (g.2 / 65536)) s.dram.mapped } r d.id 0 0 0))

/-! ### Memory (R307–R345) -/

/-- The data of a DPA range. -/
def memBytes (s : State) (a n : Nat) : List Byte := tslice 0#8 s.dram.data a n

/-- R313, R319, R320, R333–R336, R338–R343: requests of one code word, the zero-fill of a fresh frame, the end of a zero engine's work, the
patrol's steps, TRANSLATION_ENABLE and TRANSLATION_DISABLE, the arming of a flip mask, and post-package repair. -/
def Obligations.MemoryCommands : Prop :=
  ∀ s, (∀ dpa b, dpaExists dpa = true → s.boot.ready = true → s.power.rails = true →
      s.dram.upsets = [] → s.dram.fresh = [] → findLine s { alloc := false } (lineOf (cwBase dpa)) = none →
      (decodeCw s (cwBase dpa) = .clean → ∃ t, exec (.controllerRequest dpa .read) s = .next t ∧ t.dram.data = s.dram.data
          ∧ t.dram.poison = s.dram.poison ∧ t.dram.errors = s.dram.errors)
      ∧ (∀ n, decodeCw s (cwBase dpa) = .corrected n → fget s .memFlipPos 56 56 (ctlOf (cwBase dpa)) = 0 →
        ∃ t, exec (.controllerRequest dpa .read) s = .next t ∧ decodeCw t (cwBase dpa) = .clean ∧ t.dram.data = s.dram.data
          ∧ t.dram.poison = s.dram.poison.filter (· != cwBase dpa))
      ∧ (b.length = cwSize dpa → fget s .memFlipPos 56 56 (ctlOf (cwBase dpa)) = 0 →
        ∃ t, exec (.controllerRequest dpa (.writeWhole b)) s = .next t ∧ memBytes t (cwBase dpa) (cwSize dpa) = b
          ∧ isPoison t (cwBase dpa) = false ∧ tget [] t.dram.errors (cwBase dpa) = []
          ∧ ∀ a, (a < cwBase dpa ∨ cwBase dpa + cwSize dpa ≤ a) → memBytes t a 1 = memBytes s a 1))
    ∧ (∀ f, inRanges s.dram.fresh f = true →
      ∃ t, exec (.zeroFill f) s = .next t ∧ inRanges t.dram.fresh f = false ∧ (∀ i, i < 65536 → memBytes t (f * 65536 + i) 1 = [0#8])
        ∧ (∀ c ∈ t.dram.poison, ¬ (f * 65536 ≤ c ∧ c < f * 65536 + 65536))
        ∧ ∀ a, (a < f * 65536 ∨ f * 65536 + 65536 ≤ a) → memBytes t a 1 = memBytes s a 1)
    ∧ (∀ e x, e < 8 → tfind s.zeros e = some x → x.why = 1 ∨ x.why = 4 → (∀ p ∈ s.zeros, p.1 < 8) → s.dram.fresh = [] →
      ∃ t, exec (.zeroRequestEnd e) s = .next t ∧ tfind t.zeros e = none
        ∧ ∀ g ∈ x.ranges, ∀ i, i < g.2 → memBytes t (g.1 + i) 1 = [0#8])
    ∧ (∀ c, c < 24 → fget s .memScrubCtl 0 0 ≠ 0 → s.boot.ready = true → s.power.rails = true →
      let x := ctl s c
      let cw := scrubDpa c (x.scrubPos % cwsOf c)
      s.dram.upsets = [] → ∃ t, exec (.patrolScrubRead c []) s = .next t ∧ (ctl t c).scrubPos = (if x.scrubPos + 1 < cwsOf c then x.scrubPos + 1 else 0)
        ∧ (ctl t c).passes = (if x.scrubPos + 1 < cwsOf c then x.passes else x.passes + 1)
        ∧ (isPoison s cw = true ∨ inRanges s.dram.fresh (cw / 65536) = true ∨ decodeCw s cw = .clean →
          t.dram.data = s.dram.data ∧ t.dram.poison = s.dram.poison ∧ t.dram.errors = s.dram.errors)
        ∧ (∀ n, isPoison s cw = false → inRanges s.dram.fresh (cw / 65536) = false → decodeCw s cw = .corrected n →
          t.dram.data = s.dram.data ∧ decodeCw t cw = .clean))
    ∧ (∀ fn d (v : Word), reaches s fn .memDctl d 0 = true → let s0 := regEffect s fn .memDctl d 0 (2 ^ (regRow .memDctl).width - 1) (v.toNat % 2 ^ 32)
      (v.getLsbD 0 = true → xltOn s0 d = false → deckleExists s0 d = true → 1 ≤ rget s0 .memXltSize d →
        ownsRange s0 d (xltBase s0 d) (xltSize s0 d) = true →
        ∃ t, exec (.translationEnable fn d v) s = .next t ∧ xltOn t d = true ∧ fget t .memDctl 2 2 d = 0
          ∧ (⟨.xlt, xltBase s0 d, xltSize s0 d, false⟩ : Prot) ∈ (deckle t d).prot)
      ∧ (v.getLsbD 0 = true → xltOn s0 d = false → rget s0 .memXltSize d = 0 → exec (.translationEnable fn d v) s = .next (fset s0 .memDctl 2 2 1 d))
      ∧ (v.getLsbD 0 = false → xltOn s0 d = true → anyMapped s0 d = true → exec (.translationDisable fn d v) s = .next (fset s0 .memDctl 2 2 1 d))
      ∧ (v.getLsbD 0 = false → xltOn s0 d = true → anyMapped s0 d = false →
        ∃ t, exec (.translationDisable fn d v) s = .next t ∧ xltOn t d = false ∧ (deckle t d).tables = []
          ∧ ∀ p ∈ (deckle t d).prot, ¬ (p.kind = .xlt ∧ p.base = xltBase s0 d)))
    ∧ (∀ fn c (v : Word), reaches s fn .memFlipPos c 0 = true → injectionOpen s fn = true → v.getLsbD 56 = true →
      ∃ t, exec (.flipArm fn c v) s = .next t ∧ fget t .memFlipPos 56 56 c = 1 ∧ fget t .memFlipAddr 63 63 c = 0 ∧ fget t .secSts 5 5 = 0)
    ∧ (∀ fn c (v : Word), reaches s fn .memPprCmd c 0 = true → fget s .memPprSts 0 0 c = 0 → v.getLsbD 63 = true →
      let s0 := written s fn .memPprCmd c v
      let a := bits v.toNat 33 0 * 64
      pprHere c a = true →
      (v.getLsbD 60 = false → c < 8 → ∃ t, exec (.soft fn c v) s = .next t ∧ fget t .memPprSts 0 0 c = 1 ∧ (ctl t c).pprSoft = some a)
      ∧ (v.getLsbD 60 = true → ∃ t, exec (.hard fn c ⟨v, false⟩) s = .next t ∧ fget t .memPprSts 2 1 c = 2
        ∧ (ctl t c).pendingHard = (ctl s0 c).pendingHard)
      ∧ (v.getLsbD 60 = true → (ctl s0 c).pendingHard.length < 255 →
        ∃ t, exec (.hard fn c ⟨v, true⟩) s = .next t ∧ fget t .memPprSts 2 1 c = 1 ∧ (ctl t c).pendingHard = (ctl s0 c).pendingHard ++ [a]))
    ∧ (∀ c spare a, (ctl s c).pprSoft = some a →
      ∃ t, exec (.softRepairEnd c spare) s = .next t ∧ fget t .memPprSts 0 0 c = 0 ∧ fget t .memPprSts 2 1 c = (if spare then 1 else 2)
        ∧ (ctl t c).pprSoft = none)

/-! ### Functions, BAR2 and BAR0 (R5–R7, R59, R346–R351, R373, R374, R592, R593) -/

/-- Work rings `0`–`255` of function `f`. -/
def FnRing (s : State) (f r : Nat) : Prop := r < 256 ∧ ringFn s r = f

/-- R351, R373, R374: a function-level reset disables the function's rings and clears its host-facing state and no other function's;
configuration requests are retried until the device is ready and then act; BAR2 accesses reach what the window and the translation give
and are refused, with a count, where a part of them is. -/
def Obligations.FunctionRequests : Prop :=
  ∀ s, (∀ f, 1 ≤ f → f ≤ 16 → s.boot.ready = true →
      ∃ t, exec (.flr f) s = .next t ∧ func t f = {} ∧ fget t .evtRingCfg 0 0 f = 0 ∧ fget t .hqiFnB2win 63 16 f = 0 ∧ fget t .hqiFnSts 1 0 f = 0
        ∧ (∀ r, ringFn s r = f → (ring t r).state = .disabled ∧ ∀ d ∈ (ring t r).tracked, d.dropped = true ∧ hasStarted d = true ∧ usesChannel d = false)
        ∧ (∀ r, ringFn s r ≠ f → ring t r = ring s r) ∧ (∀ g, g ≠ f → func t g = func s g)
        ∧ t.quires = s.quires ∧ t.deckles = s.deckles ∧ t.dram = s.dram ∧ t.izk = s.izk ∧ t.sessions = s.sessions)
    ∧ (s.boot.ready = true → ∃ t, exec (.flr 0) s = .next t ∧ t.host.vfOn = false ∧ (∀ f, f ≤ 16 → func t f = {}) ∧ t.deckles = s.deckles)
    ∧ (∀ fn a, fn ≤ 16 → s.power.rails = true → s.boot.pcieUp = true → (fn = 0 ∨ s.host.vfOn = true) →
      (s.boot.ready = false → s.boot.stopped = 0 → exec (.configurationRequest fn a) s = .next (emit s (.config fn none)))
      ∧ (s.boot.ready = true →
        (a = .readId → exec (.configurationRequest fn a) s
          = .next (emit s (.config fn (some (fget s .idnId 15 0 + 65536 * (if fn = 0 then 0x7600 else 0x7601))))))
        ∧ (a = .vfEnable true → fn = 0 → exec (.configurationRequest fn a) s = .next (emit { s with host.vfOn := true } (.config fn (some 0))))
        ∧ (a = .vfEnable false → fn = 0 →
          ∃ t, exec (.configurationRequest fn a) s = .next t ∧ t.host.vfOn = false ∧ (∀ f, 1 ≤ f → f ≤ 16 → func t f = {}) ∧ func t 0 = func s 0)
        ∧ (∀ on, a = .ats on → ∃ t, exec (.configurationRequest fn a) s = .next t ∧ func t fn = { func s fn with ats := on })
        ∧ (∀ on, a = .busMaster on → ∃ t, exec (.configurationRequest fn a) s = .next t ∧ func t fn = { func s fn with busMaster := on })
        ∧ (a = .msixEnable false → ∃ t, exec (.configurationRequest fn a) s = .next t ∧ func t fn = { func s fn with msixEnable := false })
        ∧ (∀ v, a = .msixMask v true → v < msixSize fn → ∃ t, exec (.configurationRequest fn a) s = .next t ∧ v ∉ (func t fn).unmasked)
        ∧ (∀ v, a = .msixMask v false → v < msixSize fn → v ∈ (func s fn).pendingVec → (func s fn).msixEnable = true → (func s fn).d3hot = false →
          ∃ t, exec (.configurationRequest fn a) s = .next t ∧ v ∈ (func t fn).unmasked ∧ v ∉ (func t fn).pendingVec ∧ .msix fn v ∈ t.out)
        ∧ (a = .readClass → exec (.configurationRequest fn a) s = .next (emit s (.config fn (some 0x120000))))
        ∧ (∀ vf i (v : Word32), a = .writeBar vf i v → fn = 0 → i < 4 → ∃ t, exec (.configurationRequest fn a) s = .next t
          ∧ exec (.configurationRequest 0 (.readBar vf i)) t = .next (emit t (.config 0 (some (if i = 0 then v.toNat / 2 ^ 26 * 2 ^ 26 + 4
            else if i = 1 then v.toNat else if i = 2 then 12 else v.toNat / 16 * 16)))))
        ∧ (∀ v, a = .writeDevCtl v → bit v.toNat 15 = false → ∃ t, exec (.configurationRequest fn a) s = .next t
          ∧ func t fn = { func s fn with devCtl := devCtlWrite (func s fn).devCtl v.toNat })
        ∧ (∀ v, a = .writeDevCtl v → bit v.toNat 15 = true → ∃ t, exec (.configurationRequest fn a) s = .next t ∧ func t fn = {})
        ∧ (∀ d3, a = .powerState d3 → ∃ t, exec (.configurationRequest fn a) s = .next t ∧ func t fn = { func s fn with d3hot := d3 })
        ∧ (∀ m, a = .clearAer m → ∃ t, exec (.configurationRequest fn a) s = .next t
          ∧ func t fn = { func s fn with aer := andNot (func s fn).aer m.toNat })
        ∧ (∀ i, a = .doeDiscovery i → fn = 0 → exec (.configurationRequest fn a) s = .next (emit s (.config fn (some (doeAnswer i)))))))
    ∧ (∀ fn off len, bar2Up s fn off len = true → let a := fget s .hqiFnB2win 63 16 fn * 65536 + off
      (fn = 0 → s.sealed = true →
        exec (.bar2Read fn off len) s = .next (emit (fadd s .hqiFnSts 63 32 1 fn) (.readData fn (zeros len) false)))
      ∧ (fn ≠ 0 → let s0 := reachTouch s (fn - 1) a len
        let g := reach s0 (fn - 1) .bar2 false a len
        let shut : Prop := vfHidden s0 fn = true ∨ (func s0 fn).tdi = .locked ∨ (func s0 fn).tdi = .error
        (shut ∨ (∃ o c, g.bad = some (o, c, none)) →
          exec (.bar2Read fn off len) s = .next (emit (fadd s0 .hqiFnSts 63 32 1 fn) (.readData fn (zeros len) false)))
        ∧ (∀ o c p, ¬ shut → g.bad = some (o, c, some p) →
          exec (.bar2Read fn off len) s = .next (emit (raisePoison s0 3 fn (some (fn - 1)) p) (.readData fn (zeros len) true)))
        ∧ (∀ s1, ¬ shut → g.bad = none → s1 = segsTouch s0 (bar2Via fn) g.segs →
          (segsPoison s1 g.segs = none → exec (.bar2Read fn off len) s = .next (emit s1 (.readData fn (segsRead s1 g.segs) false)))
          ∧ (∀ p, segsPoison s1 g.segs = some p →
            exec (.bar2Read fn off len) s = .next (emit (raisePoison s1 3 fn (ownerOf s1 p) p) (.readData fn (segsRead s1 g.segs) true))))))
    ∧ (∀ fn off data, bar2Up s fn off data.length = true → let a := fget s .hqiFnB2win 63 16 fn * 65536 + off
      (fn = 0 → s.sealed = true → exec (.bar2Write fn off data) s = .next (fadd s .hqiFnSts 63 32 1 fn))
      ∧ (fn ≠ 0 → let s0 := reachTouch s (fn - 1) a data.length
        let g := reach s0 (fn - 1) .bar2 true a data.length
        let shut : Prop := vfHidden s0 fn = true ∨ (func s0 fn).tdi = .locked ∨ (func s0 fn).tdi = .error
        (shut ∨ (∃ o c, g.bad = some (o, c, none)) → exec (.bar2Write fn off data) s = .next (fadd s0 .hqiFnSts 63 32 1 fn))
        ∧ (∀ o c p, ¬ shut → g.bad = some (o, c, some p) → exec (.bar2Write fn off data) s = .next (raisePoison s0 3 fn (some (fn - 1)) p))
        ∧ (¬ shut → g.bad = none → exec (.bar2Write fn off data) s = .next (segsWrite s0 (bar2Via fn) g.segs data))))

/-- Registers whose write does more than store their fields. -/
def storesOnly (r : Reg) : Bool :=
  !([.hqiRingCfg, .memDctl, .gctPrf, .gctMgtCfg, .gctMgtMac, .gctMgtIph, .gctMgtIpl, .gctPinSts, .pwrTempThr, .qreShtInj, .qreBtrInj,
    .rngHtInj, .memFlipPos, .memFlipVal, .memPprCmd, .izkDkCmd, .izkDkArg, .secPtkKey, .secPtkCtl, .qreStrCtl, .qreMbxCnt, .ctxSwpBw,
    .prtCmd2].contains r)

/-- Table 00.4: bit `i` of a register after a write, from its old value, the bit written, where one is, and the lock. -/
def bitAfter (lock : Bool) (a : Acc) (old : Bool) (v : Option Bool) : Bool :=
  match v with
  | none => old
  | some v => match a with
    | .ro | .wo => old
    | .rw | .rws => v
    | .rwl => if lock then old else v
    | .w1c | .ros => old && !v
    | .w1s => old || v

/-- R5–R7, R59, R592, R593, Table 00.4: REGISTER_WRITE stores each covered bit by its access type and leaves every other register, and does
nothing at a reserved address, for a function that does not reach the register, or for another size or alignment; LATCHING_READ returns the
lower half and latches the upper one, and zeros where nothing is reached; LOG_CLEAR clears a record whole by all ones. -/
def Obligations.RegisterAccesses : Prop :=
  ∀ s fn addr (v : Word),
    (∀ size, ¬ ((size = 4 ∧ addr % 4 = 0) ∨ (size = 8 ∧ addr % 8 = 0)) → exec (.registerWrite fn addr size v) s = .next s)
    ∧ (addr % 4 = 0 → regAt addr = none → exec (.registerWrite fn addr 4 v) s = .next s)
    ∧ (∀ h, regAt addr = some h → storesOnly h.row.reg = true → addr % 4 = 0 → reaches s fn h.row.reg h.k h.j = false →
      exec (.registerWrite fn addr 4 v) s = .next s)
    ∧ (∀ h size, regAt addr = some h → storesOnly h.row.reg = true → (size = 4 ∧ addr % 4 = 0 ∨ size = 8 ∧ addr % 8 = 0 ∧ 64 ≤ h.row.width) →
      reaches s fn h.row.reg h.k h.j = true →
      ∃ t, exec (.registerWrite fn addr size v) s = .next t
        ∧ (∀ f ∈ h.row.fields, ∀ i, f.lo ≤ i → i ≤ f.hi →
          (rget t h.row.reg h.k h.j).testBit i = bitAfter (locked s h.row.reg h.k) f.acc ((rget s h.row.reg h.k h.j).testBit i)
            (if 8 * h.off ≤ i ∧ i < 8 * h.off + 8 * size ∧ (ownBits h.row.reg).testBit i = false then some (v.toNat.testBit (i - 8 * h.off)) else none))
        ∧ (∀ a, a ≠ regAddr h.row.reg h.k h.j → tget (resetAt a) t.regs a = tget (resetAt a) s.regs a)
        ∧ t = { s with regs := t.regs })
    ∧ (answers s fn = true → (addr % 4 ≠ 0 ∨ ∀ h, regAt addr = some h → reaches s fn h.row.reg h.k h.j = false) →
      exec (.latchingRead fn addr) s = .next (emit s (.readData fn (zeros 4) false)))
    ∧ (∀ h, regAt addr = some h → latches h.row.reg = true → reaches s fn h.row.reg h.k h.j = true → addr % 4 = 0 →
      let a := regAddr h.row.reg h.k h.j
      let x := regValue s h.row.reg h.k h.j
      (h.off = 0 → ∃ t, exec (.latchingRead fn addr) s = .next t ∧ t.out = s.out ++ [.readData fn (leBytes 4 x) false]
        ∧ latchAt t fn a = some (BitVec.ofNat 32 (x / 2 ^ 32)) ∧ (∀ g b, g ≠ fn ∨ b ≠ a → latchAt t g b = latchAt s g b) ∧ t.regs = s.regs)
      ∧ (h.off = 4 → ∃ t, exec (.latchingRead fn addr) s = .next t ∧ latchAt t fn a = none ∧ t.regs = s.regs
        ∧ t.out = s.out ++ [.readData fn (leBytes 4 (match latchAt s fn a with | some u => u.toNat | none => x / 2 ^ 32)) false]))
    ∧ (∀ h, regAt addr = some h → isLog h.row.reg = true → h.row.reg ≠ .qreStrFlt → reaches s fn h.row.reg h.k h.j = true →
      let a := regAddr h.row.reg h.k h.j
      (addr % 8 = 0 → h.off = 0 → v.toNat = 2 ^ 64 - 1 → ∃ t, exec (.logClear fn addr 8 v) s = .next t ∧ rget t h.row.reg h.k h.j = 0
        ∧ ∀ b, b ≠ a → tget (resetAt b) t.regs b = tget (resetAt b) s.regs b)
      ∧ (addr % 4 = 0 → v.toNat % 2 ^ 32 = 2 ^ 32 - 1 →
        ((∃ c ∈ s.halfClears, c.addr = a ∧ c.fn = fn ∧ c.upper ≠ (h.off == 4)) →
          ∃ t, exec (.logClear fn addr 4 v) s = .next t ∧ rget t h.row.reg h.k h.j = 0)
        ∧ ((∀ c ∈ s.halfClears, ¬ (c.addr = a ∧ c.fn = fn)) →
          ∃ t, exec (.logClear fn addr 4 v) s = .next t ∧ t.regs = s.regs ∧ t.halfClears = s.halfClears ++ [⟨a, h.off == 4, fn⟩]))
      ∧ (addr % 4 = 0 → v.toNat % 2 ^ 32 ≠ 2 ^ 32 - 1 → ∃ t, exec (.logClear fn addr 4 v) s = .next t ∧ t.regs = s.regs
        ∧ ∀ c ∈ t.halfClears, ¬ (c.addr = a ∧ c.fn = fn)))

/-! ### SPDM, IDE and TDISP (R369–R372) -/

/-- Session `i` is open and the mailbox is served. -/
abbrev InSession (s : State) (i : Nat) : Prop := doeUp s = true ∧ sessOpen s i = true

/-- R369, R370: the responder answers what Table 12.9 lists, opens at most four sessions by pre-shared key, refuses what needs a session
outside one, and answers anything else with UnsupportedRequest. The keys are free values and the message bytes are the model's form
(log entry 8). -/
def Obligations.SpdmMessages : Prop :=
  ∀ s, doeUp s = true →
    exec .getVersion s = .next (say (.version [0x13]) s)
    ∧ exec .getCapabilities s = .next (say (.capabilities [.pskWithContext, .measNoSignature, .encrypt, .mac, .keyUpdate, .heartbeat, .chunk]) s)
    ∧ exec (.negotiateAlgorithms ⟨.sha256, .sha256⟩ .aes256gcm) s = .next (say .algorithms s)
    ∧ (∀ code, exec (.unsupportedRequest code) s = .next (say (.error .unsupportedRequest) s))
    ∧ (∀ hint cx, hint = [] ∨ hint = s.fuses.serial → s.fuses.serial.length = 16 → s.fuses.lc ≠ 3 → (tfree s.spdm.sessions 4 = none →
        exec (.pskExchange hint cx) s = .next (say (.error .sessionLimitExceeded) s))
      ∧ (∀ i, tfree s.spdm.sessions 4 = some i → s.rng.failed = false →
        ∃ t, exec (.pskExchange hint cx) s = .next t ∧ i < 4 ∧ tfind s.spdm.sessions i = none ∧ tfind t.spdm.sessions i = some {} ∧ t.out = s.out
          ∧ ∀ j, j ≠ i → tfind t.spdm.sessions j = tfind s.spdm.sessions j))
    ∧ (∀ i x, tfind s.spdm.sessions i = some x → x.answered = true → x.finished = false →
      (∃ t, exec (.pskFinish i true) s = .next t ∧ sessOpen t i = true ∧ t.out = s.out ++ [.spdm (.pskFinish i)])
      ∧ ∃ t, exec (.pskFinish i false) s = .next t ∧ tfind t.spdm.sessions i = none)
    ∧ (∀ i, sessOpen s i = true →
      exec (.heartbeat i) s = .next (say (.heartbeat i) s)
      ∧ (∃ t a b, exec (.keyUpdate i) s = .next t ∧ t.out = s.out ++ [.spdm (.keyUpdate i)]
        ∧ tfind t.spdm.sessions i = (tfind s.spdm.sessions i).map (fun x => { x with reqKey := leBytes 32 a, rspKey := leBytes 32 b })
        ∧ a = Config.free s.freeCount ∧ b = Config.free (s.freeCount + 1))
      ∧ (∃ t, exec (.endSession i) s = .next t ∧ tfind t.spdm.sessions i = none ∧ t.out = s.out ++ [.spdm (.endSession i)]
        ∧ ∀ j, j ≠ i → tfind t.spdm.sessions j = tfind s.spdm.sessions j)
      ∧ (∀ nonce, exec (.getMeasurements (some i) 0 nonce) s = .next (say (.blockCount i 1) s)
        ∧ ∀ index, index = 1 ∨ index = 0xFF → canReport s = true →
          exec (.getMeasurements (some i) index nonce) s = .next { s with reports := s.reports ++ [⟨.spdm i, reportBody s nonce⟩] })
      ∧ exec (.vendorDefinedRequest (some i) .other) s = .next (say (.error .unsupportedRequest) s)
      ∧ ∀ d, exec (.vendorDefinedRequest (some i) (.ideKm d)) s = .next s ∧ exec (.vendorDefinedRequest (some i) (.tdisp d)) s = .next s)
    ∧ (∀ i, sessOpen s i = false → let e : Res := .next (say (.error .unsupportedRequest) s)
      exec (.heartbeat i) s = e ∧ exec (.keyUpdate i) s = e ∧ exec (.endSession i) s = e
      ∧ (∀ n nonce, exec (.getMeasurements (some i) n nonce) s = e ∧ exec (.getMeasurements none n nonce) s = e)
      ∧ (∀ k n key, exec (.keyProg i k n key) s = e ∧ exec (.kSetGo i k n) s = e ∧ exec (.kSetStop i k n) s = e) ∧ exec (.query i) s = e
      ∧ ∀ vf, exec (.lockInterfaceRequest i vf) s = e ∧ exec (.startInterfaceRequest i vf) s = e ∧ exec (.stopInterfaceRequest i vf) s = e)
    ∧ (∀ h last data, exec (.chunkSend h 0 last data) s
        = .next (say (.chunkSendAck h 0) { s with spdm.chunkIn := if last then none else some (h, 1, data) }))
    ∧ (∀ h n last old data, s.spdm.chunkIn = some (h, n, old) → n ≠ 0 → exec (.chunkSend h n last data) s
        = .next (say (.chunkSendAck h n) { s with spdm.chunkIn := if last then none else some (h, n + 1, old ++ data) }))
    ∧ (∀ h n left, s.spdm.chunkOut = some (h, n, left) → left ≠ [] →
      ∃ t k, exec (.chunkGet h n) s = .next t ∧ 1 ≤ k ∧ k ≤ left.length ∧ t.out = s.out ++ [.spdm (.chunk h n (k == left.length) (left.take k))]
        ∧ t.spdm.chunkOut = if k = left.length then none else some (h, n + 1, left.drop k))

/-- R371, R372: IDE key sets are programmed, taken into use and dropped, an integrity failure leaves SECURE, sets the
function's AER bit (the bit number is the model's, log entry 138) and puts a VF's TDI into ERROR; TDI states follow Table 12.9's requests, and a refused request changes none. -/
def Obligations.IdeAndTdisp : Prop :=
  ∀ s i, InSession s i →
    (∀ k n (key : List Byte), k ≤ 16 → n ≤ 1 → key.length = 32 →
      ∃ t, exec (.keyProg i k n key) s = .next t ∧ tfind (ideOf t k).keys n = some key ∧ (ideOf t k).secure = (ideOf s k).secure
        ∧ t.out = s.out ++ [.spdm (.keyProg k n)] ∧ ∀ j, j ≠ k → tfind t.spdm.ide j = tfind s.spdm.ide j)
    ∧ (∀ k n key, tfind (ideOf s k).keys n = some key →
      (∃ t, exec (.kSetGo i k n) s = .next t ∧ ideOf t k = { ideOf s k with secure := true, keySet := n } ∧ t.out = s.out ++ [.spdm (.kSetGo k n)])
      ∧ ∃ t, exec (.kSetStop i k n) s = .next t ∧ tfind (ideOf t k).keys n = none ∧ t.out = s.out ++ [.spdm (.kSetStop k n)]
        ∧ ((ideOf s k).keySet = n → (ideOf t k).secure = false) ∧ ((ideOf s k).keySet ≠ n → (ideOf t k).secure = (ideOf s k).secure))
    ∧ exec (.query i) s = .next (say (.ideQuery (s.spdm.ide.map (fun p => (p.1, p.2.secure, p.2.keySet)))) s)
    ∧ (∀ k x, tfind s.spdm.ide k = some x → x.secure = true →
      ∃ t, exec (.ideFail k) s = .next t ∧ (ideOf t k).secure = false ∧ bit (func t x.fn).aer 28 = true
        ∧ (x.fn ≠ 0 → (func t x.fn).tdi = .error) ∧ (x.fn = 0 → (func t x.fn).tdi = (func s x.fn).tdi))
    ∧ (∀ vf, 1 ≤ vf → vf ≤ 16 →
      (∃ v, exec (.getTdispVersion i vf) s = .next (say (.tdispVersion v) (takeFree s).2))
      ∧ (∃ v, exec (.getTdispCapabilities i vf) s = .next (say (.tdispCapabilities v) (takeFree s).2))
      ∧ exec (.getDeviceInterfaceState i vf) s = .next (say (.tdispState vf (tdiCode (func s vf).tdi)) s)
      ∧ (s.sealed = true → deckleExists s (vf - 1) = true → (func s vf).tdi = .unlocked →
        ∃ t, exec (.lockInterfaceRequest i vf) s = .next t ∧ func t vf = { func s vf with tdi := .locked } ∧ ∀ f, f ≠ vf → func t f = func s f)
      ∧ (s.sealed = false ∨ deckleExists s (vf - 1) = false →
        exec (.lockInterfaceRequest i vf) s = .next (say (.tdispError vf .invalidDeviceConfiguration) s))
      ∧ ((func s vf).tdi = .locked →
        exec (.startInterfaceRequest i vf) s = .next (say (.tdispStarted vf) (setFunc s vf { func s vf with tdi := .run })))
      ∧ ((func s vf).tdi ≠ .locked → exec (.startInterfaceRequest i vf) s = .next (say (.tdispError vf .invalidInterfaceState) s))
      ∧ ((func s vf).tdi = .locked ∨ (func s vf).tdi = .run → exec (.getDeviceInterfaceReport i vf) s = .next (say (.tdispReport vf [0, 2]) s))
      ∧ ∃ t, exec (.stopInterfaceRequest i vf) s = .next t ∧ func t vf = {} ∧ (∀ f, f ≠ vf → func t f = func s f)
        ∧ t.out = s.out ++ [.spdm (.tdispStopped vf)] ∧ ∀ r, ringFn s r = vf → (ring t r).state = .disabled)

/-! ### Random numbers (R430–R449) -/

/-- The repetition count and the adaptive-proportion count that a sample `v` of source `x` makes, with no injection at work. -/
def runAfter (x : Source) (v : Nat) : Nat := if x.run ≠ 0 ∧ v = x.last then x.run + 1 else 1
/-- The adaptive proportion count after a sample. -/
def hitsAfter (x : Source) (v : Nat) : Nat := if x.winLen = 0 then 1 else x.winHits + (if v = x.winFirst then 1 else 0)

/-- R430–R435, R440–R447, R449: samples run the two health tests and a source passes from STARTUP to OPERATING and back or to DISABLED;
the loss of every source is FAILED; an instance is instantiated, reseeded and asked; the host windows read a block a word at a time;
none of it runs without SCLK. -/
def Obligations.RandomNumbers : Prop :=
  ∀ s, (∀ i (v : BitVec 4), i < 16 → s.rng.started = true → s.rng.failed = false → s.power.rails = true → domainRuns s 2 = true →
      fget s .rngHtInj 8 8 = 0 →
      (source s i).forced = false → (source s i).state ≠ .disabled →
      let x := source s i
      let run := runAfter x v.toNat
      let hits := hitsAfter x v.toNat
      (run < 41 → hits < 625 → x.state = .startup →
        (x.winLen + 1 < 1024 → x.passed + 1 < 1024 → ∃ t, exec (.sample i v) s = .next t
          ∧ source t i = { x with passed := x.passed + 1, last := v.toNat, run := run, winFirst := (if x.winLen = 0 then v.toNat else x.winFirst)
                                  winLen := x.winLen + 1, winHits := hits }
          ∧ (∀ j, j ≠ i → source t j = source s j) ∧ t.rng.drbgs = s.rng.drbgs ∧ t.regs = s.regs)
        ∧ (1024 ≤ x.passed + 1 → ∃ t, exec (.sample i v) s = .next t ∧ (source t i).state = .operating))
      ∧ (run < 41 → hits < 625 → x.state = .operating → x.winLen + 1 < 1024 → x.block.length + 1 < 384 →
        ∃ t, exec (.sample i v) s = .next t ∧ (source t i).block = x.block ++ [v.toNat] ∧ (source t i).state = .operating
          ∧ ∀ j, j ≠ i → source t j = source s j)
      ∧ (41 ≤ run → hits < 625 → x.state = .startup → x.startFails + 1 < 4 → ∃ t, exec (.sample i v) s = .next t
        ∧ source t i = { vouched := x.vouched, startFails := x.startFails + 1 } ∧ fget t .rngHtCnt 15 0 = satInc 16 (fget s .rngHtCnt 15 0) 1
        ∧ fget t .rngHtCnt 47 32 = satInc 16 (fget s .rngHtCnt 47 32) 1
        ∧ (fget s .rngHtLog 0 0 = 0 → rget t .rngHtLog = 9 + 16 * i + 2 ^ 16 * (s.tsc % 2 ^ 48)) ∧ (fget s .rngHtLog 0 0 = 1 → fget t .rngHtLog 1 1 = 1))
      ∧ (41 ≤ run ∨ 625 ≤ hits → x.state = .startup → 4 ≤ x.startFails + 1 → ∃ t, exec (.sample i v) s = .next t ∧ (source t i).state = .disabled)
      ∧ (41 ≤ run ∨ 625 ≤ hits → x.state = .operating → ∃ t, exec (.sample i v) s = .next t ∧ (source t i).state = .startup
        ∧ (source t i).run = 0 ∧ (source t i).held = [])
      ∧ (41 ≤ run ∨ 625 ≤ hits → x.state = .startup → 4 ≤ x.startFails + 1 → (∀ j, j < 16 → j ≠ i → (source s j).state = .disabled) →
        (∀ g, (drbg s g).queue = []) →
        ∃ t, exec (.sample i v) s = .next t ∧ t.rng.failed = true ∧ (∀ g, drbg t g = {}) ∧ fget t .rngSts 2 2 = 1))
    ∧ (∀ g b1 b2 rest, g < 4 → (drbg s g).ready = false → s.rng.failed = false → s.rng.started = true → domainRuns s 2 = true → (drbg s g).seeds = b1 :: b2 :: rest →
      let y := drbgInit (drbg s g) b1 b2 (fitB 16 s.fuses.serial ++ [BitVec.ofNat 8 g])
      ∃ t, exec (.instantiate g) s = .next t ∧ drbg t g = { y with seeds := (drbg t g).seeds } ∧ y.count = 0 ∧ y.ready = true)
    ∧ (∀ g b rest, g < 4 → (drbg s g).ready = true → 65536 ≤ (drbg s g).count → domainRuns s 2 = true → (drbg s g).seeds = b :: rest →
      ∃ t, exec (.reseed g) s = .next t ∧ (drbg t g).count = 0 ∧ (drbg t g).key = (drbgReseed (drbg s g) b).key
        ∧ (drbg t g).v = (drbgReseed (drbg s g) b).v ∧ (drbg t g).queue = (drbg s g).queue)
    ∧ (∀ g f rest, g < 4 → canDeliver (drbg s g) = true → reseedDue (drbg s g) = false → (drbg s g).count + 1 < 2 ^ 32 → domainRuns s 2 = true →
      (drbg s g).queue = { who := .window f } :: rest →
      ∃ t, exec (.generate g) s = .next t ∧ drbg t g = { (drbgGen (drbg s g)).1 with
            queue := rest.filter (fun r => r.who != .window f) ++ rest.filter (fun r => r.who == .window f), stopped := false }
        ∧ tfind t.rng.windows f = some ((List.range 16).map (fun k => fieldAt (drbgGen (drbg s g)).2 (4 * k) 4)) ∧ t.quires = s.quires ∧ t.regs = s.regs)
    ∧ (∀ fn (v : Word), reaches s fn .rngHtInj 0 0 = true → injectionOpen s fn = true → v.getLsbD 8 = true →
      ∃ t, exec (.htInjArm fn v) s = .next t ∧ fget t .rngHtInj 8 8 = 1 ∧ fget t .secSts 5 5 = 0
        ∧ (fget s .rngHtInj 8 8 = 0 → fget t .rngHtInj 4 0 = v.toNat % 32))
    ∧ (domainRuns s 2 = false → ∀ i g (v : BitVec 4), exec (.sample i v) s = .next s ∧ exec (.instantiate g) s = .next s
      ∧ exec (.reseed g) s = .next s ∧ exec (.generate g) s = .next s)
    ∧ (∀ fn (v : Word), injectionOpen s fn = false → exec (.htInjArm fn v) s = .next s)
    ∧ (∀ fn inTime, busUp s = true → reaches s fn .rngRd fn 0 = true →
      (s.rng.failed = true → exec (.hostWindowRead fn fn inTime) s = .next (windowAnswer fn 0 2 s))
      ∧ (∀ w ws, s.rng.failed = false → tget [] s.rng.windows fn = w :: ws →
        exec (.hostWindowRead fn fn inTime) s = .next (windowAnswer fn w 0 { s with rng.windows := tset [] s.rng.windows fn ws }))
      ∧ (s.rng.failed = false → tget [] s.rng.windows fn = [] → windowAsked s fn = false →
        exec (.hostWindowRead fn fn false) s = .next (windowAnswer fn 0 1 (askBlock s 3 { who := .window fn }))))
    ∧ (∀ fn f inTime, busUp s = true → fn ≠ f → exec (.hostWindowRead fn f inTime) s = .next (windowAnswer fn 0 0 s))

/-! ### Clocks (R411–R421) -/

/-- R413–R417, R421: the loss of a domain's PLL selects the other or stops the domain, a lost reference takes its PLLs, ports or link
with it, a relock switches nothing back, CLK_SWBACK does, ACLK moves one step, and a queue whose pointers mismatch starts empty. -/
def Obligations.ClocksAndReferences : Prop :=
  ∀ s, (∀ d, d < 12 → (domain s d).primLocked = true → (domain s d).stbyLocked = true → (domain s d).onStandby = false →
      (∃ t, exec (.primaryUnlock d) s = .next t ∧ domain t d = { onStandby := true, primLocked := false, stbyLocked := true }
        ∧ fget t .clkFailCnt 15 0 = satInc 16 (fget s .clkFailCnt 15 0) 1 ∧ t.fe = s.fe
        ∧ (kclkRuns s = true → ∃ e ∈ t.ev.pending, e.sev = 0 ∧ e.block = 10 ∧ e.inst = d ∧ e.code = 1 ∧ e.time = s.tsc % 2 ^ 48))
      ∧ ∃ t, exec (.standbyUnlock d) s = .next t ∧ domain t d = { primLocked := true, stbyLocked := false } ∧ t.fe = s.fe
        ∧ (kclkRuns s = true → ∃ e ∈ t.ev.pending, e.sev = 0 ∧ e.block = 10 ∧ e.inst = d ∧ e.code = 2))
    ∧ (∀ d, d < 12 → (domain s d).primLocked = true → (domain s d).stbyLocked = false →
      ∃ t, exec (.primaryUnlock d) s = .next t ∧ (domain t d).primLocked = false ∧ t.fe = true)
    ∧ (∀ d, d < 12 → (domain s d).primLocked = true ∨ (domain s d).stbyLocked = true →
      ∃ t, exec (.pllDualLost d) s = .next t ∧ (domain t d).primLocked = false ∧ (domain t d).stbyLocked = false ∧ t.fe = true)
    ∧ (∀ r, r < 4 → refUp s r = true → ∃ t, exec (.refLost r) s = .next t ∧ refUp t r = false
      ∧ fget t .clkFailCnt 31 16 = satInc 16 (fget s .clkFailCnt 31 16) 1 ∧ (r = 0 → t.boot.pcieUp = false)
      ∧ (r = 1 → ∀ d, d < 12 → (domain t d).primLocked = false) ∧ (r = 2 → ∀ d, d < 12 → (domain t d).stbyLocked = false)
      ∧ (r = 2 → ∀ p, p < 4 → (port t p).state ≠ .up ∧ (port t p).state ≠ .negotiate))
    ∧ (∀ r, refUp s r = false → ∃ t, exec (.refPresent r) s = .next t ∧ refUp t r = true
      ∧ (r ≠ 0 → t.boot = s.boot) ∧ (r = 0 → t.boot.pcieUp = (!s.boot.held && s.power.rails)))
    ∧ (∀ d, d < 12 → (refUp s 1 = true → exec (.primaryRelock d) s = .next (setDomain s d { domain s d with primLocked := true }))
      ∧ (refUp s 2 = true → exec (.standbyRelock d) s = .next (setDomain s d { domain s d with stbyLocked := true })))
    ∧ (∀ fn (v : Word), reaches s fn .clkSwback 0 0 = true → ∃ t, exec (.switchBack fn v) s = .next t
      ∧ ∀ d, d < 12 → domain t d = if v.getLsbD d = true ∧ (domain s d).primLocked = true then { domain s d with onStandby := false } else domain s d)
    ∧ (let n := min (min 36 (fget s .clkAclk 5 0)) (fget s .clkAclk 21 16)
      (domainRuns s 0 = false → exec .aclkStep s = .next s)
      ∧ (domainRuns s 0 = true → exec .aclkStep s = .next { s with clk.aclk := if s.clk.aclk < n then s.clk.aclk + 1 else if n < s.clk.aclk then s.clk.aclk - 1
        else s.clk.aclk }))
    ∧ (∀ c n k, c < 8 → ∃ t, exec (.cdcPtrMismatch c n k) s = .next t ∧ fget t .clkCdcSts (8 + c) (8 + c) = 1
      ∧ (c = 4 → (port t n).inbox = (port s n).inbox.drop k) ∧ (c ≠ 4 → c ≠ 6 → c ≠ 7 → t.fe = true))

/-! ### Power, temperature and pins (R525–R537, R583–R586) -/

/-- R528–R533, R536, R537: telemetry samples, the cap loop's tick, the guards against excursions and peaks, droop, the temperature
thresholds, and calibration. -/
def Obligations.PowerAndTemperature : Prop :=
  ∀ s, powerRuns s = true →
    (∀ mv ma, ∃ t, exec (.inputSample mv ma) s = .next t ∧ t.power.samples = (mv * ma / 1000 :: s.power.samples).take 100000
      ∧ t.power.ticks = s.power.ticks + 1 ∧ t.power.l = s.power.l
      ∧ ((46000 ≤ mv ∧ mv < 48000 ∨ 58000 < mv ∧ mv ≤ 60000) → s.power.vinOdd = false → kclkRuns s = true →
        ∃ e ∈ t.ev.pending, e.sev = 0 ∧ e.block = 9 ∧ e.code = 1))
    ∧ (s.power.l ≤ 43 → let p := meanOf s 1000
      ∃ t, exec .tick s = .next t
        ∧ t.power.l = (if s.power.l > lmax s ∨ p > capMw s then s.power.l - 1
            else if s.power.l < lmax s ∧ p + 20000 < capMw s then s.power.l + 1 else s.power.l)
        ∧ (t.power.l ≠ s.power.l → fget t .clkAclk 21 16 = limitOf t.power.l))
    ∧ (capMw s < meanOf s 10 → ∃ t, exec .excursion s = .next t ∧ t.power.l = s.power.l - 8 ∧ t.power.excursion = true
      ∧ (s.power.excursion = false → fget t .pwrCnt 47 32 = satInc 16 (fget s .pwrCnt 47 32) 1))
    ∧ (1650000 < meanOf s 10 → ∃ t, exec .peak s = .next t ∧ t.power.l = s.power.l - 16 ∧ t.power.peak = true)
    ∧ (∀ p, p < 68 → exec (.droop p) s = .next (setPhys s p { phys s p with droop := true })
      ∧ exec (.droopRecovery p) s = .next (setPhys s p { phys s p with droop := false }))
    ∧ (∀ temps rails, let w := 8 * fget s .pwrTempThr 7 0
      let h := 8 * fget s .pwrTempThr 15 8
      let c := 8 * fget s .pwrTempThr 23 16
      temps.length = 136 → (∀ x ∈ temps, x < 4096) →
      let memory (i : Nat) : Prop := 100 ≤ i ∧ i ≤ 123
      ((∃ i x, temps[i]? = some x ∧ (memory i ∧ 880 < x ∨ ¬ memory i ∧ 1000 < x)) →
        ∃ t, exec (.sensorRead ⟨temps, rails⟩) s = .next t ∧ t.power.rails = false ∧ t.power.tripped = true ∧ t.quires = [])
      ∧ ((∀ i x, temps[i]? = some x → if 100 ≤ i ∧ i ≤ 123 then x ≤ 880 else x ≤ 1000) →
        ∃ t, exec (.sensorRead ⟨temps, rails⟩) s = .next t ∧ (∀ i x, temps[i]? = some x → rget t .pwrSens i = x)
          ∧ (∀ r v a, r < 8 → rails[r]? = some (v, a) → v < 65536 → a < 65536 → rget t .pwrRail r = v + 65536 * a)
          ∧ ((∃ i x, temps[i]? = some x ∧ (memory i ∧ 840 < x ∨ ¬ memory i ∧ c < x)) → t.power.l = 0)
          ∧ ((∃ i x, temps[i]? = some x ∧ (memory i ∧ 760 < x ∨ ¬ memory i ∧ h < x)) → t.power.lTemp = s.power.lTemp - 1)
          ∧ ((∀ i x, temps[i]? = some x → if 100 ≤ i ∧ i ≤ 123 then x + 24 ≤ 760 else x + 24 ≤ h) → t.power.lTemp = min 43 (s.power.lTemp + 1))
          ∧ (t.power.warned = 0 ↔ ∀ i x, temps[i]? = some x → if 100 ≤ i ∧ i ≤ 123 then x ≤ 680 else x ≤ w)))
    ∧ (let n := (if s.power.calstep = 36 then s.clk.aclk else s.power.calstep) - 1
      ∃ t, exec .caldrop s = .next t ∧ t.power.calstep = n ∧ t.power.l = min s.power.l (7 + n)
        ∧ fget t .pwrCnt 63 48 = satInc 16 (fget s .pwrCnt 63 48) 1)
    ∧ (∀ m, s.power.calstep < 36 → anyRunning s = false → ∃ t, exec (.idleWindow m) s = .next t ∧ t.power.calstep = 36
      ∧ t.power.tableMax = max (min s.power.calstep s.power.tableMax) (min m s.power.tableMax))

/-- R525–R527, R534, R564, R583–R586: the input takes the rails and everything they hold away, fuses and flash apart; sideband inputs
force the position; the input filters hold a force while an input toggles. -/
def Obligations.RailsAndPins : Prop :=
  ∀ s, (∃ t, exec .inputOutOfRange s = .next t ∧ t.power.rails = false ∧ t.power.input = false ∧ t.regs = [] ∧ t.quires = [] ∧ t.deckles = []
        ∧ t.dram = {} ∧ t.fuses = s.fuses ∧ t.banks = s.banks)
    ∧ (s.power.input = false → (pin s 3).asserted = false → ∃ t, exec .powerApplied s = .next t ∧ t.power.rails = true ∧ t.power.input = true
      ∧ t.power.tripped = false ∧ t.regs = [] ∧ t.quires = [] ∧ t.deckles = [] ∧ t.dram = {} ∧ t.boot = {} ∧ t.fuses = s.fuses ∧ t.banks = s.banks)
    ∧ (s.power.input = true → s.power.tripped = true → s.power.rails = false → ∃ t, exec .powerApplied s = .next t ∧ t.power.rails = false)
    ∧ (∃ t, exec .shutdnNAssert s = .next t ∧ (pin t 3).asserted = true ∧ (s.power.rails = true → t.power.stopping = true) ∧ t.quires = s.quires)
    ∧ (s.power.rails = true → s.power.stopping = true →
      ∃ t, exec .shutdownRailsOff s = .next t ∧ t.power.rails = false ∧ t.quires = [] ∧ t.fuses = s.fuses)
    ∧ ((pin s 3).forced = false → s.power.rails = false ∨ s.power.stopping = true → s.power.tripped = false → s.power.input = true →
      ∃ t, exec .shutdnNRelease s = .next t ∧ t.power.rails = true ∧ t.boot = {} ∧ t.fuses = s.fuses ∧ (pin t 3).asserted = false)
    ∧ (∃ t, exec .pwrbrkNAssert s = .next t ∧ (pin t 1).asserted = true
      ∧ (powerRuns s = true → t.power.l = min s.power.l (min 43 (fget s .pwrCtl 13 8))) ∧ (powerRuns s = false → t.power = s.power))
    ∧ (∃ t, exec .throtNAssert s = .next t ∧ (pin t 2).asserted = true
      ∧ (powerRuns s = true → t.power.l = min s.power.l (min 43 (fget s .pwrCtl 5 0))) ∧ (powerRuns s = false → t.power = s.power))
    ∧ ((pin s 1).forced = false → ∃ t, exec .pwrbrkNRelease s = .next t ∧ (pin t 1).asserted = false ∧ t.power = s.power)
    ∧ ((pin s 2).forced = false → ∃ t, exec .throtNRelease s = .next t ∧ (pin t 2).asserted = false ∧ t.power = s.power)
    ∧ ((pin s 1).forced = true → exec .pwrbrkNRelease s = .next s)
    ∧ (∀ i level, i < 6 → (pin s i).raw ≠ level → s.power.rails = true → let e := s.now :: recentEdges s (pin s i)
      (e.length ≤ 10 → exec (.rawPinEdge i level) s = .next (setPin s i { pin s i with raw := level, edges := e }))
      ∧ (10 < e.length → (pin s i).forced = false → ∃ t, exec (.rawPinEdge i level) s = .next t ∧ (pin t i).forced = true
        ∧ (pin t i).asserted = true ∧ (i < 4 → fget t .gctPinSts (8 + i) (8 + i) = 1 ∧ fget t .gctAlert 1 1 = 1)
        ∧ (i = 3 → (pin s i).asserted = false → t.power.stopping = true)))
    ∧ (∀ i, i < 6 → s.power.rails = true → (pin s i).forced = false →
      ∃ t, exec (.filterOutputChange i) s = .next t ∧ (pin t i).out = (pin s i).raw ∧ (∀ j, j ≠ i → pin t j = pin s j)
        ∧ ((pin s i).raw = true → (pin s i).asserted = false → (i = 0 → s.boot.held = false → t.boot = {}) ∧ (i = 3 → t.power.stopping = true)))
    ∧ (∀ i, i < 6 → s.power.rails = true → (pin s i).forced = true →
      (10 < (recentEdges s (pin s i)).length → exec (.filterOutputChange i) s = .next s)
      ∧ ((recentEdges s (pin s i)).length ≤ 10 → ∃ t, exec (.filterOutputChange i) s = .next t ∧ (pin t i).forced = false))
    ∧ (∀ i, i = 1 ∨ i = 2 → s.power.rails = true → (pin s i).asserted = true → (pin s i).held = false →
      ∃ t, exec (.pinHeld i) s = .next t ∧ (pin t i).held = true ∧ fget t .gctPinSts (11 + i) (11 + i) = 1 ∧ fget t .gctAlert 1 1 = 1
        ∧ (s.boot.ready = false → ∃ e ∈ t.ev.deferred, e.sev = 0 ∧ e.block = 1 ∧ e.code = 1 ∧ e.info = i))

/-! ### Resets and boot (R23, R451, R466, R467, R561–R568) -/

/-- What a WARM reset leaves (Table 20.1). -/
def IsWarm (s t : State) : Prop :=
  t.quires = [] ∧ t.deckles = [] ∧ t.host.rings = [] ∧ t.sessions = [] ∧ t.serving = {} ∧ t.poly = [] ∧ t.izk = {} ∧ t.spdm = {} ∧ t.dram = {}
    ∧ t.mesh = [] ∧ t.fuses = s.fuses ∧ t.banks = s.banks
    ∧ (∀ p, (phys t p).retired = (phys s p).retired ∧ (phys t p).fenced = (phys s p).fenced ∧ (phys t p).partner = (phys s p).partner
      ∧ (phys t p).logical = none)
    ∧ (∀ c, (ctl t c).pendingHard = (ctl s c).pendingHard)

/-- R561, R562, R564–R568: a WARM reset by PERST_N or by GCT_RESET clears all but what Table 20.1 keeps; the boot sequence brings a sound
device to READY, stops with its code, or enters FE where neither PLL reference is there; a QUIRE reset zeroes the storage of one quire and ends its work. -/
def Obligations.ResetsAndBoot : Prop :=
  ∀ s, (s.power.rails = true → s.boot.held = false → ∃ t, exec .perstNAssert s = .next t ∧ IsWarm s t ∧ t.boot = {} ∧ t.sealed = false ∧ t.fe = false
      ∧ (pin t 0).asserted = true
      ∧ (tsorted s.regs = true → ∀ r k j, k < (regRow r).count → j < (regRow r).count2 → r ≠ .gctBoot → r ≠ .secSts →
        rget t r k j = andNot (resetOf (regRow r)) (stickyMask (regRow r)) + (rget s r k j &&& stickyMask (regRow r)))
      ∧ fget t .secSts 2 0 = fget s .secSts 2 0 ∧ fget t .secSts 4 4 = fget s .secSts 4 4 ∧ fget t .secSts 23 16 = fget s .secSts 23 16)
    ∧ (∀ b, (pin s 0).forced = false → s.power.rails = true → s.boot.held = true → s.clk.lost.contains 0 = false →
      (refUp s 1 = false → refUp s 2 = false → ∃ t, exec (.perstNRelease b) s = .next t ∧ t.fe = true)
      ∧ (refUp s 1 = true ∨ refUp s 2 = true → (b.katOk = false → ∃ t, exec (.perstNRelease b) s = .next t ∧ t.boot.stopped = 1 ∧ fget t .secSts 6 6 = 1)
        ∧ (b = {} → s.fuses.lc ≠ 0 → s.fuses.lc ≠ 4 → (∀ x, validImage s x = none) →
        ∃ t, exec (.perstNRelease b) s = .next t ∧ t.boot.stopped = 2 ∧ fget t .secSts 7 7 = 1)
      ∧ (b = {} → s.fuses.lc = 0 ∨ s.fuses.lc = 4 → ∃ t, exec (.perstNRelease b) s = .next t ∧ t.boot.stopped = if s.fuses.lc = 0 then 5 else 4)
      ∧ (∀ im, b = {} → s.fuses.lc ≠ 0 → s.fuses.lc ≠ 4 → validImage s (currentRecord s).2.active = some im → s.ev.deferred = [] →
        ∃ t, exec (.perstNRelease b) s = .next t ∧ t.boot.ready = true ∧ t.boot.held = false ∧ t.boot.running = some im ∧ t.fe = s.fe
          ∧ t.boot.bootcnt = ((currentRecord s).2.bootcnt + 1) % 2 ^ 64 ∧ t.boot.step = 10
          ∧ t.sealed = (s.fuses.sealOnly && s.fuses.lc != 3) ∧ fget t .secSts 2 0 = s.fuses.lc % 8 ∧ fget t .gctBoot 4 4 = 1
          ∧ (∀ l i, l = List.filterMap (placeOf s 6) ((List.range 68).filter (fun p => !s.fuses.spares.contains p)) → l.Nodup → i < l.length →
            ∃ p, (phys t p).logical = some i ∧ (phys s p).retired = false ∧ (phys s p).fenced = false))))
    ∧ (∀ fn (v : Word) b, reaches s fn .gctReset 0 0 = true → let s0 := written s fn .gctReset 0 v
      (v.toNat % 65536 ≠ 0xA55A → exec (.gctReset fn v b) s = .next s0)
      ∧ (v.toNat % 65536 = 0xA55A → s.power.rails = true → (pin s 0).asserted = true → ∃ t, exec (.gctReset fn v b) s = .next t ∧ IsWarm s t)
      ∧ (v.toNat % 65536 = 0xA55A → s.power.rails = true → (pin s 0).asserted = false → refUp s 1 = true ∨ refUp s 2 = true → b.katOk = false →
        ∃ t, exec (.gctReset fn v b) s = .next t ∧ IsWarm s t ∧ t.boot.stopped = 1))
    ∧ (∀ fn p, reaches s fn .qreRst p 0 = true →
      ((phys s p).logical = none ∨ (phys s p).retired = true ∨ (phys s p).fenced = true →
        ∃ t, exec (.quireReset fn p) s = .next t ∧ fget t .qreRst 3 2 p = 2 ∧ t.quires = s.quires)
      ∧ (∀ q d, (phys s p).logical = some q → (phys s p).retired = false → (phys s p).fenced = false → deckleOfQuire s q = some d →
        ((deckle s d).phase = .active → ∃ t, exec (.quireReset fn p) s = .next t ∧ fget t .qreRst 3 2 p = 1 ∧ (quire t q).spad = []
          ∧ (quire t q).handles = [] ∧ (quire t q).tiles = [] ∧ (quire t q).role = 0
          ∧ ∀ st, st < 8 → (stream t q st).state = .idle ∧ (stream t q st).fault = (stream s q st).fault)
        ∧ ((deckle s d).phase ≠ .active → ∃ t, exec (.quireReset fn p) s = .next t ∧ fget t .qreRst 1 0 p = 3 ∧ t.quires = s.quires)))

/-! ### Events, repair and the host link (R422–R425, R498–R500, R506, R513–R521, R523, R598, R599) -/

/-- R422–R425, R498, R499, R598, R599: of the events raised at one time the one of the lowest block and instance is numbered and queued, or takes the place of a less severe one; it is written to
its destination's ring with its phase, or dropped and counted; the ring and first-fatal registers act as they state. -/
def Obligations.EventDelivery : Prop :=
  ∀ s, (∀ e rest, s.ev.pending = e :: rest → ∃ x, entersFirst s.ev.pending = some x ∧ x ∈ s.ev.pending ∧ x.time = e.time
      ∧ ∀ y ∈ s.ev.pending, y.time = e.time → x.block < y.block ∨ x.block = y.block ∧ x.inst ≤ y.inst)
    ∧ (∀ e, entersFirst s.ev.pending = some e → kclkRuns s = true → s.dram.upsets = [] → e.sev < 3 →
      let n := s.ev.nextSeq
      let e1 := { e with seq := n, dests := 0 :: (match e.dk with | some d => [d + 1] | none => []) }
      (s.ev.queue.length < 512 → ∃ t, exec .eventRecordEntry s = .next t ∧ t.ev.pending = s.ev.pending.erase e ∧ t.ev.queue = s.ev.queue ++ [e1]
        ∧ t.ev.nextSeq = (n + 1) % 2 ^ 32 ∧ (2 ≤ e.sev → fget t .gctAlert 2 2 = 1))
      ∧ (∀ v, 512 ≤ s.ev.queue.length → evVictim s.ev.queue = some v → ∃ t, exec .eventRecordEntry s = .next t ∧ t.ev.nextSeq = (n + 1) % 2 ^ 32
        ∧ (v.sev < e.sev → t.ev.queue = s.ev.queue.filter (fun x => x.seq != v.seq) ++ [e1]
          ∧ fget t .evtLoss (16 * v.sev + 15) (16 * v.sev) = satInc 16 (fget s .evtLoss (16 * v.sev + 15) (16 * v.sev)) 1)
        ∧ (e.sev ≤ v.sev → t.ev.queue = s.ev.queue
          ∧ fget t .evtLoss (16 * e.sev + 15) (16 * e.sev) = satInc 16 (fget s .evtLoss (16 * e.sev + 15) (16 * e.sev)) 1)))
    ∧ (∀ f e, nextRecord s f = some e → kclkRuns s = true → s.dram.upsets = [] → s.power.rails = true → f ≤ 16 → let x := evRing s f
      let n := 2 ^ fget s .evtRingCfg 11 8 f
      let a := fget s .evtRingBase 63 12 f * 4096 + 32 * (x.pi % n)
      (∀ y ∈ s.ev.queue, e.sev ≥ y.sev ∨ f ∉ y.dests)
      ∧ (fget s .evtRingCfg 0 0 f = 1 → (f = 0 ∨ s.fe = false ∧ (deckle s (f - 1)).phase = .active) →
        (subMod (2 ^ 32) x.pi x.head < n → ∃ t, exec (.eventDelivery f) s = .next t
          ∧ hostRead t a 32 = recordBytes e (f == 0) s.sealed (if (x.pi / n) % 2 = 0 then 1 else 0)
          ∧ evRing t f = { x with pi := (x.pi + 1) % 2 ^ 32 } ∧ (∀ y ∈ t.ev.queue, y.seq = e.seq → f ∉ y.dests)
          ∧ (∀ b, (b < a ∨ a + 32 ≤ b) → hostRead t b 1 = hostRead s b 1) ∧ t.regs = s.regs)
        ∧ (n ≤ subMod (2 ^ 32) x.pi x.head → ∃ t, exec (.eventDelivery f) s = .next t ∧ evRing t f = x
          ∧ (∀ y ∈ t.ev.queue, y.seq = e.seq → f ∉ y.dests) ∧ t.host = s.host
          ∧ fget t .evtRingSts 47 32 f = satInc 16 (fget s .evtRingSts 47 32 f) 1))
      ∧ (f = 0 → fget s .evtRingCfg 0 0 f ≠ 1 → exec (.eventDelivery f) s = .next s))
    ∧ (∀ fn f (v : Word32), reaches s fn .evtRingCfg f 0 = true → fget s .evtRingCfg 0 0 f = 0 → v.getLsbD 0 = true → let z := bits v.toNat 11 8
      ∃ t, exec (.eventRingEnable fn f v) s = .next t ∧ fget t .evtRingCfg 11 8 f = z
        ∧ (4 ≤ z → fget t .evtRingCfg 1 0 f = 1 ∧ evRing t f = {}) ∧ (z < 4 → fget t .evtRingCfg 1 0 f = 2 ∧ evRing t f = evRing s f))
    ∧ (∀ fn f (v : Word32), reaches s fn .evtRingCfg f 0 = true → v.getLsbD 0 = false →
      ∃ t, exec (.eventRingDisable fn f v) s = .next t ∧ fget t .evtRingCfg 0 0 f = 0 ∧ t.ev = s.ev)
    ∧ (∀ fn f (v : Word32), reaches s fn .evtRingHead f 0 = true → let x := evRing s f
      (subMod (2 ^ 32) v.toNat x.head ≤ subMod (2 ^ 32) x.pi x.head →
        exec (.eventHead fn f v) s = .next (setEvRing s f { x with head := v.toNat }))
      ∧ (subMod (2 ^ 32) x.pi x.head < subMod (2 ^ 32) v.toNat x.head → exec (.eventHead fn f v) s = .next (fset s .evtRingSts 48 48 1 f)))
    ∧ (∀ fn size (v : Word), reaches s fn .evtFatal 0 0 = true →
      (size = 8 → v.toNat = 2 ^ 64 - 1 → s.fe = false → ∃ t, exec (.fatalClear fn size v) s = .next t
        ∧ (∀ k, k < 4 → rget t .evtFatal k = 0) ∧ rget t .evtFatalNext = 0)
      ∧ (size ≠ 8 ∨ v.toNat ≠ 2 ^ 64 - 1 ∨ s.fe = true → exec (.fatalClear fn size v) s = .next s))

/-- R506, R513–R521, R523: a retirement moves a quire and its state to the lowest spare that passes its test, and fences it where none
does; windows and buckets; injection masks arm only where R523 allows; the host link narrows to a sound width. -/
def Obligations.RepairAndLinkWidth : Prop :=
  ∀ s, (∀ p, p < 68 → busUp s = true → s.fe = false →
      (s.sealed = false → (phys s p).logical ≠ none → (phys s p).retired = false → (phys s p).fenced = false → p ∉ s.retireQueue →
        ∃ t, exec (.retire 0 p) s = .next t ∧ t.retireQueue = s.retireQueue ++ [p] ∧ (phys t p).busy = true ∧ t.quires = s.quires)
      ∧ (s.sealed = true → (phys s p).logical.bind (deckleOfQuire s) ≠ none →
        exec (.retire 0 p) s = .next (setPhys s p { phys s p with result := 3 }))
      ∧ (∀ fn, fn ≠ 0 → reaches s fn .qreErrCtl p 0 = true → exec (.retire fn p) s = .next (setPhys s p { phys s p with result := 3 }))
      ∧ (∀ fn, reaches s fn .qreErrCtl p 0 = true → exec (.errAck fn p) s = .next (setPhys s p { phys s p with winOpen := false }))
      ∧ exec (.windowExpiry p) s = .next (setPhys s p { phys s p with winOpen := false })
      ∧ exec (.quireBucketLeak p) s = .next (fset s .qreCeb 15 0 (fget s .qreCeb 15 0 p - 1) p))
    ∧ (∀ p rest q failed, s.retireQueue = p :: rest → retireWaits s p = false → s.power.rails = true → s.fe = false → s.dram.upsets = [] →
      (phys s p).logical = some q →
      (∀ sp l, (usableSpares s).filter (fun x => !failed.contains x) = sp :: l →
        ∃ t, exec (.retirement failed) s = .next t ∧ t.retireQueue = rest ∧ (phys t p).retired = true ∧ (phys t p).logical = none
          ∧ (phys t p).partner = sp ∧ (phys t p).result = 1 ∧ (phys t sp).logical = some q ∧ quire t q = copyUpsets (quire s q)
          ∧ (∀ k, k ≠ q → quire t k = quire s k) ∧ ∀ x ∈ usableSpares s, x ∈ failed → (phys t x).retired = true ∧ (phys t x).partner = 0xFF)
      ∧ ((∀ x ∈ usableSpares s, x ∈ failed) → ∃ t, exec (.retirement failed) s = .next t ∧ (phys t p).fenced = true
        ∧ (phys t p).busy = false ∧ (phys t p).result = 2 ∧ ∀ st, st < 8 → (stream t q st).state ≠ .running))
    ∧ (∀ c, c < 24 → ∃ t, exec (.frameBucketLeak c) s = .next t
      ∧ (ctl t c).buckets = (ctl s c).buckets.map (fun b => { b with level := b.level - 1 }) ∧ ∀ k, k ≠ c → ctl t k = ctl s k)
    ∧ (∀ fn p (v : Word), (injectionOpen s fn = false → exec (.shtInjArm fn p v) s = .next s ∧ exec (.btrInjArm fn p v) s = .next s)
      ∧ (injectionOpen s fn = true → v.getLsbD 8 = true →
        (reaches s fn .qreShtInj p 0 = true → ∃ t, exec (.shtInjArm fn p v) s = .next t ∧ fget t .qreShtInj 8 8 p = 1 ∧ fget t .secSts 5 5 = 0
          ∧ (fget s .qreShtInj 8 8 p = 0 → fget t .qreShtInj 5 0 p = v.toNat % 64))
        ∧ (reaches s fn .qreBtrInj p 0 = true → ∃ t, exec (.btrInjArm fn p v) s = .next t ∧ fget t .qreBtrInj 8 8 p = 1
          ∧ fget t .secSts 5 5 = 0 ∧ (fget s .qreBtrInj 8 8 p = 0 → fget t .qreBtrInj 2 0 p = v.toNat % 8))))
    ∧ (∀ lanes : BitVec 16, s.power.rails = true → s.boot.pcieUp = true → let bad := s.boot.badLanes ||| lanes.toNat
      let w := min s.boot.width (soundWidth bad)
      ∃ t, exec (.laneFailure lanes) s = .next t ∧ t.boot.badLanes = bad ∧ (w = 0 → t.boot.pcieUp = false)
        ∧ (w ≠ 0 → t.boot.pcieUp = true ∧ t.boot.width = w)
        ∧ (0 < w → w < s.boot.width → kclkRuns s = true → ∃ e ∈ t.ev.pending, e.sev = 0 ∧ e.block = 3 ∧ e.code = 1 ∧ e.info = w))
    ∧ (s.power.rails = true → s.boot.held = false → s.clk.lost.contains 0 = false →
      exec .hostLinkReenable s = .next { s with boot := { s.boot with badLanes := 0, width := 16, pcieUp := true } })

/-! ### Tenancy and modes (R452–R480) -/

/-- Nothing of logical quire `q` is in flight, arrives or runs. -/
def Quiet (s : State) (q : Nat) : Prop :=
  (quire s q).flights = [] ∧ (quire s q).arrivals = [] ∧ ∀ st, (stream s q st).state = .idle

/-- A deckle command reaches the device in the state `s0` (R475): from the PF, which has written PRT_CMD and PRT_CMD2, or from Pliac. -/
def Commands (s : State) (src : CmdSource) (cmd : Word) (cmd2 : Word32) (s0 : State) : Prop :=
  (src = .pliac ∧ s.boot.ready = true ∧ kclkRuns s = true ∧ s0 = s)
  ∨ (src = .function 0 ∧ cmd2.getLsbD 31 = true ∧ reaches s 0 .prtCmd2 0 0 = true
    ∧ s0 = regEffect (regEffect s 0 .prtCmd 0 0 (2 ^ 64 - 1) cmd.toNat) 0 .prtCmd2 0 0 (2 ^ 32 - 1) cmd2.toNat)

/-- What CREATE makes of the record `x` of a deckle that did not exist (R477). -/
def created (c : DkCmd) (x : Deckle) (mek : List Byte) : Deckle :=
  { phase := .active, lastOp := 1, groups := c.groups, ways := c.ways, erase := x.erase, memgen := (x.memgen + 1) % 2 ^ 32, mek := some mek }

/-- R475–R480: the deckle commands are accepted or refused with the codes of Table 16.12; CREATE, GRANT and RECLAIM act at once; RESET and
REMOVE drain, scrub and erase, an erase that zeroes with the zero engines. CREATE ending ACTIVE at once is the model's (log entry 9). -/
def Obligations.DeckleLifeCycle : Prop :=
  ∀ s, (∀ src cmd cmd2 s0, Commands s src cmd cmd2 s0 → let c := dkCmdOf cmd.toNat cmd2.toNat
      let x := deckle s c.d
      ((c.op = 1 → x.phase ≠ .none → exec (.create src cmd cmd2) s = .next (fset s0 .prtRes 7 0 0x61))
      ∧ (c.op = 2 → x.phase ≠ .active → exec (.grant src cmd cmd2) s = .next (fset s0 .prtRes 7 0 0x61))
      ∧ (c.op = 3 → x.phase ≠ .active → exec (.reclaim src cmd cmd2) s = .next (fset s0 .prtRes 7 0 0x61))
      ∧ (c.op = 4 → x.phase ≠ .active → exec (.reset src cmd cmd2) s = .next (fset s0 .prtRes 7 0 0x61))
      ∧ (c.op = 5 → x.phase ≠ .active → exec (.remove src cmd cmd2) s = .next (fset s0 .prtRes 7 0 0x61)))
      ∧ (c.op = 1 → x.phase = .none → (∃ d, d < 16 ∧ deckleExists s d = true ∧ (deckle s d).groups &&& c.groups ≠ 0) →
        exec (.create src cmd cmd2) s = .next (fset s0 .prtRes 7 0 0x61))
      ∧ (c.op = 1 → x.phase = .none → c.groups = 0 → exec (.create src cmd cmd2) s = .next (fset s0 .prtRes 7 0 1))
      ∧ (c.op = 1 → x.phase = .none → c.groups ≠ 0 → (∀ d, d < 16 → deckleExists s d = true → (deckle s d).groups &&& c.groups = 0) →
        (s.sealed = true → c.ways ≠ 0 ∧ ∀ d, d < 16 → deckleExists s d = true → (deckle s d).ways &&& c.ways = 0) → s.fe = false →
        s.dram.upsets = [] →
        (∀ q, q < 64 → c.groups.testBit (q / 4) = true → Quiet s q) →
        ∃ t, exec (.create src cmd cmd2) s = .next t ∧ deckle t c.d = created c x (mekOf s c.d ((x.memgen + 1) % 2 ^ 32))
          ∧ (∀ d, d ≠ c.d → deckle t d = deckle s d) ∧ fget t .prtRes 7 0 = 0 ∧ (s.sealed = false → fget t .memDctl 1 1 c.d = c.enc))
      ∧ (c.op = 2 → x.phase = .active → c.badRange = true → exec (.grant src cmd cmd2) s = .next (fset s0 .prtRes 7 0 1))
      ∧ (c.op = 2 → x.phase = .active → c.badRange = false → (∃ g ∈ c.granules, tget 0 s.dram.owner g ≠ 0) →
        exec (.grant src cmd cmd2) s = .next (fset s0 .prtRes 7 0 3))
      ∧ (c.op = 2 → x.phase = .active → c.badRange = false → (∀ g ∈ c.granules, tget 0 s.dram.owner g = 0) →
        ∃ t, exec (.grant src cmd cmd2) s = .next t ∧ (∀ g ∈ c.granules, tget 0 t.dram.owner g = c.d + 1)
          ∧ (∀ g, g ∉ c.granules → tget 0 t.dram.owner g = tget 0 s.dram.owner g)
          ∧ (∀ i, i < c.bytes → memBytes t (c.base + i) 1 = [0#8]) ∧ (∀ p ∈ t.dram.poison, ¬ (c.base ≤ p ∧ p < c.base + c.bytes))
          ∧ (∀ a, (a < c.base ∨ c.base + c.bytes ≤ a) → memBytes t a 1 = memBytes s a 1))
      ∧ (c.op = 3 → x.phase = .active → c.badRange = false → reclaimCheck c s = 0 →
        (c.erase = 0 → encOf s c.d = true → ∃ t, exec (.reclaim src cmd cmd2) s = .next t ∧ (∀ g ∈ c.granules, tget 0 t.dram.owner g = 0)
          ∧ (∀ i, i < c.bytes → memBytes t (c.base + i) 1 = [0#8]))
        ∧ (c.erase = 1 ∨ encOf s c.d = false → ∃ t, exec (.reclaim src cmd cmd2) s = .next t ∧ zeroRuns t 3 c.d = true
          ∧ (∀ g ∈ c.granules, tget 0 t.dram.owner g = c.d + 1) ∧ t.dram = s.dram))
      ∧ (∀ k, (c.op = 4 ∧ k = Instr.reset src cmd cmd2 ∨ c.op = 5 ∧ k = Instr.remove src cmd cmd2) → x.phase = .active →
        ∃ t, exec k s = .next t ∧ (deckle t c.d).phase = .draining ∧ (deckle t c.d).lastOp = c.op ∧ (deckle t c.d).t0 = s.tsc
          ∧ (∀ q ∈ quiresOf s c.d, (quire t q).flights = []) ∧ ((func s (c.d + 1)).tdi = .run → (func t (c.d + 1)).tdi = .error)
          ∧ (∀ r, r < 256 → ringFn s r = c.d + 1 → ∀ e ∈ (ring t r).tracked, hasStarted e = true) ∧ t.dram = s.dram))
    ∧ (∀ d, d < 16 → (deckle s d).phase = .draining → (∀ q ∈ quiresOf s d, (quire s q).flights = [] ∧ (quire s q).arrivals = []) →
      ∃ t, exec (.drainClose d) s = .next t ∧ (deckle t d).phase = .scrubbing ∧ (deckle t d).programs = [] ∧ (deckle t d).measures = []
        ∧ (deckle t d).prot = [] ∧ tfind t.poly d = none ∧ (∀ c, (ctxOf t c).deckle = d → (ctxOf t c).state = .idle)
        ∧ ∀ q ∈ quiresOf s d, (physOf s q ≠ none → (quire t q).spad = [] ∧ (quire t q).handles = []) ∧ ∀ st, st < 8 → (stream t q st).state = .idle)
    ∧ (∀ d, d < 16 → (deckle s d).phase = .scrubbing →
      exec (.keyDestruction d) s = .next (setDeckle s d { deckle s d with mek := none, ptk := [] })
      ∧ ((deckle s d).mek ≠ none → exec (.scrubEnd d) s = .next s)
      ∧ ((deckle s d).mek = none → ∃ t, exec (.scrubEnd d) s = .next t ∧ (deckle t d).phase = .erasing
        ∧ ((deckle s d).erase ≠ 0 ∨ encOf s d = false → granulesOfDeckle s d ≠ [] → zeroRuns t 4 d = true)
        ∧ (∀ i, (qpOf s i).deckle = d → (qpOf t i).state = .free) ∧ (∀ c ∈ t.izk.cqs, c.2.deckle ≠ d)
        ∧ (∀ r, r < 256 → ringFn s r = d + 1 → (ring t r).state = .disabled ∧ (ring t r).tracked = [])))
    ∧ (∀ d, d < 16 → (deckle s d).phase = .erasing →
      (zeroRuns s 3 d = true ∨ zeroRuns s 4 d = true → exec (.eraseEnd d) s = .next s)
      ∧ (zeroRuns s 3 d = false → zeroRuns s 4 d = false → s.fe = false → s.dram.upsets = [] →
        ∃ t, exec (.eraseEnd d) s = .next t
          ∧ ((deckle s d).erase = 0 → encOf s d = true → ∀ g i, g ∈ granulesOfDeckle s d → i < 2 ^ 30 → memBytes t (granuleDpa g + i) 1 = [0#8])
          ∧ ((deckle s d).lastOp = 4 → (deckle t d).phase = .active ∧ (deckle t d).memgen = ((deckle s d).memgen + 1) % 2 ^ 32
            ∧ (deckle t d).mek = some (mekOf s d (((deckle s d).memgen + 1) % 2 ^ 32)) ∧ t.dram.owner = s.dram.owner)
          ∧ ((deckle s d).lastOp ≠ 4 → (deckle t d).phase = .none ∧ (deckle t d).mek = none ∧ granulesOfDeckle t d = [])))

/-- R452–R458, R464, R468, R474: SEAL changes the mode where no deckle exists and SEAL is allowed; transport keys are installed and
zeroised; an image takes effect live; reports are signed in order; the TAP acts in OPEN mode alone. -/
def Obligations.ModesKeysAndTap : Prop :=
  ∀ s, (∀ fn (v : Word), reaches s fn .secMode 0 0 = true → v.getLsbD 0 = true →
      (anyDeckle s = false → s.fuses.lc ≠ 3 → ∃ t, exec (.seal fn v) s = .next t ∧ t.sealed = true ∧ fget t .secMode 1 1 = 0
        ∧ (s.sealed = false → t.spdm.sessions = [] ∧ fget t .secSts 3 3 = 1 ∧ ∀ k, k < 4 → rget t .gctPrf k = 0))
      ∧ (anyDeckle s = true ∨ s.fuses.lc = 3 → ∃ t, exec (.seal fn v) s = .next t ∧ t.sealed = s.sealed ∧ fget t .secMode 1 1 = 1
        ∧ t.spdm = s.spdm))
    ∧ (∀ fn d (v : Word), reaches s fn .secPtkCtl d 0 = true → deckleExists s d = true →
      ((s.sealed = false ∨ fn = d + 1 ∧ (func s fn).tdi = .run) → s.izk.qps = [] → (∀ p, (port s p).txq = []) → s.dram.upsets = [] →
        (v.getLsbD 1 = true → v.getLsbD 3 = false → ∃ t, exec (.loadKey fn d v) s = .next t ∧ (deckle t d).ptkWords = []
          ∧ (tfind (deckle t d).ptk (v.toNat % 2)).map (·.key)
            = some ((List.range 8).flatMap (fun j => leBytes 4 (tget 0#32 (deckle s d).ptkWords j).toNat)))
        ∧ (v.getLsbD 3 = true → ∃ t, exec (.destroy fn d v) s = .next t ∧ tfind (deckle t d).ptk (v.toNat % 2) = none
          ∧ tfind (deckle t d).ptk (1 - v.toNat % 2) = tfind (deckle s d).ptk (1 - v.toNat % 2)))
      ∧ (s.sealed = true → ¬ (fn = d + 1 ∧ (func s fn).tdi = .run) →
        (v.getLsbD 1 = true → ∃ t, exec (.loadKey fn d v) s = .next t ∧ t.deckles = s.deckles ∧ fget t .secPtkCtl 6 6 d = 1)
        ∧ (v.getLsbD 3 = true → ∃ t, exec (.destroy fn d v) s = .next t ∧ t.deckles = s.deckles ∧ fget t .secPtkCtl 6 6 d = 1)))
    ∧ (∀ im, s.mgt.staging.state = .verifying → s.reports = [] → s.boot.ready = true → domainRuns s 2 = true → (bank s (stagedBank s)).image = some im →
      ∃ t, exec .liveActivation s = .next t ∧ (Config.free s.freeCount % 2 = 1 → fget t .secSts 8 8 = 1) ∧ t.boot.running = some im ∧ t.boot.bank = stagedBank s ∧ t.mgt.staging.state = .live
        ∧ t.boot.wmkPub = Config.slhPublic (wmkSeed s im.digest) ∧ t.quires = s.quires ∧ t.deckles = s.deckles)
    ∧ (∀ j rest, s.reports = j :: rest → canReport s = true → domainRuns s 2 = true →
      (∀ i, j.who = .spdm i → sessOpen s i = true → ∃ t, exec .reportSigned s = .next t ∧ t.reports = rest
        ∧ t.out = s.out ++ [.spdm (.error (.largeResponse s.spdm.nextHandle))]
        ∧ t.spdm.chunkOut = some (s.spdm.nextHandle, 0, signedReport s j.body))
      ∧ (∀ slot nonce x r, j.who = .pliac slot nonce → agentRuns s = true → tfind s.mgt.sessions slot = some x → x.exec = some r →
        ∃ t y, exec .reportSigned s = .next t ∧ t.reports = rest ∧ tfind t.mgt.sessions slot = some y
          ∧ y.report = some (nonce, signedReport s j.body) ∧ y.exec = none))
    ∧ (s.sealed = true ∨ s.boot.jtagEn = false → ∀ a target b, exec (.tapAccess a) s = .next s ∧ exec (.jtagLifeCycleRequest target b) s = .next s)
    ∧ (tapOpen s = true → exec (.tapAccess .debugChain) s = .next (fset s .secSts 5 5 0)
      ∧ (∃ t v, exec (.tapAccess .traceBuffer) s = .next t ∧ t.out = s.out ++ [.tap (leBytes 8 v)] ∧ t.deckles = s.deckles)
      ∧ (∀ p (v : Word), p < 68 → 1 ≤ s.fuses.lc → s.fuses.lc ≤ 3 → v.getLsbD 8 = true →
        ∃ t, exec (.tapAccess (.writeInjection (regAddr .qreShtInj p) v)) s = .next t ∧ fget t .qreShtInj 8 8 p = 1 ∧ fget t .secSts 5 5 = 0)
      ∧ (∀ target b, anyDeckle s = true → exec (.jtagLifeCycleRequest target b) s = .next s)
      ∧ (∀ b : BootIn, s.fuses.lc = 3 → anyDeckle s = false → (pin s 0).asserted = true →
        ∃ t, exec (.jtagLifeCycleRequest 4 b) s = .next t ∧ t.fuses = { s.fuses with lc := 4 } ∧ IsWarm { s with fuses := t.fuses } t)
      ∧ (∀ b : BootIn, s.fuses.lc = 0 → anyDeckle s = false → secretsThere s.fuses = true → (pin s 0).asserted = true →
        ∃ t, exec (.jtagLifeCycleRequest 1 b) s = .next t ∧ t.fuses = { s.fuses with lc := 1 }))

/-! ### Pliac and the sideband buses (R541–R560) -/

/-- The session `x` of a slot, whose role may use the command, executes the request `r` with number `cmd`, and the agent serves. -/
abbrev Asked (s : State) (slot cmd least : Nat) (x : PSession) (r : PReq) : Prop :=
  mgtServing s = true ∧ tfind s.mgt.sessions slot = some x ∧ x.exec = some r ∧ r.cmd = cmd ∧ r.begun = false ∧ denied s slot cmd least = false

/-- The response that session `x` gives to request `r`. -/
def rspOf (x : PSession) (slot : Nat) (r : PReq) (status detail : Nat) (body : List Byte) : List Byte :=
  message x.ver 1 r.cmd slot status detail x.sid r.seq x.key body

/-- The response has been sent to where the request came from. -/
def Sent (t : State) (r : PReq) (m : List Byte) : Prop := .datagram r.srcMac r.srcIp r.srcPort m ∈ t.out

/-- Command `c` ends with the response, which the session caches while it has ended the request. -/
def Answers (c : Instr) (s : State) (slot : Nat) (x : PSession) (r : PReq) (status detail : Nat) (body : List Byte) (P : State → Prop) : Prop :=
  let m := rspOf x slot r status detail body
  ∃ t, exec c s = .next t ∧ Sent t r m ∧ (∃ y, tfind t.mgt.sessions slot = some y ∧ y.exec = none ∧ y.cached = m) ∧ P t

/-- R452, R453, R456, R458, R463, R465–R469, R546–R557: the requests of Table 19.4. -/
def Obligations.PliacRequests : Prop :=
  ∀ s slot x r, let asked (cmd least : Nat) : Prop := Asked s slot cmd least x r
    (asked 0x02 0 → r.body = [] → ∃ t, exec (.bye slot) s = .next t ∧ Sent t r (rspOf x slot r 0 0 []) ∧ tfind t.mgt.sessions slot = none)
    ∧ (asked 0x10 0 → r.body = [] → Answers (.identity slot) s slot x r 0 0 (identityBody s) (fun t => t.regs = s.regs))
    ∧ (asked 0x11 0 → r.body = [] → Answers (.telemetry slot) s slot x r 0 0 (telemetryBody s x.ver) (fun t => t.regs = s.regs))
    ∧ (asked 0x31 0 → r.body = [] → Answers (.partitionStatus slot) s slot x r 0 0 (partitionBody s) (fun t => t.regs = s.regs))
    ∧ (asked 0x53 0 → r.body = [] → Answers (.imgStatus slot) s slot x r 0 0 (stageBody s) (fun t => t.regs = s.regs))
    ∧ (asked 0x10 0 → r.body ≠ [] → Answers (.identity slot) s slot x r 3 0 [] (fun _ => True))
    ∧ (asked 0x12 0 → r.body.length = 40 → allZero (sliceB r.body 36 4) = true → canReport s = true → let off := fieldAt r.body 32 4
      (off = 0 → ∃ t, exec (.report slot) s = .next t ∧ t.reports = s.reports ++ [⟨.pliac slot (sliceB r.body 0 32), reportBody s (sliceB r.body 0 32)⟩]
        ∧ tfind t.mgt.sessions slot = some { x with exec := some { r with begun := true } })
      ∧ (∀ data, off ≠ 0 → x.report = some (sliceB r.body 0 32, data) → off < data.length →
        Answers (.report slot) s slot x r 0 0 (reportBytes data off) (fun t => t.reports = s.reports))
      ∧ (off ≠ 0 → x.report = none → Answers (.report slot) s slot x r 5 1 [] (fun t => t.reports = s.reports)))
    ∧ (asked 0x20 1 → r.body.length = 8 → allZero (sliceB r.body 4 4) = true → ∃ a b,
      Answers (.power slot) s slot x r 0 0 (leBytes 4 a ++ leBytes 4 b) (fun t => rget t .pwrCap = a ∧ rget t .pwrCtl = b
        ∧ fget t .pwrCap 10 0 = fieldAt r.body 0 2 % 2048 ∧ fget t .pwrCtl 5 0 = fieldAt r.body 2 1 % 64 ∧ fget t .pwrCtl 13 8 = fieldAt r.body 3 1 % 64))
    ∧ (∀ b, asked 0x21 1 → r.body = zeros 8 → s.power.rails = true → (pin s 0).asserted = true →
      ∃ t, exec (.pliacReset slot b) s = .next t ∧ Sent t r (rspOf x slot r 0 0 []) ∧ IsWarm s t)
    ∧ (∀ failed, asked 0x22 1 → r.body.length = 8 → allZero (sliceB r.body 1 7) = true → let p := fieldAt r.body 0 1
      p < 68 → ((phys s p).logical = none ∨ (phys s p).retired = true ∨ (phys s p).fenced = true) → p ∉ s.retireQueue →
      Answers (.pliacRetire slot failed) s slot x r 5 3 [] (fun t => t.quires = s.quires))
    ∧ (asked 0x30 1 → r.body.length = 16 → allZero (sliceB r.body 12 4) = true →
      let c := deckleCmd (dkCmdOf (fieldAt r.body 0 8) (fieldAt r.body 8 4)) s
      (c.1 ≠ 0 → Answers (.partition slot) s slot x r 5 c.1 [] (fun t => t.deckles = s.deckles))
      ∧ (c.1 = 0 → ∃ t, exec (.partition slot) s = .next t ∧ t.dram = c.2.dram ∧ t.deckles = c.2.deckles ∧ fget t .prtRes 7 0 = 0))
    ∧ (∀ b, asked 0x40 2 → r.body.length = 8 → allZero (sliceB r.body 1 7) = true → let n := fieldAt r.body 0 1
      (lcAllowed s n = true → s.power.rails = true → (pin s 0).asserted = true → ∃ t, exec (.lcSet slot b) s = .next t
        ∧ t.fuses = { s.fuses with lc := n } ∧ Sent t r (rspOf x slot r 0 0 []) ∧ t.boot = {})
      ∧ (lcAllowed s n = false → ∃ v, Answers (.lcSet slot b) s slot x r 5 v [] (fun t => t.fuses = s.fuses)))
    ∧ (r.body.length = 8 → allZero (sliceB r.body 1 7) = true → let op := fieldAt r.body 0 1
      (asked 0x41 1 → op = 0 → anyDeckle s = false → s.fuses.lc ≠ 3 → Answers (.mode slot) s slot x r 0 0 [] (fun t => t.sealed = true))
      ∧ (asked 0x41 2 → op = 1 → anyDeckle s = false → s.fuses.sealOnly = false → Answers (.mode slot) s slot x r 0 0 [] (fun t => t.sealed = false))
      ∧ (asked 0x41 2 → op = 2 → s.fuses.lc = 2 → Answers (.mode slot) s slot x r 0 0 []
        (fun t => t.fuses = { s.fuses with sealOnly := true } ∧ t.sealed = s.sealed ∧ fget t .secSts 4 4 = 1)))
    ∧ (asked 0x42 2 → r.body.length = 8 → allZero (sliceB r.body 1 7) = true → ∀ im, s.boot.running = some im → let n := fieldAt r.body 0 1
      (s.fuses.arb < n → n ≤ im.svn → Answers (.arbAdvance slot) s slot x r 0 0 [] (fun t => t.fuses = { s.fuses with arb := n } ∧ fget t .secSts 23 16 = n))
      ∧ (n ≤ s.fuses.arb ∨ im.svn < n → ∃ v, Answers (.arbAdvance slot) s slot x r 5 v [] (fun t => t.fuses = s.fuses)))
    ∧ (asked 0x50 1 → r.body.length = 8 → allZero (sliceB r.body 4 4) = true → stagingTaken s slot = false → s.mgt.staging.state ≠ .verifying →
      fget s .secSts 10 10 = 0 → let n := fieldAt r.body 0 4
      n % 4096 = 0 → n ≤ 33488896 → Answers (.imgBegin slot) s slot x r 1 0 [] (fun t => t.mgt.staging = { state := .erasing, holder := slot, size := n }
        ∧ (bank t (stagedBank s)).image = none ∧ (s.boot.bank < 2 → bank t s.boot.bank = bank s s.boot.bank)))
    ∧ (asked 0x51 1 → 9 ≤ r.body.length → r.body.length ≤ 1032 → allZero (sliceB r.body 4 4) = true → stagingTaken s slot = false →
      s.mgt.staging.state = .opn → let off := fieldAt r.body 0 4
      let n := r.body.length - 8
      (off + n ≤ s.mgt.staging.size → Answers (.imgWrite slot) s slot x r 0 0 [] (fun t => tslice 0xFF#8 t.mgt.staging.data off n = r.body.drop 8
        ∧ t.mgt.staging.written = s.mgt.staging.written + n ∧ t.mgt.staging.state = .opn
        ∧ ∀ a, (a < off ∨ off + n ≤ a) → tget 0xFF#8 t.mgt.staging.data a = tget 0xFF#8 s.mgt.staging.data a))
      ∧ (s.mgt.staging.size < off + n → Answers (.imgWrite slot) s slot x r 5 1 [] (fun t => t.mgt.staging = s.mgt.staging)))
    ∧ (∀ ok, asked 0x52 1 → r.body = [] → stagingTaken s slot = false → s.mgt.staging.state = .opn →
      ((parseImage s.mgt.staging.data ok).filter (imageValid s) = none →
        Answers (.imgCommit slot ok) s slot x r 1 0 [] (fun t => t.mgt.staging.state = .failed ∧ t.banks = s.banks))
      ∧ (∀ im run, (parseImage s.mgt.staging.data ok).filter (imageValid s) = some im → s.boot.running = some run → s.boot.bank < 2 →
        Answers (.imgCommit slot ok) s slot x r 1 0 [] (fun t => (bank t (stagedBank s)).image = some im ∧ (currentRecord t).2.active = stagedBank s
          ∧ (nth [] im.digests 0 = nth [] run.digests 0 → nth [] im.digests 1 = nth [] run.digests 1 → t.mgt.staging.state = .verifying)
          ∧ (nth [] im.digests 0 ≠ nth [] run.digests 0 → t.mgt.staging.state = .pend ∧ fget t .secSts 10 10 = 1))))
    ∧ (∀ b, asked 0x60 1 → r.body.length = 88 → allZero (sliceB r.body 3 5) = true → s.izk.qps = [] → let p := fieldAt r.body 0 1
      let k := fieldAt r.body 1 1
      (port s p).txq = [] → p ≤ 3 → k ≤ 1 → fieldAt r.body 2 1 ≤ 1 → kwUnwrap s.fuses.kek (sliceB r.body 8 80) = some b →
      allZero (sliceB b 68 4) = true → ∃ t, exec (.linkKey slot) s = .next t
        ∧ tfind (port t p).keys k = some { tx := sliceB b 0 32, rx := sliceB b 32 32, salt := sliceB b 64 4 }
        ∧ (fieldAt r.body 2 1 = 1 → fget t .izkPortCfg 7 7 p = k))
    ∧ (∀ key, asked 0x70 2 → r.body.length = 48 → allZero (sliceB r.body 2 6) = true → let role := fieldAt r.body 0 1
      let c := fieldAt r.body 1 1
      role ≤ 2 → c ≤ 3 → (slot ≠ 12 ∨ role = 2) → kwUnwrap (kdf x.key "QA76 PWK" x.sid 256) (sliceB r.body 8 40) = some key →
      ∃ t, exec (.credInstall slot) s = .next t ∧ Sent t r (rspOf x slot r 0 0 []) ∧ tfind (credSlots t) (4 * role + c) = some key
        ∧ (∀ n, n ≠ 4 * role + c → tfind (credSlots t) n = tfind (credSlots s) n)
        ∧ (tfind (credSlots s) (4 * role + c) ≠ none → tfind t.mgt.sessions (4 * role + c) = none))
    ∧ (asked 0x71 2 → r.body.length = 8 → allZero (sliceB r.body 2 6) = true → let role := fieldAt r.body 0 1
      let c := fieldAt r.body 1 1
      role ≤ 1 → c ≤ 3 → ∃ t, exec (.credRemove slot) s = .next t ∧ Sent t r (rspOf x slot r 0 0 [])
        ∧ tfind (credSlots t) (4 * role + c) = none ∧ (∀ n, n ≠ 4 * role + c → tfind (credSlots t) n = tfind (credSlots s) n)
        ∧ tfind t.mgt.sessions (4 * role + c) = none)
    ∧ (asked 0x80 0 → r.body.length = 8 → allZero (sliceB r.body 1 7) = true → let m := fieldAt r.body 0 1
      Answers (.eventSub slot) s slot x r 0 0 [] (fun t => (tfind t.mgt.sessions slot).bind (·.sub) = if m = 0 then none else some { mask := m }))
    ∧ (∀ b, asked 0x81 0 → r.body.length = 8 → x.sub = some b → Answers (.eventAck slot) s slot x r 0 0 [] (fun t =>
        ((tfind t.mgt.sessions slot).bind (·.sub)).map (·.sent) = some (b.sent.filter (fun m => decide (fieldAt r.body 0 8 < m.1)))))
    ∧ (∀ c cmd least, (c, cmd, least) ∈ [(.bye slot, 0x02, 0), (.identity slot, 0x10, 0), (.telemetry slot, 0x11, 0), (.report slot, 0x12, 0),
        (.power slot, 0x20, 1), (.pliacReset slot {}, 0x21, 1), (.pliacRetire slot [], 0x22, 1), (.partition slot, 0x30, 1),
        (.partitionStatus slot, 0x31, 0), (.lcSet slot {}, 0x40, 2), (.arbAdvance slot, 0x42, 2), (.imgBegin slot, 0x50, 1),
        (.imgWrite slot, 0x51, 1), (.imgCommit slot true, 0x52, 1), (.imgStatus slot, 0x53, 0), (.linkKey slot, 0x60, 1),
        (.credInstall slot, 0x70, 2), (.credRemove slot, 0x71, 2), (.eventSub slot, 0x80, 0), (.eventAck slot, 0x81, (0 : Nat))] →
      mgtServing s = true → tfind s.mgt.sessions slot = some x → x.exec = some r → r.begun = false →
      (r.cmd = cmd → denied s slot cmd least = true → Answers c s slot x r 2 0 [] (fun t => t.fuses = s.fuses ∧ t.deckles = s.deckles ∧ t.banks = s.banks))
      ∧ (r.cmd ≠ cmd → exec c s = .next s))

/-- R541–R544, R549–R551, R556, R557, R559: datagrams are checked, sessions open by HELLO and end, subscribed events are sent and sent
again, staging ends, and the port and the SMBus answer what they list. -/
def Obligations.ManagementPort : Prop :=
  ∀ s, (∀ g : Datagram, portUp s = true → mgtServing s = true → frameTaken s g.dstMac g.plain = true → mgtIp s g.dstIp = true → g.dstPort = fget s .gctMgtCfg 15 0 →
      let p := g.payload
      let len := fieldAt p 12 4
      let slot := slotOfHeader (fieldAt p 8 1) (fieldAt p 9 1)
      let good : Prop := p.length = 72 + len ∧ len ≤ 1088 ∧ fieldAt p 0 4 = 0x31434C50 ∧ fieldAt p 5 1 = 0
      let mac (k : List Byte) : Prop := hmac k (p.take (40 + len)) = p.drop (40 + len)
      let req : PReq := { srcMac := g.srcMac, srcIp := g.srcIp, srcPort := g.srcPort, ver := fieldAt p 4 1, cmd := fieldAt p 6 2,
                          seq := fieldAt p 0x18 8, body := sliceB p 40 len }
      (¬ good → exec (.datagramReceive g) s = .next (fadd s .gctMgtCnt 15 0 1))
      ∧ (good → credKey s slot = none → exec (.datagramReceive g) s = .next (fadd s .gctMgtCnt 15 0 1))
      ∧ (∀ k, good → credKey s slot = some k → req.cmd = 1 →
        (¬ mac k → exec (.datagramReceive g) s = .next (fadd s .gctMgtCnt 15 0 1))
        ∧ (mac k → tfind s.mgt.hellos slot = none →
          exec (.datagramReceive g) s = .next { s with mgt.hellos := tupd s.mgt.hellos slot req }))
      ∧ (∀ k x, good → credKey s slot = some k → req.cmd ≠ 1 → tfind s.mgt.sessions slot = some x →
        (sliceB p 0x10 8 ≠ x.sid ∨ ¬ mac x.key → exec (.datagramReceive g) s = .next (fadd s .gctMgtCnt 15 0 1))
        ∧ (sliceB p 0x10 8 = x.sid → mac x.key →
          (req.seq < x.seq → exec (.datagramReceive g) s = .next (fadd s .gctMgtCnt 31 16 1))
          ∧ (req.seq = x.seq → x.exec = none → x.cached ≠ [] →
            exec (.datagramReceive g) s = .next (emit s (.datagram g.srcMac g.srcIp g.srcPort x.cached)))
          ∧ (x.seq < req.seq → x.exec = none → knownCmd x.ver req.cmd = true → allZero (sliceB p 0x20 8) = true →
            ∃ t, exec (.datagramReceive g) s = .next t ∧ tfind t.mgt.sessions slot
              = some { x with seq := req.seq, exec := some req, cached := [], srcMac := g.srcMac, srcIp := g.srcIp, srcPort := g.srcPort })
          ∧ (x.seq < req.seq → x.exec ≠ none → ∃ t, exec (.datagramReceive g) s = .next t ∧ t.mgt.sessions = s.mgt.sessions
            ∧ Sent t req (message x.ver 1 req.cmd slot 7 0 x.sid req.seq x.key [])))))
    ∧ (∀ slot r, tfind s.mgt.hellos slot = some r → mgtServing s = true → (∀ q ∈ (drbg s 2).queue, q.use ≠ .hello slot) →
      s.fuses.lc ≠ 3 ∨ slot / 4 = 2 → r.body.length = 32 → allZero (sliceB r.body 1 15) = true →
      (fieldAt r.body 0 1 % 4 ≠ 0 → s.rng.failed = false →
        exec (.hello slot) s = .next (askBlock s 2 { who := .agent 2 slot, use := .hello slot }))
      ∧ (∀ k, fieldAt r.body 0 1 % 4 = 0 → credKey s slot = some k → ∃ t, exec (.hello slot) s = .next t ∧ tfind t.mgt.hellos slot = none
        ∧ Sent t r (message 1 1 1 slot 4 0 (zeros 8) r.seq k [])))
    ∧ (∀ slot r k g rest, tfind s.mgt.hellos slot = some r → credKey s slot = some k → g < 4 → canDeliver (drbg s g) = true →
      reseedDue (drbg s g) = false → (drbg s g).count + 1 < 2 ^ 32 → domainRuns s 2 = true → agentRuns s = true →
      (drbg s g).queue = { who := .agent 2 slot, use := .hello slot } :: rest →
      let b := (drbgGen (drbg s g)).2
      ∃ t y, exec (.generate g) s = .next t ∧ tfind t.mgt.sessions slot = some y ∧ y.sid = (b.drop 16).take 8 ∧ y.seq = 0
        ∧ y.key = kdf k "QA76 PLC" (sliceB r.body 16 16 ++ b.take 16 ++ (b.drop 16).take 8) 256 ∧ tfind t.mgt.hellos slot = none)
    ∧ (∀ slot x b, tfind s.mgt.sessions slot = some x → x.sub = some b → mgtServing s = true →
      (b.buffer ≠ [] → let rs := b.buffer.take 32
        let body := leBytes 4 b.lost ++ leBytes 4 rs.length ++ rs.flatMap (fun l => l)
        ∃ t, exec (.event slot) s = .next t
          ∧ t.out = s.out ++ [.datagram x.srcMac x.srcIp x.srcPort (message x.ver 2 0x82 slot 0 0 x.sid b.next x.key body)]
          ∧ (tfind t.mgt.sessions slot).bind (·.sub) = some { b with
              buffer := b.buffer.drop 32, sent := b.sent ++ [(b.next, body)], heldRecs := b.heldRecs + rs.length, next := b.next + 1, lost := 0 })
      ∧ ∃ t, exec (.eventResend slot) s = .next t ∧ t.mgt = s.mgt
        ∧ t.out = s.out ++ b.sent.map (fun m => .datagram x.srcMac x.srcIp x.srcPort (message x.ver 2 0x82 slot 0 0 x.sid m.1 x.key m.2)))
    ∧ (∀ slot, agentRuns s = true → ∃ t, exec (.sessionTimeout slot) s = .next t ∧ tfind t.mgt.sessions slot = none
      ∧ ∀ k, k ≠ slot → tfind t.mgt.sessions k = tfind s.mgt.sessions k)
    ∧ (s.mgt.staging.state = .erasing → agentRuns s = true → exec .eraseDone s = .next { s with mgt.staging.state := .opn })
    ∧ (s.mgt.staging.state ≠ .verifying → agentRuns s = true → exec .stagingTimeout s = .next { s with mgt.staging := {} })
    ∧ (∀ up, s.power.rails = true → s.boot.mgmtEn = true → exec (.managementLinkChange up) s = .next { s with mgt.link := up })
    ∧ (∀ (e : Ether) src dst data, portUp s = true → frameTaken s e.dst e.plain = true → mgtIp s dst = true →
      exec (.echoRequest e src dst data) s = .next (emit s (.icmp e.src src 129 data))
      ∧ exec (.neighborSolicitation e src dst) s = .next (emit s (.icmp e.src src 136
          (beBytes 4 0x60000000 ++ beBytes 16 dst ++ [2#8, 1#8] ++ beBytes 6 (rget s .gctMgtMac)))))
    ∧ (∀ (e : Ether) src dst data, frameTaken s e.dst e.plain = false ∨ mgtIp s dst = false →
      exec (.echoRequest e src dst data) s = .next s ∧ exec (.neighborSolicitation e src dst) s = .next s)
    ∧ (∀ g : Datagram, frameTaken s g.dstMac g.plain = false → exec (.datagramReceive g) s = .next s)
    ∧ (∀ dm plain, frameTaken s dm plain = true ↔ plain = true ∧ (dm = rget s .gctMgtMac % 2 ^ 48 ∨ dm = 0x333300000001
      ∨ dm = 0x3333FF000000 + linkLocal s % 2 ^ 24 ∨ fget s .gctMgtCfg 17 17 = 1 ∧ dm = 0x3333FF000000 + rget s .gctMgtIpl % 2 ^ 24))
    ∧ (agentRuns s = true → (s.boot.fusesRead = true →
        exec .smbusIdentityRead s = .next (emit s (.smbus (24#8 :: smbusIdentity s)))
        ∧ exec .smbusImageSeq s = .next (emit s (.smbus (8#8 :: leBytes 8 ((s.boot.running.map (·.seq)).getD 0))))
        ∧ (s.sealed = false → exec .smbusDieTemperature s = .next (emit s (.smbus (leBytes 1 (min (hottestDie s.power.temps / 8) 255))))
          ∧ exec .smbusMemoryTemperature s = .next (emit s (.smbus (leBytes 1 (min (hottest s.power.temps 100 123 / 8) 255)))))
        ∧ exec .smbusFaultStatus s = .next (emit s (.smbus (leBytes 1
            ((if fget s .evtFatal 33 32 0 ≠ 0 then 1 else 0) + 2 * (if faultN s then 1 else 0) + 4 * (if s.sealed then 1 else 0))))))
      ∧ (s.boot.fusesRead = false → exec .smbusIdentityRead s = .next (emit s (.smbus (24#8 :: zeros 24)))
        ∧ exec .smbusFaultStatus s = .next (emit s (.smbus [0xFF#8])))
      ∧ ∀ c, exec (.smbusWrite c) s = .next (emit s .smbusNack))

/-! ### Izkai (R375–R410) -/

/-- No packet waits at port `p` and no queue pair has one to send. -/
def NothingWaits (s : State) (p : Nat) : Prop := (port s p).txq = [] ∧ ∀ i, (qpOf s i).started = [] ∧ (qpOf s i).reads = []

/-- An event of port `p` has been raised where the collector runs. -/
def PortEvent (s t : State) (sev p code : Nat) : Prop :=
  kclkRuns s = true → ∃ e ∈ t.ev.pending, e.sev = sev ∧ e.block = 8 ∧ e.inst = p ∧ e.code = code

/-- Function `fn` commands deckle `d` by IZK_DK_CMD with operation `op`, no command of the deckle runs, and the deckle is ACTIVE; the
registers written give `s0`. -/
abbrev IzkCommand (s : State) (fn d op : Nat) (v : Word) (s0 : State) : Prop :=
  d < 16 ∧ v.toNat % 16 = op ∧ v.getLsbD 31 = true ∧ fget s .izkDkRes 8 8 d = 0 ∧ reaches s fn .izkDkCmd d 0 = true
    ∧ (deckle s d).phase = .active
    ∧ s0 = regEffect s fn .izkDkCmd d 0 (2 ^ (regRow .izkDkCmd).width - 1) (v.toNat % 2 ^ 32)

/-- The command has ended with a code and a value. -/
def IzkDone (t : State) (d code value : Nat) : Prop := rget t .izkDkRes d = code + 2 ^ 32 * value ∧ fget t .izkDkCmd 31 31 d = 0

/-- R376–R381, R386, R389–R391, R395, R397, R398: ports are enabled, train, negotiate, pause and fail; the commands of a deckle create,
change and destroy queue pairs, completion queues and registrations. -/
def Obligations.IzkaiPortsAndObjects : Prop :=
  ∀ s, (∀ fn p (v : Word), p < 4 → reaches s fn .izkPortCfg p 0 = true → let s0 := written s fn .izkPortCfg p v
      (v.getLsbD 0 = true → (port s p).state = .disabled →
        (portAcceptable s0 p = true → ∃ t, exec (.portEnable fn p v) s = .next t ∧ (port t p).state = .training
          ∧ fget t .izkPortCfg 0 0 p = 1 ∧ fget t .izkPortCfg 22 22 p = 0 ∧ ∀ j, j ≠ p → port t j = port s j)
        ∧ (portAcceptable s0 p = false → ∃ t, exec (.portEnable fn p v) s = .next t ∧ t.izk = s.izk ∧ fget t .izkPortCfg 22 22 p = 1))
      ∧ (v.getLsbD 0 = false → ∃ t, exec (.portDisable fn p v) s = .next t ∧ (port t p).state = .disabled
        ∧ fget t .izkPortCfg 0 0 p = 0 ∧ (port t p).inbox = []
        ∧ (∀ i, i ∈ qpsOfPort s p → (qpOf s i).state = .init ∨ receives (qpOf s i) = true → (qpOf t i).state = .error ∧ (qpOf t i).cause = 1)))
    ∧ (∀ p (lanes : BitVec 8) w l, (port s p).state = .training → refUp s 2 = true →
      widthOf (maxWidth s p) (andNot lanes.toNat (port s p).excluded) = some (w, l) →
      min (max (fget s .izkPortCfg 5 4 p) (if (port s p).narrowed then 1 else 0)) 2 ≤ w ∧ andNot lanes.toNat (port s p).excluded &&& l = l
        ∧ ∃ t, exec (.trainingComplete p lanes) s = .next t ∧ (port t p).state = .negotiate ∧ (port t p).width = w ∧ (port t p).lanes = l
          ∧ (port t p).helloSent = false ∧ (port t p).helloSeen = none ∧ (port t p).narrowed = ((port s p).narrowed || w != 0))
    ∧ (∀ p (lanes : BitVec 8), refUp s 2 = false → exec (.trainingComplete p lanes) s = .next s)
    ∧ (∀ p (lanes : BitVec 8), (port s p).state = .up → ∃ t, exec (.linkLoss p lanes) s = .next t ∧ PortEvent s t 2 p 2 ∧ t.izk.qps = s.izk.qps
      ∧ port t p = { port s p with state := .training, excluded := (port s p).excluded ||| lanes.toNat, lanes := 0, vsel := 0, holding := true })
    ∧ (∀ p, (port s p).holding = true → (port s p).state = .training ∨ (port s p).state = .negotiate → ∃ t, exec (.linkHoldExpired p) s = .next t
      ∧ PortEvent s t 2 p 4 ∧ (port t p).holding = false
      ∧ (∀ i, i ∈ qpsOfPort s p → (qpOf s i).state = .init ∨ receives (qpOf s i) = true → (qpOf t i).state = .error ∧ (qpOf t i).cause = 6))
    ∧ (∀ p, (port s p).state = .negotiate → s.fe = false → lsec s p = false → (port s p).paused.testBit (prioOf s p false) = false →
      (port s p).helloSeen = none → ∃ t f, exec (.helloTransmit p) s = .next t ∧ (port t p).helloSent = true ∧ (port t p).state = .negotiate
        ∧ t.out = s.out ++ [.frame p f])
    ∧ (∀ p x xs, (port s p).inbox = x :: xs → x.op = 0x20 → (port s p).state = .negotiate → NothingWaits s p → let o := bits x.msn 3 2
      ((port s p).helloSent = false → ∃ t, exec (.izkaiHello p) s = .next t ∧ port t p = { port s p with inbox := xs, helloSeen := some o })
      ∧ ((port s p).helloSent = true → o &&& offers s p ≠ 0 → ∃ t, exec (.izkaiHello p) s = .next t ∧ (port t p).state = .up
        ∧ (port t p).vsel = (if (o &&& offers s p).testBit 1 then 2 else 1) ∧ (port t p).wasUp = true ∧ (port t p).holding = false
        ∧ PortEvent s t 0 p 1)
      ∧ ((port s p).helloSent = true → o &&& offers s p = 0 → ∃ t, exec (.izkaiHello p) s = .next t ∧ (port t p).state = .negotiate))
    ∧ (∀ p, (port s p).state = .negotiate → exec (.negotiateFail p) s = .next (raise s (mkEvent 2 8 p 0x05)))
    ∧ (∀ p (m : BitVec 8) quanta, (port s p).state = .up → NothingWaits s p →
      ∃ t, exec (.pfcFrame p m quanta) s = .next t ∧ ∀ i, i < 8 → (port t p).paused.testBit i
        = if m.getLsbD i = true ∧ (fget s .izkPortCfg 15 8 p).testBit i = true then decide (quanta.getD i 0 ≠ 0) else (port s p).paused.testBit i)
    ∧ (∀ p i, i < 8 → (port s p).paused.testBit i = true → NothingWaits s p → ∃ t, exec (.pauseExpiry p i) s = .next t
      ∧ (port t p).paused.testBit i = false ∧ ∀ j, j < 8 → j ≠ i → (port t p).paused.testBit j = (port s p).paused.testBit j)
    ∧ (∀ p i, i < 8 → (port s p).paused.testBit i = true → (port s p).stormed.testBit i = false →
      ∃ t, exec (.pfcStorm p i) s = .next t ∧ (port t p).stormed.testBit i = true ∧ PortEvent s t 0 p 6)
    ∧ (∀ p, (port s p).state = .up ∨ (port s p).state = .negotiate →
      (2 ^ 23 < inboxBytes s p + 2 ^ 20 ∨ (port s p).xoff = true ∧ 2 ^ 23 ≤ inboxBytes s p + 2 ^ 21 → exec (.xoff p) s = .next (emit (setPort s p { port s p with xoff := true }) (.pfc p (izkPrios s p) 0xFFFF)))
      ∧ (inboxBytes s p + 2 ^ 21 < 2 ^ 23 → (port s p).xoff = true →
        exec (.xon p) s = .next (emit (setPort s p { port s p with xoff := false }) (.pfc p (izkPrios s p) 0)))
      ∧ (2 ^ 23 ≤ inboxBytes s p + 2 ^ 21 → exec (.xon p) s = .next s))
    ∧ (∀ fn d v s0, IzkCommand s fn d 1 v s0 → ∀ i s1 c, (List.range 8192).find? (fun i => (qpOf s i).state == .free) = some i →
      readCtx s0 d (izkArg s0 d 0) = (s1, .inl c) → ∃ t, exec (.qpCreate fn d v) s = .next t ∧ IzkDone t d 0 (i + 8192 * (qpOf s i).gen)
        ∧ qpOf t i = { state := .init, gen := (qpOf s i).gen, deckle := d, ctx := c } ∧ ∀ j, j ≠ i → qpOf t j = qpOf s1 j)
    ∧ (∀ fn d v s0, IzkCommand s fn d 2 v s0 → let n := rget s .izkDkArg d 0
      let i := n % 8192
      let k := rget s .izkDkArg d 1
      let q := qpOf s i
      let g := (q.gen + 1) % 2048
      (ownsQpn s d n = false → ∃ t, exec (.qpModify fn d v) s = .next t ∧ IzkDone t d 3 0 ∧ t.izk = s.izk)
      ∧ (ownsQpn s d n = true →
        (k = 1 → q.state = .init ∨ q.state = .rtr ∨ q.state = .error ∧ q.flushed = true → ∃ t, exec (.qpModify fn d v) s = .next t
          ∧ IzkDone t d 0 (i + 8192 * g) ∧ qpOf t i = { state := .reset, gen := g, deckle := d })
        ∧ (k = 3 → q.state = .init → (port s q.ctx.port).state = .up → (port s q.ctx.port).vsel = 2 → ∃ t, exec (.qpModify fn d v) s = .next t
          ∧ IzkDone t d 0 n ∧ qpOf t i = { q with state := .rtr, limit := q.ctx.initCredit, granted := q.ctx.initCredit })
        ∧ (k = 4 → q.state = .rtr → ∃ t, exec (.qpModify fn d v) s = .next t ∧ IzkDone t d 0 n ∧ qpOf t i = { q with state := .rts })
        ∧ (k = 5 → q.state = .rts → ∃ t, exec (.qpModify fn d v) s = .next t ∧ (qpOf t i).state = .error ∧ (qpOf t i).cause = 1)
        ∧ (k = 4 → q.state ≠ .rtr → ∃ t, exec (.qpModify fn d v) s = .next t ∧ IzkDone t d 0x61 0 ∧ t.izk = s.izk)))
    ∧ (∀ fn d v s0, IzkCommand s fn d 3 v s0 → let n := rget s .izkDkArg d 0
      let q := qpOf s (n % 8192)
      ownsQpn s d n = true → (q.state = .reset ∨ q.state = .init ∨ q.state = .error ∧ q.flushed = true →
        ∃ t, exec (.qpDestroy fn d v) s = .next t ∧ IzkDone t d 0 0 ∧ qpOf t (n % 8192) = { gen := q.gen })
      ∧ (receives q = true → ∃ t, exec (.qpDestroy fn d v) s = .next t ∧ IzkDone t d 0x61 0 ∧ t.izk = s.izk))
    ∧ (∀ fn d v s0 c, IzkCommand s fn d 4 v s0 → let a (j : Nat) : Nat := rget s .izkDkArg d j
      tfree s.izk.cqs 8192 = some c → a 0 % 4096 = 0 → 4 ≤ a 1 → a 1 ≤ 16 → a 2 % 4 = 0 → a 3 % 8 = 0 →
      (dkCheck s0 d .izkai true (a 0) (32 * 2 ^ a 1) = 0 → dkCheck s0 d .izkai false (a 2) 4 = 0 →
        (a 3 = 0 ∨ dkCheck s0 d .izkai true (a 3) 8 = 0) → ∃ t, exec (.cqCreate fn d v) s = .next t ∧ IzkDone t d 0 c
          ∧ tfind t.izk.cqs c = some { deckle := d, base := a 0, log := a 1, head := a 2, ctr := a 3, irqen := (a 4).testBit 0, vector := bits (a 4) 5 1 })
      ∧ (dkCheck s0 d .izkai true (a 0) (32 * 2 ^ a 1) ≠ 0 → ∃ t, exec (.cqCreate fn d v) s = .next t ∧ IzkDone t d 3 0 ∧ t.izk = s.izk))
    ∧ (∀ fn d v s0 x, IzkCommand s fn d 5 v s0 → let c := rget s .izkDkArg d 0
      tfind s.izk.cqs c = some x → x.deckle = d →
      ((∀ q ∈ s.izk.qps, q.2.state ≠ .free → q.2.state ≠ .reset → q.2.ctx.scq ≠ c ∧ q.2.ctx.rcq ≠ c) →
        ∃ t, exec (.cqDestroy fn d v) s = .next t ∧ IzkDone t d 0 0 ∧ tfind t.izk.cqs c = none)
      ∧ ((∃ q ∈ s.izk.qps, receives q.2 = true ∧ (q.2.ctx.scq = c ∨ q.2.ctx.rcq = c)) → ∃ t, exec (.cqDestroy fn d v) s = .next t ∧ IzkDone t d 0x61 0 ∧ t.izk = s.izk))
    ∧ (∀ fn d v s0 i, IzkCommand s fn d 6 v s0 → let a (j : Nat) : Nat := rget s .izkDkArg d j
      (List.range 65536).find? (fun i => !(mrOf s i).live) = some i → a 1 ≠ 0 → a 0 + a 1 ≤ 2 ^ 40 → s.rng.failed = false →
      ∃ t, exec (.mrReg fn d v) s = .next t ∧ rget t .izkDkRes d = 256 ∧ { who := .agent 1 d, use := .mrKey d } ∈ (drbg t 2).queue
        ∧ mrOf t i = { deckle := d, base := a 0, len := a 1, rights := a 2 % 8, gen := (mrOf s i).gen, rand := 0 })
    ∧ (∀ fn d v s0, IzkCommand s fn d 7 v s0 → let k := rget s .izkDkArg d 0
      let i := k % 65536
      let m := mrOf s i
      k < 2 ^ 32 → m.live = true → m.ready = true → m.revoked = false → m.deckle = d → m.gen = bits k 23 16 → m.rand = bits k 31 24 →
      (mrUsed s i = false → ∃ t, exec (.mrDereg fn d v) s = .next t ∧ IzkDone t d 0 0 ∧ (mrOf t i).live = false ∧ (mrOf t i).gen = (m.gen + 1) % 256)
      ∧ (mrUsed s i = true → ∃ t, exec (.mrDereg fn d v) s = .next t ∧ rget t .izkDkRes d = 256 ∧ mrOf t i = { m with revoked := true }
        ∧ tfind t.izk.drains d = some i))
    ∧ (∀ d i, tfind s.izk.drains d = some i → (mrUsed s i = true → exec (.revocationDrainEnd d) s = .next s)
      ∧ (mrUsed s i = false → ∃ t, exec (.revocationDrainEnd d) s = .next t ∧ IzkDone t d 0 0 ∧ (mrOf t i).live = false
        ∧ tfind t.izk.drains d = none))
    ∧ (∀ fn d op c (v : Word), (op, c) ∈ [(1, Instr.qpCreate fn d v), (2, .qpModify fn d v), (3, .qpDestroy fn d v), (4, .cqCreate fn d v),
        (5, .cqDestroy fn d v), (6, .mrReg fn d v), (7, .mrDereg fn d v)] → d < 16 → v.toNat % 16 = op → v.getLsbD 31 = true →
      (fget s .izkDkRes 8 8 d = 1 → exec c s = .next s)
      ∧ (fget s .izkDkRes 8 8 d = 0 → reaches s fn .izkDkCmd d 0 = true → (deckle s d).phase ≠ .active →
        ∃ t, exec c s = .next t ∧ IzkDone t d 3 0 ∧ t.izk = s.izk))

/-- The packet at the head of port `p`'s receive buffer names queue pair `i`, and no completion queue has overrun; without it the state
is `u`. -/
def Arrives (s : State) (p i : Nat) (x : Pkt) (u : State) : Prop :=
  (∃ xs, (port s p).inbox = x :: xs ∧ u = setPort s p { port s p with inbox := xs }) ∧ namesQp s p x.dqpn = true ∧ i = x.dqpn % 8192
    ∧ ∀ c ∈ s.izk.cqs, c.2.overrun = false

/-- It is the expected packet of its path and within the credit granted. -/
def InOrder (s : State) (i : Nat) (x : Pkt) : Prop :=
  let q := qpOf s i
  subMod (2 ^ 24) x.psn (q.path x.path).expect = 0
    ∧ (isData x.op = true → 1 ≤ subMod (2 ^ 24) q.granted q.got ∧ subMod (2 ^ 24) q.granted q.got < 2 ^ 23)

/-- R382–R388, R392–R407: frames are dropped and counted or wait for their packet's row; data packets are taken in order, placed under the
registrations that admit them, and complete in MSN order; control packets and timers move the sender; errors put a queue pair into ERROR. -/
def Obligations.IzkaiPacketsAndQueues : Prop :=
  ∀ s, (∀ p f, p < 4 → (port s p).state = .up →
      (outerBody s p f = none → exec (.frameReceive p f) s = .next (fadd s .izkPortCnt2 47 32 1 p))
      ∧ (∀ b, outerBody s p f = some b → lsec s p = false → let h := { parseHeader b with size := f.length, prio := frameClass s p f }
        (b.length < 48 → exec (.frameReceive p f) s = .next (fadd s .izkPortCnt2 47 32 1 p))
        ∧ (48 ≤ b.length → izkHeaderOk (port s p).vsel b h = false → exec (.frameReceive p f) s = .next (fadd s .izkPortCnt 15 0 1 p))
        ∧ (48 ≤ b.length → izkHeaderOk (port s p).vsel b h = true → h.op ≠ 0x20 → namesQp s p h.dqpn = false →
          exec (.frameReceive p f) s = .next (fadd s .izkPortCnt 31 16 1 p))
        ∧ (48 ≤ b.length → izkHeaderOk (port s p).vsel b h = true → namesQp s p h.dqpn = true → hasPsn h.op = false → h.op ≠ 0x20 →
          h.path < (qpOf s (h.dqpn % 8192)).ctx.npaths → s.sealed = false → h.flags.testBit 1 = false →
          keysGone s (qpOf s (h.dqpn % 8192)).deckle = false →
          exec (.frameReceive p f) s = .next (setPort s p { port s p with inbox := (port s p).inbox ++ [{ h with payload := b.drop 48 }] })))
      ∧ (∀ b, outerBody s p f = some b → lsec s p = true → 80 ≤ b.length → tfind (port s p).keys (fieldAt b 0 1 % 2) = none →
        ∃ t, exec (.frameReceive p f) s = .next t ∧ (port t p).inbox = (port s p).inbox
          ∧ fget t .izkPortCnt 47 32 p = satInc 16 (fget s .izkPortCnt 47 32 p) 1))
    ∧ (∀ p f, (port s p).state = .disabled ∨ (port s p).state = .training → exec (.frameReceive p f) s = .next s)
    ∧ (∀ p i x c u, Arrives s p i x u → (c, x.op) ∈ [(Instr.write p, 1), (.writeImm p, 2), (.send p, 3), (.readReq p, 4), (.readResp p, 5)] →
      let d := subMod (2 ^ 24) x.psn ((qpOf s i).path x.path).expect
      (d ≠ 0 → d < 2 ^ 23 → ∃ t, exec c s = .next t ∧ t.dram = s.dram ∧ ((qpOf t i).state ≠ .error → ((qpOf t i).path x.path).gap = some ((qpOf s i).path x.path).expect
        ∧ ((qpOf t i).path x.path).expect = ((qpOf s i).path x.path).expect))
      ∧ (d = 0 → isData x.op = true → (qpOf s i).granted = (qpOf s i).got → (qpOf s i).got < 2 ^ 24 →
        ∃ t, exec c s = .next t ∧ t.dram = s.dram ∧ ((qpOf t i).state ≠ .error → qpOf t i = qpOf s i)))
    ∧ (∀ p i x u, Arrives s p i x u → InOrder s i x → let q := qpOf s i
      let d := q.deckle
      q.msgs = [] → q.recvDone = [] → x.msn = q.rxMsn → q.rxMsn < 2 ^ 32 → (deckle s d).phase = .active →
      ((qpsOfPort s p).foldl (fun n j => n + (qpOf s j).msgs.length) 0 < 16384) → x.offset = 0 → x.payload.length = x.mlen → x.flags.testBit 0 = true →
      let taken (t : State) : Prop := (qpOf t i).state ≠ .error → ((qpOf t i).path x.path).expect = ((q.path x.path).expect + 1) % 2 ^ 24
        ∧ (qpOf t i).rxMsn = (q.rxMsn + 1) % 2 ^ 32
      let refused (t : State) (cause : Nat) : Prop := (qpOf t i).state = .error ∧ (qpOf t i).cause = cause
      (∀ s1, x.op = 1 → keyAdmits u d x.rkey (some 2) x.va x.mlen = true → dkWrite u d .izkai x.va x.payload = (s1, none) → q.ctx.rxCtr = 0 →
        ∃ t, exec (.write p) s = .next t ∧ t.dram.data = s1.dram.data ∧ taken t)
      ∧ (x.op = 1 → keyAdmits u d x.rkey (some 2) x.va x.mlen = false → ∃ t, exec (.write p) s = .next t ∧ refused t 3)
      ∧ (∀ s1, x.op = 2 → posted q x.rsn = true → keyAdmits u d x.rkey (some 2) x.va x.mlen = true → x.rsn = q.rqCi →
        dkWrite u d .izkai x.va x.payload = (s1, none) → ∃ t, exec (.writeImm p) s = .next t ∧ taken t
          ∧ ((qpOf t i).state ≠ .error → (qpOf t i).rqCi = (q.rqCi + 1) % 2 ^ 32))
      ∧ (x.op = 2 → keyAdmits u d x.rkey (some 2) x.va x.mlen = true → posted q x.rsn = false → ∃ t, exec (.writeImm p) s = .next t
        ∧ t.dram.data = s.dram.data ∧ ((qpOf t i).state ≠ .error → qpOf t i = q))
      ∧ (∀ s1 s2 b, x.op = 3 → posted q x.rsn = true → x.rsn = q.rqCi → rqEntry u i x.rsn = (s1, .ok b) → x.mlen ≤ fieldAt b 20 4 →
        keyAdmits s1 d (fieldAt b 16 4) (some 0) (fieldAt b 8 8) x.mlen = true → dkWrite s1 d .izkai (fieldAt b 8 8) x.payload = (s2, none) →
        ∃ t, exec (.send p) s = .next t ∧ taken t)
      ∧ (∀ s1 b, x.op = 3 → posted q x.rsn = true → rqEntry u i x.rsn = (s1, .ok b) → fieldAt b 20 4 < x.mlen →
        ∃ t, exec (.send p) s = .next t ∧ refused t 4))
    ∧ (∀ p i x u, Arrives s p i x u → InOrder s i x → x.op = 4 → let q := qpOf s i
      q.msgs = [] → q.recvDone = [] → x.msn = q.rxMsn → q.rxMsn < 2 ^ 32 → (deckle s q.deckle).phase = .active →
      (16384 ≤ (qpsOfPort s p).foldl (fun n j => n + (qpOf s j).msgs.length) 0 →
        ∃ t, exec (.readReq p) s = .next t ∧ t.dram = s.dram ∧ qpOf t i = q)
      ∧ ((qpsOfPort s p).foldl (fun n j => n + (qpOf s j).msgs.length) 0 < 16384 →
      (keyAdmits u q.deckle x.rkey (some 1) x.va x.mlen = false → ∃ t, exec (.readReq p) s = .next t ∧ (qpOf t i).state = .error ∧ (qpOf t i).cause = 3)
      ∧ (∀ s1 b, keyAdmits u q.deckle x.rkey (some 1) x.va x.mlen = true → dkRead u q.deckle .izkai x.va x.mlen = (s1, .ok b) →
        ∃ t, exec (.readReq p) s = .next t ∧ ((qpOf t i).state ≠ .error → (qpOf t i).rxMsn = (q.rxMsn + 1) % 2 ^ 32
          ∧ ∃ r ∈ (qpOf t i).reads, r.msn = x.msn ∧ r.mr = x.rkey % 65536))))
    ∧ (∀ p i x e s1 u, Arrives s p i x u → InOrder s i x → x.op = 5 → (qpOf s i).started.head? = some e → e.msn = x.msn → fieldAt e.entry 0 1 = 4 →
      dkWrite u (qpOf s i).deckle .izkai (fieldAt e.entry 16 8 + x.offset) x.payload = (s1, none) → e.placed + x.payload.length < fieldAt e.entry 28 4 →
      ∃ t, exec (.readResp p) s = .next t ∧ t.dram.data = s1.dram.data
        ∧ ((qpOf t i).state ≠ .error → (entryOfMsn (qpOf t i) x.msn).map (·.placed) = some (e.placed + x.payload.length)))
    ∧ (∀ p i x u, Arrives s p i x u → let q := qpOf s i
      let later (y : Pkt) : Prop := ¬ (1 ≤ subMod (2 ^ 24) x.psn y.psn ∧ subMod (2 ^ 24) x.psn y.psn < 2 ^ 23)
      (x.op = 0x10 → q.started = [] → q.reads = [] → ∃ t, exec (.ack p) s = .next t ∧ t.dram = s.dram ∧ ((qpOf t i).state ≠ .error →
        (∀ y, y ∈ ((qpOf t i).path x.path).unacked ↔ y ∈ (q.path x.path).unacked ∧ later y)
        ∧ (qpOf t i).limit = if 1 ≤ subMod (2 ^ 24) (x.msn % 2 ^ 24) q.limit ∧ subMod (2 ^ 24) (x.msn % 2 ^ 24) q.limit < 2 ^ 23
            then x.msn % 2 ^ 24 else q.limit))
      ∧ (x.op = 0x11 → x.rkey % 256 = 0x10 → q.started = [] → q.reads = [] →
        ∃ t, exec (.nak p) s = .next t ∧ (qpOf t i).state = .error ∧ (qpOf t i).cause = 3)
      ∧ (x.op = 0x11 → x.rkey % 256 = 3 → q.started = [] → q.reads = [] → ∃ t, exec (.nak p) s = .next t
        ∧ ((qpOf t i).state ≠ .error → ((qpOf t i).path x.path).rnrWait = true))
      ∧ (x.op = 0x12 → q.started = [] → q.reads = [] → let c := x.msn % 2 ^ 24
        1 ≤ subMod (2 ^ 24) c q.limit → subMod (2 ^ 24) c q.limit < 2 ^ 23 →
        ∃ t, exec (.credit p) s = .next t ∧ ((qpOf t i).state ≠ .error → qpOf t i = { q with limit := c }))
      ∧ (x.op = 0x13 → let o := outstanding s p
        o.2 + max 16 (fget s .izkPortGrant 15 0 p) < o.1 + 16 →
        ∃ t, exec (.creditReq p) s = .next t ∧ ((qpOf t i).state ≠ .error → qpOf t i = { q with wanted := x.msn }))
      ∧ (x.op = 0x14 → ∃ t, exec (.terminate p) s = .next t ∧ (qpOf t i).state = .error ∧ (qpOf t i).cause = 4 ∧ (qpOf t i).flushed = true))
    ∧ (∀ i k, timersRun s i = true → let q := qpOf s i
      let w := q.path k
      (w.sinceAck ≠ 0 → ∃ t, exec (.ackTimer i k) s = .next t ∧ ((qpOf t i).path k).sinceAck = 0 ∧ ((qpOf t i).path k).expect = w.expect)
      ∧ (∀ x xs, w.rnrWait = false → w.unacked = x :: xs →
        (max 1 (fget s .izkPortTmr 13 10 q.ctx.port) ≤ w.retries + 1 →
          ∃ t, exec (.rtoExpiry i k) s = .next t ∧ (qpOf t i).state = .error ∧ (qpOf t i).cause = 6)
        ∧ (w.retries + 1 < max 1 (fget s .izkPortTmr 13 10 q.ctx.port) →
          ∃ t, exec (.rtoExpiry i k) s = .next t ∧ ((qpOf t i).path k).retries = w.retries + 1 ∧ (qpOf t i).state = q.state))
      ∧ (w.rnrWait = true → ∃ t, exec (.rnrDelayExpiry i k) s = .next t ∧ ((qpOf t i).path k).rnrWait = false)
      ∧ (∀ x, hasCredit q = false → nextTx q = some x → isData x.op = true →
        ∃ t, exec (.creditTimeout i) s = .next t ∧ (qpOf t i).state = .error ∧ (qpOf t i).cause = 7)
      ∧ (hasCredit q = true → exec (.creditTimeout i) s = .next s)
      ∧ (∀ m ∈ q.msgs, m.whole = false → ∃ t, exec (.msgTmoExpiry i m.msn) s = .next t ∧ (qpOf t i).state = .error ∧ (qpOf t i).cause = 6))
    ∧ (∀ i s1 v, (qpOf s i).state = .rts → wordRead s (qpOf s i).deckle (qpOf s i).ctx.db 4 = (s1, some v) → let q := qpOf s i
      (subMod (2 ^ 32) v q.sqCi ≤ 2 ^ q.ctx.sqLog → ∃ t, exec (.qpDoorbell i false) s = .next t ∧ qpOf t i = { q with sqPi := v })
      ∧ (2 ^ q.ctx.sqLog < subMod (2 ^ 32) v q.sqCi → ∃ t, exec (.qpDoorbell i false) s = .next t ∧ (qpOf t i).state = .error ∧ (qpOf t i).cause = 5))
    ∧ (∀ i s1 v, receives (qpOf s i) = true → (qpOf s i).ctx.rqLog ≠ 0 → wordRead s (qpOf s i).deckle ((qpOf s i).ctx.db + 4) 4 = (s1, some v) →
      let q := qpOf s i
      (subMod (2 ^ 32) v q.rqCi ≤ 2 ^ q.ctx.rqLog → ∃ t, exec (.qpDoorbell i true) s = .next t ∧ qpOf t i = { q with rqPi := v })
      ∧ (2 ^ q.ctx.rqLog < subMod (2 ^ 32) v q.rqCi → ∃ t, exec (.qpDoorbell i true) s = .next t ∧ (qpOf t i).state = .error ∧ (qpOf t i).cause = 5))
    ∧ (∀ i s1 k e, headEntry s i = (s1, some (k, .ok e)) → let q := qpOf s1 i
      let op := fieldAt e 0 1
      let n := fieldAt e 28 4
      (fieldAt e 1 1).testBit 2 = false →
      (∀ s2 b, op = 1 ∨ op = 2 ∨ op = 3 → keyAdmits s1 q.deckle (fieldAt e 24 4) none (fieldAt e 16 8) n = true →
        dkRead s1 q.deckle .izkai (fieldAt e 16 8) n = (s2, .ok b) → ∃ t, exec (.sendEntryStart i) s = .next t
          ∧ ((qpOf t i).state ≠ .error → (qpOf t i).sqNext = (k + 1) % 2 ^ 32 ∧ (qpOf t i).txMsn = (q.txMsn + 1) % 2 ^ 32
            ∧ (qpOf t i).txRsn = (q.txRsn + (if op = 1 then 0 else 1)) % 2 ^ 32 ∧ ∃ x ∈ (qpOf t i).started, x.index = k ∧ x.msn = q.txMsn ∧ x.entry = e))
      ∧ (op = 1 ∨ op = 2 ∨ op = 3 → keyAdmits s1 q.deckle (fieldAt e 24 4) none (fieldAt e 16 8) n = false →
        ∃ t, exec (.sendEntryStart i) s = .next t ∧ (qpOf t i).state = .error ∧ (qpOf t i).cause = 5))
    ∧ (∀ i s1 s2 k e b, headEntry s i = (s1, some (k, .ok e)) → (fieldAt e 1 1).testBit 2 = true → fieldAt e 48 8 % 8 = 0 →
      dkRead s1 (qpOf s1 i).deckle .izkai (fieldAt e 48 8) 8 = (s2, .ok b) →
      exec (.sendEntryStart i) s = .next s ∧ (leNat b < fieldAt e 56 8 → exec (.triggeredStart i) s = .next s)
      ∧ (fieldAt e 56 8 ≤ leNat b → fieldAt e 0 1 = 15 → ∃ t, exec (.triggeredStart i) s = .next t
        ∧ ((qpOf t i).state ≠ .error → (qpOf t i).sqNext = (k + 1) % 2 ^ 32)))

/-! ### Arithmetic of the sheets' checks -/

/-- The 7 bits of `r` rotated left by `s` mod 7. -/
def rot7 (r s : Nat) : Nat := r * 2 ^ (s % 7) % 128 + r / 2 ^ (7 - s % 7)

/-- R55: a residue is the mathematical remainder modulo 127, from 0 to 126, of a negative number too; multiplying a residue by 2ˢ rotates
its 7 bits left by s mod 7. -/
def ResidueArithmetic : Prop :=
  (∀ x : Int, res127 x < 127 ∧ ∃ k : Int, x = 127 * k + (res127 x : Int))
  ∧ (∀ r s : Nat, r < 127 → res127 ((r * 2 ^ s : Nat) : Int) = rot7 r s ∧ rot7 r s < 127
      ∧ ∀ i, i < 7 → (rot7 r s).testBit ((i + s % 7) % 7) = r.testBit i)

/-- R79: an update that would carry an element of a Vat-N or Vat-W tile out of range leaves that element and sets the flag of its
direction; the other elements are added; a Vat-I tile wraps and sets no flag. -/
def VatElementOverflow : Prop :=
  ∀ (t : Tile) (ds : List Int), ds.length = t.elems.length →
    let u := addAll t ds
    let h : Int := ((2 ^ (vatBits t.fmt - 1) : Nat) : Int)
    let n (e : Nat) : Int := t.elems.getD e 0 + ds.getD e 0
    u.elems.length = t.elems.length
    ∧ (t.fmt ≠ 2 → (∀ e, e < t.elems.length → u.elems.getD e 0 = if -h ≤ n e ∧ n e < h then n e else t.elems.getD e 0)
        ∧ (u.ovfPos = true ↔ t.ovfPos = true ∨ ∃ e, e < t.elems.length ∧ h ≤ n e)
        ∧ (u.ovfNeg = true ↔ t.ovfNeg = true ∨ ∃ e, e < t.elems.length ∧ n e < -h))
    ∧ (t.fmt = 2 → (∀ e, e < t.elems.length → (u.elems.getD e 0 - n e) % 2 ^ 64 = 0 ∧ -2 ^ 63 ≤ u.elems.getD e 0 ∧ u.elems.getD e 0 < 2 ^ 63)
        ∧ u.ovfPos = t.ovfPos ∧ u.ovfNeg = t.ovfNeg)

/-! ### The whole block -/

/-- A step is `exec` of the command at the front of the queue on the state with the queue's rest; on an empty queue one cycle of
CORE_REFCLK passes, which is the model's own choice (log entry 2). -/
def Obligations.StepRunsFrontCommand : Prop :=
  ∀ s, (∀ c rest, s.pending = c :: rest → step s = exec c { s with pending := rest }) ∧ (s.pending = [] → step s = .next (idleCycle s))

/-- R11, R560, R569: `State.reset` has the rails up, PERST_N asserted, nothing commanded, every register at its reset value, no quire
numbered, no deckle, ring or session, and memory with nothing listed. The fuse contents are the model's own (log entry 6). -/
def Obligations.ResetState : Prop :=
  let s := State.reset
  s.pending = [] ∧ s.power.rails = true ∧ (pin s 0).asserted = true ∧ s.boot.held = true ∧ s.boot.ready = false ∧ s.sealed = false
    ∧ s.fe = false ∧ (∀ r k j, rget s r k j = resetOf (regRow r)) ∧ s.quires = [] ∧ s.deckles = [] ∧ s.host = {} ∧ s.sessions = []
    ∧ s.dram = {} ∧ s.serving = {} ∧ s.poly = [] ∧ s.izk = {} ∧ s.mgt = {} ∧ CanonicalForm s ∧ BlownFrom factoryFuses s

/-- Every step, from every state in canonical form, leaves memory and the registers in canonical form. -/
def Obligations.StepKeepsCanonicalForm : Prop := ∀ s t, CanonicalForm s → step s = .next t → CanonicalForm t

/-- R451, R455, R469: no step unblows a fuse or changes a fused secret: the life-cycle count and the rollback count never fall, SEAL_ONLY
stays, and keys, serial number and spare quires stand. -/
def StepOnlyBlowsFuses : Prop := ∀ f s t, BlownFrom f s → step s = .next t → BlownFrom f t

/-- The commands that reset the device or take its rails down. -/
def ResetCommand (c : Instr) : Prop :=
  c = .perstNAssert ∨ (∃ b, c = .perstNRelease b) ∨ (∃ fn v b, c = .gctReset fn v b) ∨ c = .powerApplied ∨ c = .inputOutOfRange
    ∨ c = .shutdownRailsOff ∨ c = .shutdnNRelease ∨ (∃ p l, c = .rawPinEdge p l) ∨ (∃ p, c = .filterOutputChange p) ∨ (∃ x, c = .sensorRead x) ∨ (∃ n b, c = .pliacReset n b) ∨ (∃ n b, c = .lcSet n b)
    ∨ (∃ x b, c = .jtagLifeCycleRequest x b)

/-- R455, R456, R505: only a reset ends the FE state, and but for a reset SEALED mode ends only by an operator's MODE request while no
deckle exists and SEAL_ONLY does not bind. -/
def StepLeavesModesByNamedWays : Prop :=
  ∀ s t, step s = .next t → (∀ c rest, s.pending = c :: rest → ¬ ResetCommand c) →
    (s.fe = true → t.fe = true)
    ∧ (s.sealed = true → t.sealed = false → ∃ n rest, s.pending = .mode n :: rest ∧ anyDeckle s = false
        ∧ (s.fuses.sealOnly = false ∨ s.fuses.lc = 3))

/-- R55, R79: the residue arithmetic of the sheets' checks, and what an update does to an element at the end of its range. -/
def Obligations.SheetArithmetic : Prop := ResidueArithmetic ∧ VatElementOverflow

/-- R451, R455, R456, R469, R505: no step unblows a fuse, and the FE state and SEALED mode end only by the commands named. -/
def Obligations.StepsKeepFusesAndModes : Prop := StepOnlyBlowsFuses ∧ StepLeavesModesByNamedWays

/-! ### Where each command completes with its own effect

One clause a form, each with conditions on the state and the operands alone; the statements above say more of the same forms. -/

/-- R413–R417, R421, R451, R561–R568: under the conditions named, the reset and the clock commands complete: the device is held in a WARM
reset, becomes READY, resets one quire; a PLL unlocks, locks or is selected, a reference goes and comes, ACLK steps, a queue is emptied. -/
def Obligations.ResetAndClockCommandsComplete : Prop :=
  ∀ s, (s.power.rails = true → s.boot.held = false →
      ∃ t, exec .perstNAssert s = .next t ∧ (pin t 0).asserted = true ∧ t.boot = {} ∧ t.quires = [] ∧ t.fuses = s.fuses)
    ∧ (∀ im, (refUp s 1 = true ∨ refUp s 2 = true) → s.fuses.lc ≠ 0 → s.fuses.lc ≠ 4 → validImage s (currentRecord s).2.active = some im →
      s.ev.deferred = [] → s.power.rails = true →
      ((pin s 0).forced = false → s.boot.held = true →
        ∃ t, exec (.perstNRelease {}) s = .next t ∧ t.boot.ready = true ∧ t.boot.held = false ∧ t.boot.running = some im)
      ∧ (∀ fn (v : Word), reaches s fn .gctReset 0 0 = true → v.toNat % 65536 = 0xA55A → (pin s 0).asserted = false →
        ∃ t, exec (.gctReset fn v {}) s = .next t ∧ t.boot.ready = true ∧ t.boot.held = false ∧ t.boot.running = some im ∧ t.deckles = []))
    ∧ (∀ fn p q d, reaches s fn .qreRst p 0 = true → (phys s p).logical = some q → (phys s p).retired = false → (phys s p).fenced = false →
      deckleOfQuire s q = some d → (deckle s d).phase = .active →
      ∃ t, exec (.quireReset fn p) s = .next t ∧ fget t .qreRst 3 2 p = 1 ∧ (quire t q).spad = [] ∧ (quire t q).handles = [])
    ∧ (∀ d, d < 12 → ((domain s d).primLocked = true →
        (∃ t, exec (.primaryUnlock d) s = .next t ∧ (domain t d).primLocked = false)
        ∧ ∃ t, exec (.pllDualLost d) s = .next t ∧ (domain t d).primLocked = false ∧ (domain t d).stbyLocked = false ∧ t.fe = true)
      ∧ ((domain s d).stbyLocked = true → ∃ t, exec (.standbyUnlock d) s = .next t ∧ (domain t d).stbyLocked = false)
      ∧ (refUp s 1 = true → ∃ t, exec (.primaryRelock d) s = .next t ∧ (domain t d).primLocked = true)
      ∧ (refUp s 2 = true → ∃ t, exec (.standbyRelock d) s = .next t ∧ (domain t d).stbyLocked = true)
      ∧ (∀ fn (v : Word), reaches s fn .clkSwback 0 0 = true → v.getLsbD d = true → (domain s d).primLocked = true →
        ∃ t, exec (.switchBack fn v) s = .next t ∧ (domain t d).onStandby = false))
    ∧ (∀ r, r < 4 → (refUp s r = true → ∃ t, exec (.refLost r) s = .next t ∧ refUp t r = false)
      ∧ (refUp s r = false → ∃ t, exec (.refPresent r) s = .next t ∧ refUp t r = true))
    ∧ (domainRuns s 0 = true → s.clk.aclk < min (min 36 (fget s .clkAclk 5 0)) (fget s .clkAclk 21 16) →
      ∃ t, exec .aclkStep s = .next t ∧ t.clk.aclk = s.clk.aclk + 1)
    ∧ (∀ c n k, c < 8 → ∃ t, exec (.cdcPtrMismatch c n k) s = .next t ∧ fget t .clkCdcSts (8 + c) (8 + c) = 1)

/-- R160, R162, R204, R207, R213, R218, R220–R222, R229, R326, R472: under the conditions named, the serving instructions, the swap
engine's moves, the pools, the transfers, the prefetches and the K. instructions complete, C.SAMPLE when its block comes. -/
def Obligations.ServingAndTransferCommandsComplete : Prop :=
  (∀ q st w s s1, let n := (stream s1 q st).nextSeq
    let a := (stream s1 q st).s w.f1.toNat
    let b2 := (stream s1 q st).s w.f2.toNat
    let b3 := (stream s1 q st).s (f3Of w)
    let d := dkOf s1 q
    let u := advance s1 q st w
    let y := ctxOf s1 a
    (∀ b dir u3, Alone s q st (ctxOp 0 .s .s .none 0) w s1 → Attaches s1 u q st w b dir u3 →
      ∃ v, exec (.cAttach q st w) s = .next (settleQuire v q) ∧ ctxOf v a = attached b d b2 dir)
    ∧ (Alone s q st (ctxOp 1 .s .sw .none 0) w s1 → 1 ≤ b2 → b2 ≤ 1024 → SpadOperand a (32 * b2) →
      let c1 := closeStep u q st true
      readyCtxs c1 d (fun x => x.state == .active && !x.instep) = [] → (stream c1 q st).state = .running →
      ∃ v, exec (.cStep q st w) s = .next (settleQuire v q) ∧ (stream v q st).step = some [] ∧ (f3Of w ≠ 0 → sval v q st (f3Of w) = 0#64))
    ∧ (Alone s q st (ctxOp 2 .s .s .sw 0) w s1 → 1 ≤ b3 → b3 ≤ 262144 → a < 4096 → y.state ≠ .idle → y.deckle = d → SpadOperand b2 (4 * b3) →
      (quire s1 q).pipeBusy &&& 5 = 0 → (∃ es e, (stream s1 q st).step = some es ∧ e ∈ es ∧ e.ctx = a ∧ e.samples = true) →
      y.sampled = false → y.sampling = false → s1.rng.failed = false →
      ∃ v, exec (.cSample q st w) s = .next (settleQuire v q) ∧ { who := .stream q st n } ∈ (drbg v 0).queue)
    ∧ (Alone s q st (ctxOp 3 .none .none .none (maskOf 22 22)) w s1 → a < 4096 → y.state ≠ .idle → y.deckle = d → y.moving = false →
      (if w.low.getLsbD 22 then y.state = .active ∨ y.state = .resident else y.state = .swapped) →
      ∃ v, exec (.cSwap q st w) s = .next (settleQuire v q) ∧ ctxOf v a = y ∧ findFlight v q st n = none)
    ∧ (∀ v, Alone s q st (copyOp 0 w) w s1 →
      let x := dDesc (spadBytes s1 q a 32)
      a % 32 = 0 → a + 32 ≤ spadSize → (quire s1 q).upsets = [] → spadBad s1 q a 32 = false → descCheck w x = 0 → dspOf w = 1 →
      RowsMove q w x x.rows 0 (consumeLines u q (planCopy q s1 (newFlight s1 q st w (copyOp 0 w))).f.mem) v →
      exec (.dCopy q st w) s = .next (settleQuire (dropFlight v q st n) q))
    ∧ (∀ v bs, let x := dDesc (spadBytes s1 q a 32)
      Alone s q st (copyOp 2 w) w s1 → a % 32 = 0 → a + 32 ≤ spadSize → (quire s1 q).upsets = [] → spadBad s1 q a 32 = false → descCheck w x = 0 →
      objElsewhere s1 d b2 none = false → objRoom s1 d b2 none = true → optF w 12 12 = 0 →
      RowsLoad q x x.rows 0 (consumeLines u q (planCopy q s1 (newFlight s1 q st w (copyOp 2 w))).f.mem) v bs →
      exec (.dMload q st w) s = .next (settleQuire (dropFlight (extendObj v d b2 none bs) q st n) q))
    ∧ (Alone s q st { maj := 0x20, sub := 1, f1 := .s, f2 := .s, opt := maskOf 22 13, ord := true } w s1 →
      ∃ v, exec (.dPref q st w) s = .next (settleQuire v q)
        ∧ (tfind (quire v q).prefetch (optF w 22 19)).map (fun p => (p.addr, p.len)) = some (a, b2))
    ∧ ((quire s1 q).upsets = [] → spadBad s1 q b2 b3 = false → b2 < spadSize → b2 + b3 ≤ spadSize → a < spadSize →
      let m := (stream s1 q st).s (f4Of w)
      let bs := spadBytes s1 q b2 b3
      (Alone s q st (keyOp w 0 .none) w s1 → a + 32 ≤ spadSize → exec (.kSha q st w) s = .next (settleQuire (spadWrite u q a (sha256 bs)) q))
      ∧ (Alone s q st (keyOp w 2 .s) w s1 → a + m ≤ spadSize → exec (.kShake q st w) s = .next (settleQuire (spadWrite u q a (shake128 bs m)) q))
      ∧ (∀ key, Alone s q st (keyOp w 1 .s) w s1 → a + b3 ≤ spadSize → keyOf s1 q m = some key →
        exec (.kAes q st w) s = .next (settleQuire (spadWrite (takeFree u).2 q a (if optF w 22 21 = 0
          then aesCtr key (leBytes 16 (takeFree u).1) bs else gcmCrypt (aesKeys key) (leBytes 12 (takeFree u).1) bs)) q))))
  ∧ (∀ g q st n f rest s, g < 4 → canDeliver (drbg s g) = true → reseedDue (drbg s g) = false → (drbg s g).count + 1 < 2 ^ 32 →
    domainRuns s 2 = true → (drbg s g).queue = { who := .stream q st n } :: rest → findFlight s q st n = some f → f.maj = 0x28 →
    f.phase = .drawing 1 [] → (quire s q).upsets = [] → spadBad s q (f.val 1) (4 * f.val 2) = false →
    let logits := (chunksOf 4 (f.val 2) (spadBytes s q (f.val 1) (4 * f.val 2))).map leNat
    ∃ v, exec (.generate g) s = .next (settleQuire v q) ∧ (ctxOf v (f.val 0)).sampled = true
      ∧ (ctxOf v (f.val 0)).nextToken = sampleToken { ctxOf s (f.val 0) with sampling := false } logits (fieldAt (drbgGen (drbg s g)).2 0 8))
  ∧ (∀ s c, (ctxOf s c).moving = true → (ctxOf s c).detachLater = [] → (ctxOf s c).mover = none → (ctxOf s c).moveIn = true →
    ∃ t, exec (.swapEnd c) s = .next t ∧ (ctxOf t c).moving = false
      ∧ (ctxOf t c).state = (if 0 < (ctxOf s c).pendingIn then .active else .resident))
  ∧ (∀ s d v c, deckleExists s d = true → startMove s c false none = some v → fget s .ctxSwpCtl 1 1 d = 1 →
    poolFree s d 0 < fget s .ctxSwpCtl 30 8 d → (∀ e ∈ s.serving.ctxs, ¬ (e.2.deckle = d ∧ e.2.moving = true)) →
    s.serving.ctxs.filter (fun e => e.2.deckle == d && e.2.state == .resident && !e.2.instep) = [(c, ctxOf s c)] →
    ∃ t, exec (.autoSwapOut d) s = .next t ∧ (ctxOf t c).moving = true)
  ∧ (∀ s d v c rest, deckleExists s d = true → fget s .ctxSwpCtl 0 0 d = 1 →
    readyCtxs s d (fun x => x.state == .swapped && !x.moving && decide (x.pendingIn > 0)) = c :: rest →
    (foliosOf s c).length + fget s .ctxSwpCtl 30 8 d ≤ poolFree s d 0 → startMove s c true none = some v → exec (.autoSwapIn d) s = .next v)
  ∧ (∀ s fn d (value : Word), reaches s fn .ctxPoolCtl d 0 = true → let s0 := written s fn .ctxPoolCtl d value
    (value.getLsbD 0 = true → deckleExists s0 d = true → fget s0 .ctxPoolCtl 0 0 d = 0 → poolsOk s0 d = true →
      ∃ t, exec (.poolEnable fn d value) s = .next t ∧ fget t .ctxPoolCtl 0 0 d = 1)
    ∧ (value.getLsbD 0 = false → fget s0 .ctxPoolCtl 0 0 d = 1 → (∀ e ∈ s0.serving.ctxs, e.2.deckle = d → e.2.state = .idle) →
      ∃ t, exec (.poolDisable fn d value) s = .next t ∧ fget t .ctxPoolCtl 0 0 d = 0))
  ∧ (∀ s q hs p, tfind (quire s q).prefetch hs = some p → p.used + p.depth < prefLines p →
    (((List.range (p.used + p.depth - p.asked)).map (fun i => (p.addr / 128 + p.asked + i) * 128)).foldl (prefLine q) (s, true)).2 = true →
    ∃ t, exec (.prefetchRequest q hs) s = .next t ∧ tfind (quire t q).prefetch hs = some { p with asked := max p.asked (p.used + p.depth) })

/-- R177, R184–R195: under the conditions named, fences, waits, signals, barriers, ends, messages, roles and releases complete. -/
def Obligations.OrderingAndMessageCommandsComplete : Prop :=
  (∀ q st w s s1, let n := (stream s1 q st).nextSeq
    let a := (stream s1 q st).s w.f1.toNat
    let v2 := (stream s1 q st).s w.f2.toNat
    let d := dkOf s1 q
    let x := quire s1 q
    let u (k : Nat) : State := consumeLines (advance s1 q st w) q [(a, k)]
    (Takes s q st (fenceOp w) w s1 → flightsOf x st = [] → optF w 22 20 ≠ 4 →
      exec (.xFence q st w) s = .next (settleQuire (advance s1 q st w) q))
    ∧ (∀ bs r, Alone s q st (syncOp w 1) w s1 → a % 8 = 0 → dkRead (u 8) d .stream a 8 = (r, .ok bs) → leNat bs = v2 →
      exec (.xWait q st w) s = .next (settleQuire (wrS r q st (f3Of w) v2) q))
    ∧ (∀ bs r v, Alone s q st (syncOp w 2) w s1 → optF w 22 20 ≠ 4 → a % 8 = 0 → dkRead (u 8) d .stream a 8 = (r, .ok bs) →
      dkWrite r d .stream a (leBytes 8 (leNat bs + v2)) = (v, none) →
      ∃ t, exec (.xSignal q st w) s = .next (settleQuire t q) ∧ t.dram = v.dram)
    ∧ (∀ bs r v, Alone s q st (syncOp w 3) w s1 → optF w 22 20 ≠ 4 → a % 16 = 0 → v2 = 1 → bs.length = 16 →
      dkRead (u 16) d .stream a 16 = (r, .ok bs) → fieldAt bs 0 4 = 0 → dkWrite r d .stream a (leBytes 8 0 ++ leBytes 8 (fieldAt bs 8 8 + 1)) = (v, none) →
      ∃ t, exec (.xBar q st w) s = .next (settleQuire t q) ∧ t.dram = v.dram ∧ findFlight t q st n = none)
    ∧ (Alone s q st { maj := 0x23, sub := 6 } w s1 → (stream s1 q st).step = none → (∀ t ∈ x.tiles, t.owner ≠ st) →
      ∃ t, exec (.xEnd q st w) s = .next t ∧ (stream t q st).state = .idle)
    ∧ (Alone s q st sendOp w s1 → bits a 7 6 = 0 → bits a 31 16 = 0 → deckleOfQuire s1 (bits a 5 0) = deckleOfQuire s1 q → SpadOperand v2 64 →
      meshOf s1 q + x.returns.length < 8 → x.upsets = [] → spadBad s1 q v2 64 = false →
      ∃ t m, exec (.xSend q st w) s = .next (settleQuire (settleQuire t q) q) ∧ t.mesh = s1.mesh ++ [m] ∧ m.src = q ∧ m.dst = bits a 5 0
        ∧ m.msg.payload = spadBytes s1 q v2 64)
    ∧ (∀ m rest, Alone s q st recvOp w s1 → (stream s1 q st).s (f3Of w) < 256 → SpadOperand a 64 → m.payload.length = 64 → x.upsets = [] →
      w.low.getLsbD 20 = false → x.arrivals = m :: rest → w.low.getLsbD 22 = true ∨ m.tag = (stream s1 q st).s (f3Of w) →
      ∃ t, exec (.xRecv q st w) s = .next (settleQuire (settleQuire t q) q) ∧ spadBytes t q a 64 = m.payload ∧ (quire t q).arrivals = rest))
  ∧ (∀ q st s f, fenceWaiting s q st = some f → f.maj = 0x23 → f.sub = 0 → f.phase ≠ .held →
    exec (.fenceEnd q st) s = .next (mailbox q (dropFlight s q f.stream f.seq)))
  ∧ (∀ q st s wt f, s.waits.find? (fun w => w.quire == q && w.stream == st && w.met.isSome && !w.isBar) = some wt →
    findFlight s q st wt.seq = some f → ∃ t, exec (.xWaitEnd q st) s = .next (settleQuire t q) ∧ findFlight t q st wt.seq = none)
  ∧ (∀ q st s wt f, s.waits.find? (fun w => w.quire == q && w.stream == st && w.met.isSome && w.isBar) = some wt →
    findFlight s q st wt.seq = some f → ∃ t, exec (.xBarRelease q st) s = .next (settleQuire t q) ∧ findFlight t q st wt.seq = none)
  ∧ (∀ q st s wt f, s.waits.find? (fun w => w.quire == q && w.stream == st && w.met.isNone && !w.isBar) = some wt →
    findFlight s q st wt.seq = some f → optF f.w 15 0 ≠ 0 →
    ∃ t, exec (.xWaitTimeout q st) s = .next (settleQuire t q) ∧ findFlight t q st wt.seq = none)
  ∧ (∀ src dst s i m, s.dram.upsets = [] → s.mesh[i]? = some m →
    findIx (fun (m : MeshMsg) => m.src == src && m.dst == dst && !m.isReturn) s.mesh = some i →
    (m.refused = false → m.msg.epoch = (quire s dst).epoch → (quire s dst).arrivals.length < 56 →
      ∃ t, exec (.messageArrival src dst) s = .next (mailbox src (mailbox dst t)) ∧ (quire t dst).arrivals = (quire s dst).arrivals ++ [m.msg])
    ∧ exec (.messageResend src dst) s = .next { s with mesh := setNth s.mesh i { m with refused := false } })
  ∧ (∀ q s i m, s.dram.upsets = [] → s.mesh[i]? = some m → findIx (fun (m : MeshMsg) => m.src == q && m.isReturn) s.mesh = some i →
    m.msg.senderEpoch = (quire s q).epoch → m.msg.bfault = false → (quire s q).returns.length < 8 →
    ∃ t, exec (.returnArrival q) s = .next (mailbox q t) ∧ (quire t q).returns = (quire s q).returns ++ [{ m.msg with quire := m.dst, bounced := true }])
  ∧ (∀ fn p (value : Word) s q, let s0 := written s fn .qreRole p value
    reaches s fn .qreRole p 0 = true → (phys s p).logical = some q → (phys s0 p).logical = some q → (phys s0 p).fenced = false →
    (deckleOfQuire s0 q).isSome = true → (∀ st, st < 8 → (stream s0 q st).state = .idle) → (∀ f ∈ (quire s0 q).flights, f.part ≠ .mboxSend) →
    ∃ t, exec (.roleAssignment fn p value) s = .next (mailbox q t) ∧ (quire t q).role = bits value.toNat 1 0)
  ∧ (∀ fn p (value : Word) s q st, let s0 := written s fn .qreStrCtl p value
    reaches s fn .qreStrCtl p 0 = true → (phys s p).logical = some q → (phys s0 p).logical = some q → st < 8 → bits value.toNat 15 8 = 2 ^ st →
    (stream s0 q st).state = .faulted → (stream s0 q st).leaving = false → (∀ t ∈ (quire s0 q).tiles, t.owner ≠ st) →
    ∃ t, exec (.release fn p value) s = .next t ∧ (stream t q st).state = .idle)

/-- R313, R319, R320, R338–R343, R423–R425, R498–R500, R506, R513–R523, R598, R599: under the conditions named, the commands of the memory
controllers, the event collector, the repair machinery and the host link complete. -/
def Obligations.MemoryEventAndRepairCommandsComplete : Prop :=
  ∀ s, (∀ dpa b, dpaExists dpa = true → s.boot.ready = true → s.power.rails = true → s.dram.upsets = [] → s.dram.fresh = [] →
      findLine s { alloc := false } (lineOf (cwBase dpa)) = none → fget s .memFlipPos 56 56 (ctlOf (cwBase dpa)) = 0 → b.length = cwSize dpa →
      ∃ t, exec (.controllerRequest dpa (.writeWhole b)) s = .next t ∧ memBytes t (cwBase dpa) (cwSize dpa) = b)
    ∧ (∀ f, inRanges s.dram.fresh f = true → ∃ t, exec (.zeroFill f) s = .next t ∧ inRanges t.dram.fresh f = false)
    ∧ (∀ e x, e < 8 → tfind s.zeros e = some x → x.why = 1 ∨ x.why = 4 → (∀ p ∈ s.zeros, p.1 < 8) → s.dram.fresh = [] →
      ∃ t, exec (.zeroRequestEnd e) s = .next t ∧ tfind t.zeros e = none)
    ∧ (∀ c, c < 24 → fget s .memScrubCtl 0 0 ≠ 0 → s.boot.ready = true → s.power.rails = true → s.dram.upsets = [] →
      (ctl s c).scrubPos + 1 < cwsOf c → ∃ t, exec (.patrolScrubRead c []) s = .next t ∧ (ctl t c).scrubPos = (ctl s c).scrubPos + 1)
    ∧ (∀ fn d (v : Word), reaches s fn .memDctl d 0 = true → let s0 := regEffect s fn .memDctl d 0 (2 ^ (regRow .memDctl).width - 1) (v.toNat % 2 ^ 32)
      (v.getLsbD 0 = true → xltOn s0 d = false → deckleExists s0 d = true → 1 ≤ rget s0 .memXltSize d →
        ownsRange s0 d (xltBase s0 d) (xltSize s0 d) = true → ∃ t, exec (.translationEnable fn d v) s = .next t ∧ xltOn t d = true)
      ∧ (v.getLsbD 0 = false → xltOn s0 d = true → anyMapped s0 d = false →
        ∃ t, exec (.translationDisable fn d v) s = .next t ∧ xltOn t d = false))
    ∧ (∀ fn c (v : Word), reaches s fn .memFlipPos c 0 = true → injectionOpen s fn = true → v.getLsbD 56 = true →
      ∃ t, exec (.flipArm fn c v) s = .next t ∧ fget t .memFlipPos 56 56 c = 1)
    ∧ (∀ fn c (v : Word), reaches s fn .memPprCmd c 0 = true → fget s .memPprSts 0 0 c = 0 → v.getLsbD 63 = true → pprHere c (bits v.toNat 33 0 * 64) = true →
      (v.getLsbD 60 = false → c < 8 → ∃ t, exec (.soft fn c v) s = .next t ∧ (ctl t c).pprSoft = some (bits v.toNat 33 0 * 64))
      ∧ (v.getLsbD 60 = true → (ctl (written s fn .memPprCmd c v) c).pendingHard.length < 255 →
        ∃ t, exec (.hard fn c ⟨v, true⟩) s = .next t ∧ fget t .memPprSts 2 1 c = 1))
    ∧ (∀ c a, (ctl s c).pprSoft = some a → ∃ t, exec (.softRepairEnd c true) s = .next t ∧ (ctl t c).pprSoft = none ∧ fget t .memPprSts 2 1 c = 1)
    ∧ (∀ e, entersFirst s.ev.pending = some e → kclkRuns s = true → s.dram.upsets = [] → e.sev < 3 → s.ev.queue.length < 512 →
      ∃ t, exec .eventRecordEntry s = .next t ∧ t.ev.queue.length = s.ev.queue.length + 1 ∧ t.ev.nextSeq = (s.ev.nextSeq + 1) % 2 ^ 32)
    ∧ (∀ f e, nextRecord s f = some e → kclkRuns s = true → s.dram.upsets = [] → s.power.rails = true → f ≤ 16 → fget s .evtRingCfg 0 0 f = 1 →
      (f = 0 ∨ s.fe = false ∧ (deckle s (f - 1)).phase = .active) → subMod (2 ^ 32) (evRing s f).pi (evRing s f).head < 2 ^ fget s .evtRingCfg 11 8 f →
      ∃ t, exec (.eventDelivery f) s = .next t ∧ (evRing t f).pi = ((evRing s f).pi + 1) % 2 ^ 32)
    ∧ (∀ fn f (v : Word32), reaches s fn .evtRingCfg f 0 = true →
      (v.getLsbD 0 = true → fget s .evtRingCfg 0 0 f = 0 → 4 ≤ bits v.toNat 11 8 →
        ∃ t, exec (.eventRingEnable fn f v) s = .next t ∧ fget t .evtRingCfg 1 0 f = 1)
      ∧ (v.getLsbD 0 = false → ∃ t, exec (.eventRingDisable fn f v) s = .next t ∧ fget t .evtRingCfg 0 0 f = 0))
    ∧ (∀ fn f (v : Word32), reaches s fn .evtRingHead f 0 = true →
      subMod (2 ^ 32) v.toNat (evRing s f).head ≤ subMod (2 ^ 32) (evRing s f).pi (evRing s f).head →
      exec (.eventHead fn f v) s = .next (setEvRing s f { evRing s f with head := v.toNat }))
    ∧ (∀ fn (v : Word), reaches s fn .evtFatal 0 0 = true → v.toNat = 2 ^ 64 - 1 → s.fe = false →
      ∃ t, exec (.fatalClear fn 8 v) s = .next t ∧ rget t .evtFatal 0 = 0 ∧ rget t .evtFatalNext = 0)
    ∧ (∀ p, p < 68 → busUp s = true → s.fe = false → s.sealed = false → (phys s p).logical ≠ none → (phys s p).retired = false →
      (phys s p).fenced = false → p ∉ s.retireQueue → ∃ t, exec (.retire 0 p) s = .next t ∧ t.retireQueue = s.retireQueue ++ [p])
    ∧ (∀ fn p, p < 68 → reaches s fn .qreErrCtl p 0 = true → exec (.errAck fn p) s = .next (setPhys s p { phys s p with winOpen := false }))
    ∧ (∀ p, p < 68 → exec (.windowExpiry p) s = .next (setPhys s p { phys s p with winOpen := false })
      ∧ exec (.quireBucketLeak p) s = .next (fset s .qreCeb 15 0 (fget s .qreCeb 15 0 p - 1) p))
    ∧ (∀ p rest q sp l, s.retireQueue = p :: rest → retireWaits s p = false → s.power.rails = true → s.fe = false → s.dram.upsets = [] →
      (phys s p).logical = some q → usableSpares s = sp :: l →
      ∃ t, exec (.retirement []) s = .next t ∧ t.retireQueue = rest ∧ (phys t p).retired = true ∧ (phys t sp).logical = some q)
    ∧ (∀ c, c < 24 → ∃ t, exec (.frameBucketLeak c) s = .next t
      ∧ (ctl t c).buckets = (ctl s c).buckets.map (fun b => { b with level := b.level - 1 }))
    ∧ (∀ fn p (v : Word), injectionOpen s fn = true → v.getLsbD 8 = true →
      (reaches s fn .qreShtInj p 0 = true → ∃ t, exec (.shtInjArm fn p v) s = .next t ∧ fget t .qreShtInj 8 8 p = 1)
      ∧ (reaches s fn .qreBtrInj p 0 = true → ∃ t, exec (.btrInjArm fn p v) s = .next t ∧ fget t .qreBtrInj 8 8 p = 1))
    ∧ (∀ lanes : BitVec 16, s.power.rails = true → s.boot.pcieUp = true →
      ∃ t, exec (.laneFailure lanes) s = .next t ∧ t.boot.badLanes = s.boot.badLanes ||| lanes.toNat)
    ∧ (s.power.rails = true → s.boot.held = false → s.clk.lost.contains 0 = false →
      ∃ t, exec .hostLinkReenable s = .next t ∧ t.boot.pcieUp = true ∧ t.boot.width = 16)

/-- R456–R458, R464, R468, R474–R480: under the conditions named, the commands of the security complex complete: the deckle commands and
their steps, the mode, the transport keys, the reports and the test port. -/
def Obligations.SecurityCommandsComplete : Prop :=
  ∀ s, (∀ src cmd cmd2 s0, Commands s src cmd cmd2 s0 → let c := dkCmdOf cmd.toNat cmd2.toNat
      let x := deckle s c.d
      (c.op = 1 → x.phase = .none → c.groups ≠ 0 → (∀ d, d < 16 → deckleExists s d = true → (deckle s d).groups &&& c.groups = 0) →
        s.sealed = false → s.fe = false → s.dram.upsets = [] → (∀ q, q < 64 → c.groups.testBit (q / 4) = true → Quiet s q) →
        ∃ t, exec (.create src cmd cmd2) s = .next t ∧ (deckle t c.d).phase = .active ∧ (deckle t c.d).groups = c.groups)
      ∧ (c.op = 2 → x.phase = .active → c.badRange = false → (∀ g ∈ c.granules, tget 0 s.dram.owner g = 0) →
        ∃ t, exec (.grant src cmd cmd2) s = .next t ∧ ∀ g ∈ c.granules, tget 0 t.dram.owner g = c.d + 1)
      ∧ (c.op = 3 → x.phase = .active → c.badRange = false → reclaimCheck c s = 0 → c.erase = 0 → encOf s c.d = true →
        ∃ t, exec (.reclaim src cmd cmd2) s = .next t ∧ ∀ g ∈ c.granules, tget 0 t.dram.owner g = 0)
      ∧ (c.op = 4 → x.phase = .active → ∃ t, exec (.reset src cmd cmd2) s = .next t ∧ (deckle t c.d).phase = .draining)
      ∧ (c.op = 5 → x.phase = .active → ∃ t, exec (.remove src cmd cmd2) s = .next t ∧ (deckle t c.d).phase = .draining))
    ∧ (∀ d, d < 16 →
      ((deckle s d).phase = .draining → (∀ q ∈ quiresOf s d, (quire s q).flights = [] ∧ (quire s q).arrivals = []) →
        ∃ t, exec (.drainClose d) s = .next t ∧ (deckle t d).phase = .scrubbing)
      ∧ ((deckle s d).phase = .scrubbing → ∃ t, exec (.keyDestruction d) s = .next t ∧ (deckle t d).mek = none ∧ (deckle t d).ptk = [])
      ∧ ((deckle s d).phase = .scrubbing → (deckle s d).mek = none → ∃ t, exec (.scrubEnd d) s = .next t ∧ (deckle t d).phase = .erasing)
      ∧ ((deckle s d).phase = .erasing → zeroRuns s 3 d = false → zeroRuns s 4 d = false → s.fe = false → s.dram.upsets = [] →
        ∃ t, exec (.eraseEnd d) s = .next t ∧ (deckle t d).phase = (if (deckle s d).lastOp = 4 then .active else .none)))
    ∧ (∀ fn (v : Word), reaches s fn .secMode 0 0 = true → v.getLsbD 0 = true → anyDeckle s = false → s.fuses.lc ≠ 3 →
      ∃ t, exec (.seal fn v) s = .next t ∧ t.sealed = true)
    ∧ (∀ fn d (v : Word), reaches s fn .secPtkCtl d 0 = true → deckleExists s d = true → s.sealed = false ∨ fn = d + 1 ∧ (func s fn).tdi = .run →
      s.izk.qps = [] → (∀ p, (port s p).txq = []) → s.dram.upsets = [] →
      (v.getLsbD 1 = true → v.getLsbD 3 = false →
        ∃ t, exec (.loadKey fn d v) s = .next t ∧ (tfind (deckle t d).ptk (v.toNat % 2)).isSome = true)
      ∧ (v.getLsbD 3 = true → ∃ t, exec (.destroy fn d v) s = .next t ∧ tfind (deckle t d).ptk (v.toNat % 2) = none))
    ∧ (∀ im, s.mgt.staging.state = .verifying → s.reports = [] → s.boot.ready = true → domainRuns s 2 = true →
      (bank s (stagedBank s)).image = some im → ∃ t, exec .liveActivation s = .next t ∧ t.boot.running = some im ∧ t.mgt.staging.state = .live)
    ∧ (∀ j rest i, s.reports = j :: rest → canReport s = true → domainRuns s 2 = true → j.who = .spdm i → sessOpen s i = true →
      ∃ t, exec .reportSigned s = .next t ∧ t.reports = rest)
    ∧ (tapOpen s = true → (∃ t, exec (.tapAccess .debugChain) s = .next t ∧ fget t .secSts 5 5 = 0)
      ∧ (∀ b : BootIn, s.fuses.lc = 3 → anyDeckle s = false → (pin s 0).asserted = true →
        ∃ t, exec (.jtagLifeCycleRequest 4 b) s = .next t ∧ t.fuses = { s.fuses with lc := 4 }))

/-- R463, R465–R469, R541–R560: under the conditions named, the requests of Pliac and the commands of the management port and the SMBus
complete, with their response or their effect. -/
def Obligations.ManagementCommandsComplete : Prop :=
  (∀ s slot x r, let asked (cmd least : Nat) : Prop := Asked s slot cmd least x r
    let f (o n : Nat) : Nat := fieldAt r.body o n
    let done (c : Instr) (body : List Byte) (P : State → Prop) : Prop := ∃ t, exec c s = .next t ∧ Sent t r (rspOf x slot r 0 0 body) ∧ P t
    (asked 0x02 0 → r.body = [] → done (.bye slot) [] (fun t => tfind t.mgt.sessions slot = none))
    ∧ (asked 0x10 0 → r.body = [] → done (.identity slot) (identityBody s) (fun _ => True))
    ∧ (asked 0x11 0 → r.body = [] → done (.telemetry slot) (telemetryBody s x.ver) (fun _ => True))
    ∧ (asked 0x31 0 → r.body = [] → done (.partitionStatus slot) (partitionBody s) (fun _ => True))
    ∧ (asked 0x53 0 → r.body = [] → done (.imgStatus slot) (stageBody s) (fun _ => True))
    ∧ (asked 0x12 0 → r.body.length = 40 → allZero (sliceB r.body 36 4) = true → canReport s = true → f 32 4 = 0 →
      ∃ t, exec (.report slot) s = .next t ∧ t.reports = s.reports ++ [⟨.pliac slot (sliceB r.body 0 32), reportBody s (sliceB r.body 0 32)⟩])
    ∧ (asked 0x20 1 → r.body.length = 8 → allZero (sliceB r.body 4 4) = true →
      ∃ t, exec (.power slot) s = .next t ∧ fget t .pwrCap 10 0 = f 0 2 % 2048 ∧ fget t .pwrCtl 5 0 = f 2 1 % 64)
    ∧ (∀ b, asked 0x21 1 → r.body = zeros 8 → s.power.rails = true → (pin s 0).asserted = true → done (.pliacReset slot b) [] (fun t => t.boot = {}))
    ∧ (∀ q sp l, asked 0x22 1 → r.body.length = 8 → allZero (sliceB r.body 1 7) = true → f 0 1 < 68 → s.retireQueue = [] →
      (phys s (f 0 1)).logical = some q → (phys s (f 0 1)).retired = false → (phys s (f 0 1)).fenced = false → retireWaits s (f 0 1) = false →
      s.power.rails = true → s.fe = false → s.dram.upsets = [] → usableSpares s = sp :: l →
      ∃ t, exec (.pliacRetire slot []) s = .next t ∧ Sent t r (rspOf x slot r 0 1 []) ∧ (phys t (f 0 1)).retired = true
        ∧ (phys t sp).logical = some q)
    ∧ (asked 0x30 1 → r.body.length = 16 → allZero (sliceB r.body 12 4) = true → (deckleCmd (dkCmdOf (f 0 8) (f 8 4)) s).1 = 0 →
      ∃ t, exec (.partition slot) s = .next t ∧ t.deckles = (deckleCmd (dkCmdOf (f 0 8) (f 8 4)) s).2.deckles ∧ fget t .prtRes 7 0 = 0)
    ∧ (∀ b, asked 0x40 2 → r.body.length = 8 → allZero (sliceB r.body 1 7) = true → lcAllowed s (f 0 1) = true → s.power.rails = true →
      (pin s 0).asserted = true → done (.lcSet slot b) [] (fun t => t.fuses = { s.fuses with lc := f 0 1 }))
    ∧ (asked 0x41 1 → r.body.length = 8 → allZero (sliceB r.body 1 7) = true → f 0 1 = 0 → anyDeckle s = false → s.fuses.lc ≠ 3 →
      done (.mode slot) [] (fun t => t.sealed = true))
    ∧ (∀ im, asked 0x42 2 → r.body.length = 8 → allZero (sliceB r.body 1 7) = true → s.boot.running = some im → s.fuses.arb < f 0 1 → f 0 1 ≤ im.svn →
      done (.arbAdvance slot) [] (fun t => t.fuses = { s.fuses with arb := f 0 1 }))
    ∧ (asked 0x50 1 → r.body.length = 8 → allZero (sliceB r.body 4 4) = true → stagingTaken s slot = false → s.mgt.staging.state ≠ .verifying →
      fget s .secSts 10 10 = 0 → f 0 4 % 4096 = 0 → f 0 4 ≤ 33488896 →
      ∃ t, exec (.imgBegin slot) s = .next t ∧ t.mgt.staging = { state := .erasing, holder := slot, size := f 0 4 })
    ∧ (asked 0x51 1 → 9 ≤ r.body.length → r.body.length ≤ 1032 → allZero (sliceB r.body 4 4) = true → stagingTaken s slot = false →
      s.mgt.staging.state = .opn → f 0 4 + (r.body.length - 8) ≤ s.mgt.staging.size →
      done (.imgWrite slot) [] (fun t => t.mgt.staging.written = s.mgt.staging.written + (r.body.length - 8)))
    ∧ (∀ ok im run, asked 0x52 1 → r.body = [] → stagingTaken s slot = false → s.mgt.staging.state = .opn →
      (parseImage s.mgt.staging.data ok).filter (imageValid s) = some im → s.boot.running = some run → s.boot.bank < 2 →
      ∃ t, exec (.imgCommit slot ok) s = .next t ∧ (bank t (stagedBank s)).image = some im)
    ∧ (∀ b, asked 0x60 1 → r.body.length = 88 → allZero (sliceB r.body 3 5) = true → s.izk.qps = [] → (port s (f 0 1)).txq = [] → f 0 1 ≤ 3 → f 1 1 ≤ 1 →
      f 2 1 ≤ 1 → kwUnwrap s.fuses.kek (sliceB r.body 8 80) = some b → allZero (sliceB b 68 4) = true →
      ∃ t, exec (.linkKey slot) s = .next t
        ∧ tfind (port t (f 0 1)).keys (f 1 1) = some { tx := sliceB b 0 32, rx := sliceB b 32 32, salt := sliceB b 64 4 })
    ∧ (∀ key, asked 0x70 2 → r.body.length = 48 → allZero (sliceB r.body 2 6) = true → f 0 1 ≤ 2 → f 1 1 ≤ 3 → (slot ≠ 12 ∨ f 0 1 = 2) →
      kwUnwrap (kdf x.key "QA76 PWK" x.sid 256) (sliceB r.body 8 40) = some key →
      done (.credInstall slot) [] (fun t => tfind (credSlots t) (4 * f 0 1 + f 1 1) = some key))
    ∧ (asked 0x71 2 → r.body.length = 8 → allZero (sliceB r.body 2 6) = true → f 0 1 ≤ 1 → f 1 1 ≤ 3 →
      done (.credRemove slot) [] (fun t => tfind (credSlots t) (4 * f 0 1 + f 1 1) = none))
    ∧ (asked 0x80 0 → r.body.length = 8 → allZero (sliceB r.body 1 7) = true → f 0 1 ≠ 0 →
      done (.eventSub slot) [] (fun t => (tfind t.mgt.sessions slot).bind (·.sub) = some { mask := f 0 1 }))
    ∧ (∀ b, asked 0x81 0 → r.body.length = 8 → x.sub = some b → done (.eventAck slot) [] (fun t =>
      ((tfind t.mgt.sessions slot).bind (·.sub)).map (·.sent) = some (b.sent.filter (fun m => decide (f 0 8 < m.1))))))
  ∧ (∀ s (g : Datagram) k x, portUp s = true → mgtServing s = true → frameTaken s g.dstMac g.plain = true → mgtIp s g.dstIp = true →
    g.dstPort = fget s .gctMgtCfg 15 0 → let p := g.payload
    let len := fieldAt p 12 4
    let slot := slotOfHeader (fieldAt p 8 1) (fieldAt p 9 1)
    p.length = 72 + len → len ≤ 1088 → fieldAt p 0 4 = 0x31434C50 → fieldAt p 5 1 = 0 → credKey s slot = some k → fieldAt p 6 2 ≠ 1 →
    tfind s.mgt.sessions slot = some x → sliceB p 0x10 8 = x.sid → hmac x.key (p.take (40 + len)) = p.drop (40 + len) → x.seq < fieldAt p 0x18 8 →
    x.exec = none → knownCmd x.ver (fieldAt p 6 2) = true → allZero (sliceB p 0x20 8) = true →
    ∃ t y, exec (.datagramReceive g) s = .next t ∧ tfind t.mgt.sessions slot = some y ∧ y.seq = fieldAt p 0x18 8
      ∧ y.exec.map (fun r => (r.cmd, r.body)) = some (fieldAt p 6 2, sliceB p 40 len))
  ∧ (∀ s slot r, tfind s.mgt.hellos slot = some r → mgtServing s = true → (∀ q ∈ (drbg s 2).queue, q.use ≠ .hello slot) →
    s.fuses.lc ≠ 3 → r.body.length = 32 → allZero (sliceB r.body 1 15) = true → fieldAt r.body 0 1 % 4 ≠ 0 → s.rng.failed = false →
    exec (.hello slot) s = .next (askBlock s 2 { who := .agent 2 slot, use := .hello slot }))
  ∧ (∀ s slot r k g rest, tfind s.mgt.hellos slot = some r → credKey s slot = some k → g < 4 → canDeliver (drbg s g) = true →
    reseedDue (drbg s g) = false → (drbg s g).count + 1 < 2 ^ 32 → domainRuns s 2 = true → agentRuns s = true →
    (drbg s g).queue = { who := .agent 2 slot, use := .hello slot } :: rest →
    ∃ t y, exec (.generate g) s = .next t ∧ tfind t.mgt.sessions slot = some y ∧ y.seq = 0 ∧ tfind t.mgt.hellos slot = none)
  ∧ (∀ s slot x b, tfind s.mgt.sessions slot = some x → x.sub = some b → mgtServing s = true →
    (b.buffer ≠ [] → ∃ t, exec (.event slot) s = .next t ∧ t.out.length = s.out.length + 1
      ∧ ((tfind t.mgt.sessions slot).bind (·.sub)).map (·.buffer) = some (b.buffer.drop 32))
    ∧ ∃ t, exec (.eventResend slot) s = .next t ∧ t.mgt = s.mgt ∧ t.out.length = s.out.length + b.sent.length)
  ∧ (∀ s, agentRuns s = true → (∀ slot, ∃ t, exec (.sessionTimeout slot) s = .next t ∧ tfind t.mgt.sessions slot = none)
    ∧ (s.mgt.staging.state = .erasing → exec .eraseDone s = .next { s with mgt.staging.state := .opn })
    ∧ (s.mgt.staging.state ≠ .verifying → exec .stagingTimeout s = .next { s with mgt.staging := {} })
    ∧ (s.boot.fusesRead = true → exec .smbusIdentityRead s = .next (emit s (.smbus (24#8 :: smbusIdentity s)))
      ∧ exec .smbusImageSeq s = .next (emit s (.smbus (8#8 :: leBytes 8 ((s.boot.running.map (·.seq)).getD 0))))
      ∧ (∃ v, exec .smbusFaultStatus s = .next (emit s (.smbus [v])))
      ∧ (s.sealed = false → exec .smbusDieTemperature s = .next (emit s (.smbus (leBytes 1 (min (hottestDie s.power.temps / 8) 255))))
        ∧ exec .smbusMemoryTemperature s = .next (emit s (.smbus (leBytes 1 (min (hottest s.power.temps 100 123 / 8) 255))))))
    ∧ ∀ c, exec (.smbusWrite c) s = .next (emit s .smbusNack))
  ∧ (∀ s up, s.power.rails = true → s.boot.mgmtEn = true → exec (.managementLinkChange up) s = .next { s with mgt.link := up })
  ∧ (∀ s (e : Ether) src dst data, portUp s = true → frameTaken s e.dst e.plain = true → mgtIp s dst = true →
    exec (.echoRequest e src dst data) s = .next (emit s (.icmp e.src src 129 data))
    ∧ ∃ b, exec (.neighborSolicitation e src dst) s = .next (emit s (.icmp e.src src 136 b)))

/-- R376–R407: under the conditions named, the commands of the Izkai ports, their packets, timers, queues and objects complete. -/
def Obligations.IzkaiCommandsComplete : Prop :=
  ∀ s, (∀ fn p (v : Word), p < 4 → reaches s fn .izkPortCfg p 0 = true →
      (v.getLsbD 0 = true → (port s p).state = .disabled → portAcceptable (written s fn .izkPortCfg p v) p = true →
        ∃ t, exec (.portEnable fn p v) s = .next t ∧ (port t p).state = .training)
      ∧ (v.getLsbD 0 = false → ∃ t, exec (.portDisable fn p v) s = .next t ∧ (port t p).state = .disabled))
    ∧ (∀ p (lanes : BitVec 8) w l, (port s p).state = .training → refUp s 2 = true →
      widthOf (maxWidth s p) (andNot lanes.toNat (port s p).excluded) = some (w, l) →
      ∃ t, exec (.trainingComplete p lanes) s = .next t ∧ (port t p).state = .negotiate ∧ (port t p).width = w ∧ (port t p).lanes = l)
    ∧ (∀ p (lanes : BitVec 8), (port s p).state = .up → ∃ t, exec (.linkLoss p lanes) s = .next t ∧ (port t p).state = .training)
    ∧ (∀ p, (port s p).holding = true → (port s p).state = .training →
      ∃ t, exec (.linkHoldExpired p) s = .next t ∧ (port t p).holding = false)
    ∧ (∀ p, (port s p).state = .negotiate → s.fe = false → lsec s p = false → (port s p).paused = 0 → (port s p).helloSeen = none →
      ∃ t, exec (.helloTransmit p) s = .next t ∧ (port t p).helloSent = true)
    ∧ (∀ p x xs, (port s p).inbox = x :: xs → x.op = 0x20 → (port s p).state = .negotiate → NothingWaits s p → (port s p).helloSent = true →
      bits x.msn 3 2 &&& offers s p ≠ 0 → ∃ t, exec (.izkaiHello p) s = .next t ∧ (port t p).state = .up)
    ∧ (∀ p, (port s p).state = .negotiate → exec (.negotiateFail p) s = .next (raise s (mkEvent 2 8 p 0x05)))
    ∧ (∀ p i (m : BitVec 8) quanta, (port s p).state = .up → NothingWaits s p → i < 8 → m.getLsbD i = true → (fget s .izkPortCfg 15 8 p).testBit i = true →
      quanta.getD i 0 ≠ 0 → ∃ t, exec (.pfcFrame p m quanta) s = .next t ∧ (port t p).paused.testBit i = true)
    ∧ (∀ p i, i < 8 → (port s p).paused.testBit i = true →
      (NothingWaits s p → ∃ t, exec (.pauseExpiry p i) s = .next t ∧ (port t p).paused.testBit i = false)
      ∧ ((port s p).stormed.testBit i = false → ∃ t, exec (.pfcStorm p i) s = .next t ∧ (port t p).stormed.testBit i = true))
    ∧ (∀ p, (port s p).state = .up → (2 ^ 23 < inboxBytes s p + 2 ^ 20 → ∃ t, exec (.xoff p) s = .next t ∧ (port t p).xoff = true
        ∧ t.out = s.out ++ [.pfc p (izkPrios s p) 0xFFFF])
      ∧ (inboxBytes s p + 2 ^ 21 < 2 ^ 23 → (port s p).xoff = true → ∃ t, exec (.xon p) s = .next t ∧ (port t p).xoff = false
        ∧ t.out = s.out ++ [.pfc p (izkPrios s p) 0]))
    ∧ (∀ p f b, p < 4 → (port s p).state = .up → outerBody s p f = some b → lsec s p = false → s.sealed = false → 48 ≤ b.length →
      let h := { parseHeader b with size := f.length, prio := frameClass s p f }
      izkHeaderOk (port s p).vsel b h = true → namesQp s p h.dqpn = true → hasPsn h.op = false → h.op ≠ 0x20 →
      h.path < (qpOf s (h.dqpn % 8192)).ctx.npaths → h.flags.testBit 1 = false → keysGone s (qpOf s (h.dqpn % 8192)).deckle = false →
      ∃ t, exec (.frameReceive p f) s = .next t ∧ (port t p).inbox = (port s p).inbox ++ [{ h with payload := b.drop 48 }])
    ∧ (∀ p i x u, Arrives s p i x u → InOrder s i x → let q := qpOf s i
      let d := q.deckle
      q.msgs = [] → q.recvDone = [] → x.msn = q.rxMsn → q.rxMsn < 2 ^ 32 → (deckle s d).phase = .active →
      (qpsOfPort s p).foldl (fun n j => n + (qpOf s j).msgs.length) 0 < 16384 →
      (∀ s1, x.op = 1 → x.offset = 0 → x.payload.length = x.mlen → keyAdmits u d x.rkey (some 2) x.va x.mlen = true →
        dkWrite u d .izkai x.va x.payload = (s1, none) → q.ctx.rxCtr = 0 → ∃ t, exec (.write p) s = .next t ∧ t.dram.data = s1.dram.data)
      ∧ (∀ s1, x.op = 2 → x.offset = 0 → x.payload.length = x.mlen → x.flags.testBit 0 = true → posted q x.rsn = true → x.rsn = q.rqCi →
        keyAdmits u d x.rkey (some 2) x.va x.mlen = true → dkWrite u d .izkai x.va x.payload = (s1, none) →
        ∃ t, exec (.writeImm p) s = .next t ∧ ((qpOf t i).state ≠ .error → (qpOf t i).rqCi = (q.rqCi + 1) % 2 ^ 32))
      ∧ (∀ s1 s2 b, x.op = 3 → x.offset = 0 → x.payload.length = x.mlen → x.flags.testBit 0 = true → posted q x.rsn = true → x.rsn = q.rqCi →
        rqEntry u i x.rsn = (s1, .ok b) → x.mlen ≤ fieldAt b 20 4 → keyAdmits s1 d (fieldAt b 16 4) (some 0) (fieldAt b 8 8) x.mlen = true →
        dkWrite s1 d .izkai (fieldAt b 8 8) x.payload = (s2, none) →
        ∃ t, exec (.send p) s = .next t ∧ ((qpOf t i).state ≠ .error → (qpOf t i).rqCi = (q.rqCi + 1) % 2 ^ 32))
      ∧ (∀ s1 b, x.op = 4 → keyAdmits u d x.rkey (some 1) x.va x.mlen = true → dkRead u d .izkai x.va x.mlen = (s1, .ok b) →
        ∃ t, exec (.readReq p) s = .next t ∧ ((qpOf t i).state ≠ .error → (qpOf t i).rxMsn = (q.rxMsn + 1) % 2 ^ 32)))
    ∧ (∀ p i x e s1 u, Arrives s p i x u → InOrder s i x → x.op = 5 → (qpOf s i).started.head? = some e → e.msn = x.msn → fieldAt e.entry 0 1 = 4 →
      dkWrite u (qpOf s i).deckle .izkai (fieldAt e.entry 16 8 + x.offset) x.payload = (s1, none) → e.placed + x.payload.length < fieldAt e.entry 28 4 →
      ∃ t, exec (.readResp p) s = .next t ∧ t.dram.data = s1.dram.data)
    ∧ (∀ p i x u, Arrives s p i x u → let q := qpOf s i
      q.started = [] → q.reads = [] →
      (x.op = 0x10 → ∃ t, exec (.ack p) s = .next t ∧ ((qpOf t i).state ≠ .error → ∀ y ∈ ((qpOf t i).path x.path).unacked,
        y ∈ (q.path x.path).unacked ∧ ¬ (1 ≤ subMod (2 ^ 24) x.psn y.psn ∧ subMod (2 ^ 24) x.psn y.psn < 2 ^ 23)))
      ∧ (x.op = 0x11 → x.rkey % 256 = 3 → ∃ t, exec (.nak p) s = .next t ∧ ((qpOf t i).state ≠ .error → ((qpOf t i).path x.path).rnrWait = true))
      ∧ (x.op = 0x12 → 1 ≤ subMod (2 ^ 24) (x.msn % 2 ^ 24) q.limit → subMod (2 ^ 24) (x.msn % 2 ^ 24) q.limit < 2 ^ 23 →
        ∃ t, exec (.credit p) s = .next t ∧ ((qpOf t i).state ≠ .error → (qpOf t i).limit = x.msn % 2 ^ 24))
      ∧ (x.op = 0x13 → (outstanding s p).2 + max 16 (fget s .izkPortGrant 15 0 p) < (outstanding s p).1 + 16 →
        ∃ t, exec (.creditReq p) s = .next t ∧ ((qpOf t i).state ≠ .error → (qpOf t i).wanted = x.msn))
      ∧ (x.op = 0x14 → ∃ t, exec (.terminate p) s = .next t ∧ (qpOf t i).state = .error ∧ (qpOf t i).cause = 4))
    ∧ (∀ i k, timersRun s i = true → let q := qpOf s i
      let w := q.path k
      (w.sinceAck ≠ 0 → ∃ t, exec (.ackTimer i k) s = .next t ∧ ((qpOf t i).path k).sinceAck = 0)
      ∧ (∀ x xs, w.rnrWait = false → w.unacked = x :: xs → w.retries + 1 < max 1 (fget s .izkPortTmr 13 10 q.ctx.port) →
        ∃ t, exec (.rtoExpiry i k) s = .next t ∧ ((qpOf t i).path k).retries = w.retries + 1)
      ∧ (w.rnrWait = true → ∃ t, exec (.rnrDelayExpiry i k) s = .next t ∧ ((qpOf t i).path k).rnrWait = false)
      ∧ (∀ x, hasCredit q = false → nextTx q = some x → isData x.op = true → ∃ t, exec (.creditTimeout i) s = .next t ∧ (qpOf t i).cause = 7)
      ∧ (∀ m ∈ q.msgs, m.whole = false → ∃ t, exec (.msgTmoExpiry i m.msn) s = .next t ∧ (qpOf t i).cause = 6))
    ∧ (∀ i s1 v, (qpOf s i).state = .rts → wordRead s (qpOf s i).deckle (qpOf s i).ctx.db 4 = (s1, some v) →
      subMod (2 ^ 32) v (qpOf s i).sqCi ≤ 2 ^ (qpOf s i).ctx.sqLog → ∃ t, exec (.qpDoorbell i false) s = .next t ∧ (qpOf t i).sqPi = v)
    ∧ (∀ i s1 s2 k e b, headEntry s i = (s1, some (k, .ok e)) →
      ((fieldAt e 1 1).testBit 2 = false → fieldAt e 0 1 = 1 → keyAdmits s1 (qpOf s1 i).deckle (fieldAt e 24 4) none (fieldAt e 16 8) (fieldAt e 28 4) = true →
        dkRead s1 (qpOf s1 i).deckle .izkai (fieldAt e 16 8) (fieldAt e 28 4) = (s2, .ok b) →
        ∃ t, exec (.sendEntryStart i) s = .next t ∧ ((qpOf t i).state ≠ .error → (qpOf t i).sqNext = (k + 1) % 2 ^ 32))
      ∧ ((fieldAt e 1 1).testBit 2 = true → fieldAt e 48 8 % 8 = 0 → dkRead s1 (qpOf s1 i).deckle .izkai (fieldAt e 48 8) 8 = (s2, .ok b) →
        fieldAt e 56 8 ≤ leNat b → fieldAt e 0 1 = 15 →
        ∃ t, exec (.triggeredStart i) s = .next t ∧ ((qpOf t i).state ≠ .error → (qpOf t i).sqNext = (k + 1) % 2 ^ 32)))
    ∧ (∀ fn d v s0 i s1 c, IzkCommand s fn d 1 v s0 → (List.range 8192).find? (fun i => (qpOf s i).state == .free) = some i →
      readCtx s0 d (izkArg s0 d 0) = (s1, .inl c) → ∃ t, exec (.qpCreate fn d v) s = .next t ∧ (qpOf t i).state = .init ∧ (qpOf t i).ctx = c)
    ∧ (∀ fn d v s0, IzkCommand s fn d 2 v s0 → let n := rget s .izkDkArg d 0
      ownsQpn s d n = true → rget s .izkDkArg d 1 = 4 → (qpOf s (n % 8192)).state = .rtr →
      ∃ t, exec (.qpModify fn d v) s = .next t ∧ IzkDone t d 0 n ∧ (qpOf t (n % 8192)).state = .rts)
    ∧ (∀ fn d v s0, IzkCommand s fn d 3 v s0 → let n := rget s .izkDkArg d 0
      ownsQpn s d n = true → (qpOf s (n % 8192)).state = .reset ∨ (qpOf s (n % 8192)).state = .init →
      ∃ t, exec (.qpDestroy fn d v) s = .next t ∧ IzkDone t d 0 0 ∧ (qpOf t (n % 8192)).state = .free)
    ∧ (∀ fn d v s0 c, IzkCommand s fn d 4 v s0 → let a (j : Nat) : Nat := rget s .izkDkArg d j
      tfree s.izk.cqs 8192 = some c → a 0 % 4096 = 0 → 4 ≤ a 1 → a 1 ≤ 16 → a 2 % 4 = 0 → a 3 = 0 →
      dkCheck s0 d .izkai true (a 0) (32 * 2 ^ a 1) = 0 → dkCheck s0 d .izkai false (a 2) 4 = 0 →
      ∃ t, exec (.cqCreate fn d v) s = .next t ∧ IzkDone t d 0 c ∧ (tfind t.izk.cqs c).isSome = true)
    ∧ (∀ fn d v s0 x, IzkCommand s fn d 5 v s0 → let c := rget s .izkDkArg d 0
      tfind s.izk.cqs c = some x → x.deckle = d →
      (∀ q ∈ s.izk.qps, q.2.state ≠ .free → q.2.state ≠ .reset → q.2.ctx.scq ≠ c ∧ q.2.ctx.rcq ≠ c) →
      ∃ t, exec (.cqDestroy fn d v) s = .next t ∧ IzkDone t d 0 0 ∧ tfind t.izk.cqs c = none)
    ∧ (∀ fn d v s0 i, IzkCommand s fn d 6 v s0 → let a (j : Nat) : Nat := rget s .izkDkArg d j
      (List.range 65536).find? (fun i => !(mrOf s i).live) = some i → a 1 ≠ 0 → a 0 + a 1 ≤ 2 ^ 40 → s.rng.failed = false →
      ∃ t, exec (.mrReg fn d v) s = .next t ∧ (mrOf t i).base = a 0 ∧ (mrOf t i).len = a 1
        ∧ { who := .agent 1 d, use := .mrKey d } ∈ (drbg t 2).queue)
    ∧ (∀ g d i m rest, mrWaiting s d = some (i, m) → g < 4 → canDeliver (drbg s g) = true → reseedDue (drbg s g) = false →
      (drbg s g).count + 1 < 2 ^ 32 → domainRuns s 2 = true → (drbg s g).queue = { who := .agent 1 d, use := .mrKey d } :: rest →
      ∃ t, exec (.generate g) s = .next t ∧ (mrOf t i).ready = true ∧ (mrOf t i).rand = fieldAt (drbgGen (drbg s g)).2 0 1)
    ∧ (∀ fn d v s0, IzkCommand s fn d 7 v s0 → let k := rget s .izkDkArg d 0
      let m := mrOf s (k % 65536)
      k < 2 ^ 32 → m.live = true → m.ready = true → m.revoked = false → m.deckle = d → m.gen = bits k 23 16 → m.rand = bits k 31 24 →
      mrUsed s (k % 65536) = false → ∃ t, exec (.mrDereg fn d v) s = .next t ∧ IzkDone t d 0 0 ∧ (mrOf t (k % 65536)).live = false)
    ∧ (∀ d i, tfind s.izk.drains d = some i → mrUsed s i = false →
      ∃ t, exec (.revocationDrainEnd d) s = .next t ∧ IzkDone t d 0 0 ∧ (mrOf t i).live = false)
end

