-- ==== Sys2Proof/Laws/Tables.lean ====
section
/-! SUPPORT. Sparse tables: what is read after a write, and that every operation keeps the canonical form. -/

namespace Sys2Proof.Laws

open Sys2Proof.Machine

set_option Elab.async false

variable {α : Type}

/-! ### Reading -/

theorem tget_append (d : α) (t u : Tab α) (k : Nat) :
    tget d (t ++ u) k = if t.any (fun p => p.1 == k) then tget d t k else tget d u k := by
  induction t with
  | nil => rfl
  | cons p t ih =>
    by_cases h : p.1 = k
    · simp [tget, h]
    · have hb : (p.1 == k) = false := by simp [h]
      simp only [List.cons_append, tget, h, if_false, List.any_cons, hb, Bool.false_or, ih]

theorem tget_eq_of_none (d : α) (t : Tab α) (k : Nat) (h : ∀ p ∈ t, p.1 ≠ k) : tget d t k = d := by
  induction t with
  | nil => rfl
  | cons p t ih => simp [tget, h p (by simp), ih (fun q hq => h q (by simp [hq]))]

/-- Filtering by a condition on keys that `k` meets does not change what `k` reads as. -/
theorem tget_filter (d : α) (t : Tab α) (P : Nat → Bool) (k : Nat) (h : P k = true) :
    tget d (t.filter (fun p => P p.1)) k = tget d t k := by
  induction t with
  | nil => rfl
  | cons p t ih =>
    by_cases hp : P p.1 = true
    · rw [List.filter_cons_of_pos (by simpa using hp)]
      by_cases hk : p.1 = k <;> simp [tget, hk, ih]
    · rw [List.filter_cons_of_neg (by simpa using hp), ih]
      have : p.1 ≠ k := fun e => hp (e ▸ h)
      simp [tget, this]

theorem tpairs_bounds (base : Nat) (vs : List α) : ∀ p ∈ tpairs base vs, base ≤ p.1 ∧ p.1 < base + vs.length := by
  induction vs generalizing base with
  | nil => intro p h; simp [tpairs] at h
  | cons v vs ih =>
    intro p h
    simp only [tpairs, List.mem_cons] at h
    rcases h with rfl | h
    · simp
    · have := ih (base + 1) p h
      simp only [List.length_cons]; omega

section
variable [DecidableEq α]

theorem tget_tpairs (d : α) (base : Nat) (vs : List α) (i : Nat) (h : i < vs.length) :
    tget d ((tpairs base vs).filter (fun p => decide (p.2 ≠ d))) (base + i) = vs[i] := by
  induction vs generalizing base i with
  | nil => simp at h
  | cons v vs ih =>
    have hrest : ∀ p ∈ (tpairs (base + 1) vs).filter (fun p => decide (p.2 ≠ d)), p.1 ≠ base := by
      intro p hp
      have := tpairs_bounds (base + 1) vs p ((List.mem_filter.1 hp).1)
      omega
    cases i with
    | zero =>
      by_cases hv : v = d
      · rw [tpairs, List.filter_cons_of_neg (by simp [hv])]
        simpa [hv] using tget_eq_of_none d _ base hrest
      · rw [tpairs, List.filter_cons_of_pos (by simp [hv])]
        simp [tget]
    | succ i =>
      have e : base + (i + 1) = base + 1 + i := by omega
      have := ih (base + 1) i (by simpa using h)
      rw [e]
      by_cases hv : v = d
      · rw [tpairs, List.filter_cons_of_neg (by simp [hv])]; simpa using this
      · rw [tpairs, List.filter_cons_of_pos (by simp [hv])]
        have : base ≠ base + 1 + i := by omega
        simpa [tget, this] using ih (base + 1) i (by simpa using h)

/-- A key outside the written range reads as before, whatever an unlisted key reads as. -/
theorem tget_tputs_out' (e d : α) (t : Tab α) (base k : Nat) (vs : List α) (h : k < base ∨ base + vs.length ≤ k) :
    tget e (tputs d t base vs) k = tget e t k := by
  have hm : ∀ p ∈ (tpairs base vs).filter (fun p => decide (p.2 ≠ d)), p.1 ≠ k := by
    intro p hp
    have := tpairs_bounds base vs p ((List.mem_filter.1 hp).1)
    omega
  have hany : ((tpairs base vs).filter (fun p => decide (p.2 ≠ d))).any (fun p => p.1 == k) = false := by
    simpa using fun a b hp => hm (a, b) hp
  unfold tputs
  rcases h with h | h
  · rw [List.append_assoc, tget_append]
    split
    · exact tget_filter e t (fun a => decide (a < base)) k (by simp [h])
    · next hn =>
      rw [tget_append, hany]
      simp only [Bool.false_eq_true, if_false]
      rw [tget_eq_of_none e _ k (by intro p hp; have := (List.mem_filter.1 hp).2; simp at this; omega)]
      symm
      refine tget_eq_of_none e t k ?_
      intro p hp e'
      exact hn (by simp only [List.any_eq_true]; exact ⟨p, List.mem_filter.2 ⟨hp, by simp [e', h]⟩, by simp [e']⟩)
  · rw [tget_append]
    split
    · next hn =>
      exfalso
      simp only [List.any_eq_true] at hn
      obtain ⟨p, hp, e'⟩ := hn
      have e' : p.1 = k := by simpa using e'
      rcases List.mem_append.1 hp with hp | hp
      · have := (List.mem_filter.1 hp).2; simp at this; omega
      · exact hm p hp e'
    · exact tget_filter e t (fun a => decide (base + vs.length ≤ a)) k (by simp [h])

theorem tget_tputs_out (d : α) (t : Tab α) (base k : Nat) (vs : List α) (h : k < base ∨ base + vs.length ≤ k) :
    tget d (tputs d t base vs) k = tget d t k := tget_tputs_out' d d t base k vs h

/-- Key `base + i` reads as value `i` of those written. -/
theorem tget_tputs_in (d : α) (t : Tab α) (base : Nat) (vs : List α) (i : Nat) (h : i < vs.length) :
    tget d (tputs d t base vs) (base + i) = vs[i] := by
  unfold tputs
  rw [List.append_assoc, tget_append]
  have h1 : (t.filter (fun p => decide (p.1 < base))).any (fun p => p.1 == base + i) = false := by
    simp only [List.any_eq_false, beq_iff_eq]
    intro p hp e
    have := (List.mem_filter.1 hp).2; simp at this; omega
  rw [h1]
  simp only [Bool.false_eq_true, if_false]
  rw [tget_append]
  split
  · exact tget_tpairs d base vs i h
  · next hn =>
    rw [tget_eq_of_none d _ _ (by intro p hp; have := (List.mem_filter.1 hp).2; simp at this; omega)]
    rw [← tget_tpairs d base vs i h]
    symm
    refine tget_eq_of_none d _ _ ?_
    intro p hp e
    exact hn (by simp only [List.any_eq_true]; exact ⟨p, hp, by simp [e]⟩)

@[simp] theorem tget_tset_same (d : α) (t : Tab α) (k : Nat) (v : α) : tget d (tset d t k v) k = v :=
  tget_tputs_in d t k [v] 0 (by simp)

theorem tget_tset_ne (d : α) (t : Tab α) (k j : Nat) (v : α) (h : j ≠ k) : tget d (tset d t k v) j = tget d t j :=
  tget_tputs_out d t k j [v] (by simp; omega)

/-- Writing one key leaves every other, whatever an unlisted key reads as. -/
theorem tget_tset_ne' (e d : α) (t : Tab α) (k j : Nat) (v : α) (h : j ≠ k) : tget e (tset d t k v) j = tget e t j :=
  tget_tputs_out' e d t k j [v] (by simp; omega)

/-! ### The canonical form -/

omit [DecidableEq α] in
theorem tsorted_iff (t : Tab α) : tsorted t = true ↔ t.Pairwise (fun p q => p.1 < q.1) := by
  induction t with
  | nil => simp [tsorted]
  | cons p t ih =>
    cases t with
    | nil => simp [tsorted]
    | cons q t =>
      simp only [tsorted, Bool.and_eq_true, decide_eq_true_eq, ih, List.pairwise_cons]
      constructor
      · rintro ⟨h, h2, h3⟩
        refine ⟨?_, h2, h3⟩
        intro x hx
        rcases List.mem_cons.1 hx with rfl | hx
        · exact h
        · exact Nat.lt_trans h (h2 x hx)
      · rintro ⟨h, h2, h3⟩
        exact ⟨h q (by simp), h2, h3⟩

theorem tcanon_iff (d : α) (t : Tab α) : tcanon d t = true ↔ t.Pairwise (fun p q => p.1 < q.1) ∧ ∀ p ∈ t, p.2 ≠ d := by
  simp [tcanon, tsorted_iff]

omit [DecidableEq α] in
theorem tpairs_sorted (base : Nat) (vs : List α) : (tpairs base vs).Pairwise (fun p q => p.1 < q.1) := by
  induction vs generalizing base with
  | nil => simp [tpairs]
  | cons v vs ih =>
    refine List.pairwise_cons.2 ⟨?_, ih (base + 1)⟩
    intro p hp
    have := tpairs_bounds (base + 1) vs p hp
    show base < p.1
    omega

/-- Writing keeps the keys rising. -/
theorem tsorted_tputs (d : α) (t : Tab α) (base : Nat) (vs : List α) (h : tsorted t = true) : tsorted (tputs d t base vs) = true := by
  rw [tsorted_iff] at h ⊢
  refine List.pairwise_append.2 ⟨List.pairwise_append.2 ⟨h.filter _, (tpairs_sorted base vs).filter _, ?_⟩, h.filter _, ?_⟩
  · intro p hp q hq
    have h1 := (List.mem_filter.1 hp).2
    have h2 := tpairs_bounds base vs q ((List.mem_filter.1 hq).1)
    simp at h1; omega
  · intro p hp q hq
    have h2 := (List.mem_filter.1 hq).2
    simp at h2
    rcases List.mem_append.1 hp with hp | hp
    · have h1 := (List.mem_filter.1 hp).2
      simp at h1; omega
    · have h1 := tpairs_bounds base vs p ((List.mem_filter.1 hp).1)
      omega

theorem tsorted_tset (d : α) (t : Tab α) (k : Nat) (v : α) (h : tsorted t = true) : tsorted (tset d t k v) = true :=
  tsorted_tputs d t k [v] h

/-- Writing keeps the canonical form. -/
theorem tcanon_tputs (d : α) (t : Tab α) (base : Nat) (vs : List α) (h : tcanon d t = true) : tcanon d (tputs d t base vs) = true := by
  have hs := tsorted_tputs d t base vs (by simp only [tcanon, Bool.and_eq_true] at h; exact h.1)
  rw [tcanon_iff] at h ⊢
  refine ⟨(tsorted_iff _).1 hs, ?_⟩
  intro p hp
  rcases List.mem_append.1 hp with hp | hp
  · rcases List.mem_append.1 hp with hp | hp
    · exact h.2 p ((List.mem_filter.1 hp).1)
    · simpa using (List.mem_filter.1 hp).2
  · exact h.2 p ((List.mem_filter.1 hp).1)

theorem tcanon_tset (d : α) (t : Tab α) (k : Nat) (v : α) (h : tcanon d t = true) : tcanon d (tset d t k v) = true :=
  tcanon_tputs d t k [v] h

/-- Clearing a range keeps the canonical form. -/
theorem tcanon_tclear (d : α) (t : Tab α) (base n : Nat) (h : tcanon d t = true) : tcanon d (tclear t base n) = true := by
  rw [tcanon_iff] at h ⊢
  obtain ⟨hs, hd⟩ := h
  constructor
  · refine List.pairwise_append.2 ⟨hs.filter _, hs.filter _, ?_⟩
    intro p hp q hq
    have h1 := (List.mem_filter.1 hp).2
    have h2 := (List.mem_filter.1 hq).2
    simp at h1 h2; omega
  · intro p hp
    rcases List.mem_append.1 hp with hp | hp <;> exact hd p ((List.mem_filter.1 hp).1)

end

@[simp] theorem tslice_length (d : α) (t : Tab α) (base n : Nat) : (tslice d t base n).length = n := by simp [tslice]

/-- A prefix of a slice is the shorter slice. -/
theorem tslice_take (d : α) (t : Tab α) (base n k : Nat) (h : k ≤ n) : (tslice d t base n).take k = tslice d t base k := by
  simp only [tslice, ← List.map_take, List.take_range, Nat.min_eq_left h]

/-- A part of a slice is a slice. -/
theorem tslice_drop (d : α) (t : Tab α) (base n k : Nat) : (tslice d t base n).drop k = tslice d t (base + k) (n - k) := by
  apply List.ext_getElem
  · simp [tslice]
  · intro i h1 h2
    simp [tslice, Nat.add_assoc]

end Sys2Proof.Laws
end

