-- ==== Sys2Proof/Laws/Frame.lean ====
section
/-! SUPPORT. Frames: an operation changes only the parts of the state that its frame lemma names. -/

namespace Sys2Proof.Laws

open Sys2Proof.Machine Sys2Proof.Safety

set_option Elab.async false

/-- The parts of the state a frame lemma can name: one for each field, with device and host memory cut by what operations share. -/
inductive Piece where
  | pending | now | tsc | regs | halfClears | latches | out | freeCount | sealed | fe | fuses | banks | boot | power
  | pins | clk | quires | phys | retireQueue | mesh | waits | dramData | dramMarks | dramCells | dramMap | ctls | zeros | hostMem
  | hostRings | hostFns | hostQueues | spdm | reports | deckles | serving | poly | tagSerial | sessions | rng | ev
  | izk | mgt
  deriving DecidableEq, Repr

/-- The part is the same in two states. -/
def Piece.same (s t : State) : Piece → Prop
  | .pending => s.pending = t.pending
  | .now => s.now = t.now
  | .tsc => s.tsc = t.tsc
  | .regs => s.regs = t.regs
  | .halfClears => s.halfClears = t.halfClears
  | .latches => s.latches = t.latches
  | .out => s.out = t.out
  | .freeCount => s.freeCount = t.freeCount
  | .sealed => s.sealed = t.sealed
  | .fe => s.fe = t.fe
  | .fuses => s.fuses = t.fuses
  | .banks => s.banks = t.banks
  | .boot => s.boot = t.boot
  | .power => s.power = t.power
  | .pins => s.pins = t.pins
  | .clk => s.clk = t.clk
  | .quires => s.quires = t.quires
  | .phys => s.phys = t.phys
  | .retireQueue => s.retireQueue = t.retireQueue
  | .mesh => s.mesh = t.mesh
  | .waits => s.waits = t.waits
  | .dramData => s.dram.data = t.dram.data
  | .dramMarks => s.dram.poison = t.dram.poison ∧ s.dram.errors = t.dram.errors ∧ s.dram.fresh = t.dram.fresh
  | .dramCells => s.dram.cache = t.dram.cache ∧ s.dram.under = t.dram.under ∧ s.dram.plru = t.dram.plru ∧ s.dram.upsets = t.dram.upsets
  | .dramMap => s.dram.mapped = t.dram.mapped ∧ s.dram.owner = t.dram.owner
  | .ctls => s.ctls = t.ctls
  | .zeros => s.zeros = t.zeros
  | .hostMem => s.host.mem = t.host.mem
  | .hostRings => s.host.rings = t.host.rings
  | .hostFns => s.host.fns = t.host.fns
  | .hostQueues => s.host.recQueue = t.host.recQueue ∧ s.host.vfOn = t.host.vfOn ∧ s.host.nextId = t.host.nextId
      ∧ s.host.starts = t.host.starts ∧ s.host.turn = t.host.turn ∧ s.host.measured = t.host.measured
  | .spdm => s.spdm = t.spdm
  | .reports => s.reports = t.reports
  | .deckles => s.deckles = t.deckles
  | .serving => s.serving = t.serving
  | .poly => s.poly = t.poly
  | .tagSerial => s.tagSerial = t.tagSerial
  | .sessions => s.sessions = t.sessions
  | .rng => s.rng = t.rng
  | .ev => s.ev = t.ev
  | .izk => s.izk = t.izk
  | .mgt => s.mgt = t.mgt

/-- Going from `s` to `t` changed only the parts listed. -/
structure Only (l : List Piece) (s t : State) : Prop where
  same : ∀ p, p ∉ l → p.same s t

theorem Piece.same_refl (s : State) (p : Piece) : p.same s s := by cases p <;> simp [Piece.same]

theorem Piece.same_trans {s t u : State} {p : Piece} (h : p.same s t) (k : p.same t u) : p.same s u := by
  cases p <;> simp_all [Piece.same]

theorem Only.refl (l : List Piece) (s : State) : Only l s s := ⟨fun p _ => Piece.same_refl s p⟩

theorem Only.trans {l : List Piece} {s t u : State} (h : Only l s t) (k : Only l t u) : Only l s u :=
  ⟨fun p hp => Piece.same_trans (h.same p hp) (k.same p hp)⟩

theorem Only.mono {l m : List Piece} {s t : State} (h : Only l s t) (hl : l.all (fun p => m.contains p) = true) : Only m s t :=
  ⟨fun p hp => h.same p (fun hm => hp (by simpa using (List.all_eq_true.1 hl) p hm))⟩

/-- One more operation, whose own frame lies within the frame. -/
theorem Only.step {l m : List Piece} {s t u : State} (k : Only m t u) (hl : m.all (fun p => l.contains p) = true) (h : Only l s t) :
    Only l s u := h.trans (k.mono hl)

/-- A record update that leaves the queue. -/
theorem Only.upd {l : List Piece} {s e : State}
    {x1 x2 x3 x4 x5 x6 x7 x8 x9 x10 x11 x12 x13 x14 x15 x16 x17 x18 x19 x20 x21 x22 x23 x24 x25 x26 x27 x28 x29 x30
    x31 x32 x33 x34 x35}
    (h : Only l s e)
    (hs : ∀ p, p ∉ l → p.same e
      ⟨e.pending, x1, x2, x3, x4, x5, x6, x7, x8, x9, x10, x11, x12, x13, x14, x15, x16, x17, x18, x19, x20, x21, x22,
      x23, x24, x25, x26, x27, x28, x29, x30, x31, x32, x33, x34, x35⟩ := by
        intro p hp
        cases p <;>
        (first
        | exact absurd (by decide) hp
        | exact rfl
        | exact ⟨rfl, rfl⟩
        | exact ⟨rfl, rfl, rfl⟩
        | exact ⟨rfl, rfl, rfl, rfl⟩
        | exact ⟨rfl, rfl, rfl, rfl, rfl, rfl⟩)) :
    Only l s
      ⟨e.pending, x1, x2, x3, x4, x5, x6, x7, x8, x9, x10, x11, x12, x13, x14, x15, x16, x17, x18, x19, x20, x21, x22,
      x23, x24, x25, x26, x27, x28, x29, x30, x31, x32, x33, x34, x35⟩ := h.trans ⟨hs⟩

theorem Only.foldl {α : Type} {l : List Piece} {s0 s : State} {f : State → α → State} (xs : List α)
    (hf : ∀ t x, Only l t (f t x)) (h : Only l s0 s) : Only l s0 (xs.foldl f s) := by
  induction xs generalizing s with
  | nil => exact h
  | cons x xs ih => exact ih (h.trans (hf s x))

theorem Only.ite {l : List Piece} {s a b : State} {c : Prop} [Decidable c] (ha : c → Only l s a) (hb : ¬c → Only l s b) :
    Only l s (if c then a else b) := by
  by_cases h : c
  · rw [if_pos h]; exact ha h
  · rw [if_neg h]; exact hb h

/-- The state an operation gives beside a value. -/
theorem Only.fst {α : Type} {l : List Piece} {s t : State} {a : α} {p : State × α} (h : p = (t, a)) (k : Only l s p.1) : Only l s t := by
  rw [h] at k; exact k

theorem Only.snd {α : Type} {l : List Piece} {s t : State} {a : α} {p : α × State} (h : p = (a, t)) (k : Only l s p.2) : Only l s t := by
  rw [h] at k; exact k

/-- A record update that keeps the canonical form: each of the three parts stands or is written by a table operation. -/
theorem canonical_upd {e : State}
    {x1 x2 x3 x4 x5 x6 x7 x8 x9 x10 x11 x12 x13 x14 x15 x16 x17 x18 x19 x20 x21 x22 x23 x24 x25 x26 x27 x28 x29 x30
    x31 x32 x33 x34 x35}
    (h : CanonicalForm e)
    (hd : Memory.wf e.dram.data = true → Memory.wf x21.data = true := by
      first | exact id | exact tcanon_tputs _ _ _ _ | exact tcanon_tclear _ _ _ _)
    (hm : Memory.wf e.host.mem = true → Memory.wf x24.mem = true := by first | exact id | exact tcanon_tputs _ _ _ _)
    (hr : tsorted e.regs = true → tsorted x3 = true := by first | exact id | exact tsorted_tset _ _ _ _) :
    CanonicalForm
      ⟨e.pending, x1, x2, x3, x4, x5, x6, x7, x8, x9, x10, x11, x12, x13, x14, x15, x16, x17, x18, x19, x20, x21, x22,
      x23, x24, x25, x26, x27, x28, x29, x30, x31, x32, x33, x34, x35⟩ := ⟨hd h.1, hm h.2.1, hr h.2.2⟩

/-- A fold of an operation that keeps the canonical form. -/
theorem canonical_foldl {α : Type} {s : State} {f : State → α → State} (xs : List α)
    (hf : ∀ t x, CanonicalForm t → CanonicalForm (f t x)) (h : CanonicalForm s) : CanonicalForm (xs.foldl f s) := by
  induction xs generalizing s with
  | nil => exact h
  | cons x xs ih => exact ih (hf s x h)

theorem canonical_ite {a b : State} {c : Prop} [Decidable c] (ha : c → CanonicalForm a) (hb : ¬c → CanonicalForm b) :
    CanonicalForm (if c then a else b) := by
  by_cases h : c
  · rw [if_pos h]; exact ha h
  · rw [if_neg h]; exact hb h

theorem canonical_fst {α : Type} {t : State} {a : α} {p : State × α} (h : p = (t, a)) (k : CanonicalForm p.1) : CanonicalForm t := by
  rw [h] at k; exact k

theorem canonical_snd {α : Type} {t : State} {a : α} {p : α × State} (h : p = (a, t)) (k : CanonicalForm p.2) : CanonicalForm t := by
  rw [h] at k; exact k

/-- What does not touch device memory, host memory or registers keeps the canonical form. -/
theorem Only.canonical {l : List Piece} {s t : State} (h : Only l s t)
    (hl : l.any (fun p => [Piece.dramData, .hostMem, .regs].contains p) = false) (hc : CanonicalForm s) : CanonicalForm t := by
  have hn : ∀ p ∈ [Piece.dramData, .hostMem, .regs], p ∉ l := by
    intro p hp hm
    have := List.any_eq_false.1 hl p hm
    exact this (by simpa using hp)
  have h1 : s.dram.data = t.dram.data := h.same .dramData (hn _ (by simp))
  have h2 : s.host.mem = t.host.mem := h.same .hostMem (hn _ (by simp))
  have h3 : s.regs = t.regs := h.same .regs (hn _ (by simp))
  unfold CanonicalForm at *
  rw [← h1, ← h2, ← h3]; exact hc

end Sys2Proof.Laws
end

