-- ==== Sys2Proof/Laws/Ops.lean ====
section
/-! SUPPORT. The frame of every shared operation: which parts of the state it can change. Proofs cite these and unfold no operation. -/

namespace Sys2Proof.Laws

open Sys2Proof.Machine

set_option Elab.async false

/-- What raising an event can change: an event of severity FE stops the device (R505). -/
abbrev eventParts : List Piece :=
  [.regs, .out, .fe, .hostMem, .hostRings, .hostFns, .hostQueues, .deckles, .sessions, .ev, .izk, .mgt]

/-- What a read of device memory can change: the errors it meets are corrected or poisoned, counted, logged and raised (R330–R342). -/
abbrev touchParts : List Piece := [.freeCount, .dramData, .dramMarks, .dramCells, .ctls] ++ eventParts

/-- What a write of device memory can change. -/
abbrev writeParts : List Piece := [.phys, .retireQueue, .waits] ++ touchParts

/-! ### Registers, events, host memory, rings -/

theorem rset_only (s : State) (r : Reg) (v : Nat) (k : Nat) (j : Nat) :
    Only [.regs] s (rset s r v k j) := by
  unfold rset
  try dsimp only
  repeat'
    first
      | with_reducible exact Only.refl _ _
      | with_reducible refine Only.foldl _ (fun _ _ => ?_) ?_
      | with_reducible refine Only.ite (fun _ => ?_) (fun _ => ?_)
      | split
      | refine Only.upd ?_

theorem fset_only (s : State) (r : Reg) (hi lo v : Nat) (k : Nat) (j : Nat) :
    Only [.regs] s (fset s r hi lo v k j) := by
  unfold fset
  try dsimp only
  repeat'
    first
      | with_reducible exact Only.refl _ _
      | ((with_reducible apply Only.step); (· with_reducible apply rset_only); (· decide))
      | with_reducible refine Only.foldl _ (fun _ _ => ?_) ?_
      | with_reducible refine Only.ite (fun _ => ?_) (fun _ => ?_)
      | split
      | refine Only.upd ?_

theorem fadd_only (s : State) (r : Reg) (hi lo n : Nat) (k : Nat) (j : Nat) :
    Only [.regs] s (fadd s r hi lo n k j) := by
  unfold fadd
  try dsimp only
  repeat'
    first
      | with_reducible exact Only.refl _ _
      | ((with_reducible apply Only.step); (· with_reducible apply fset_only); (· decide))
      | with_reducible refine Only.foldl _ (fun _ _ => ?_) ?_
      | with_reducible refine Only.ite (fun _ => ?_) (fun _ => ?_)
      | split
      | refine Only.upd ?_

theorem logRecord_only (s : State) (r : Reg) (k lost v : Nat) :
    Only [.regs] s (logRecord s r k lost v) := by
  unfold logRecord
  try dsimp only
  repeat'
    first
      | with_reducible exact Only.refl _ _
      | ((with_reducible apply Only.step); (· with_reducible apply fset_only); (· decide))
      | ((with_reducible apply Only.step); (· with_reducible apply rset_only); (· decide))
      | with_reducible refine Only.foldl _ (fun _ _ => ?_) ?_
      | with_reducible refine Only.ite (fun _ => ?_) (fun _ => ?_)
      | split
      | refine Only.upd ?_

theorem takeFree_only (s : State) :
    Only [.freeCount] s (takeFree s).2 := by
  unfold takeFree
  try dsimp only
  repeat'
    first
      | with_reducible exact Only.refl _ _
      | with_reducible refine Only.foldl _ (fun _ _ => ?_) ?_
      | with_reducible refine Only.ite (fun _ => ?_) (fun _ => ?_)
      | split
      | refine Only.upd ?_

theorem emit_only (s : State) (o : Output) :
    Only [.out] s (emit s o) := by
  unfold emit
  try dsimp only
  repeat'
    first
      | with_reducible exact Only.refl _ _
      | with_reducible refine Only.foldl _ (fun _ _ => ?_) ?_
      | with_reducible refine Only.ite (fun _ => ?_) (fun _ => ?_)
      | split
      | refine Only.upd ?_

theorem setQuire_only (s : State) (q : Nat) (x : Quire) :
    Only [.quires] s (setQuire s q x) := by
  unfold setQuire
  try dsimp only
  repeat'
    first
      | with_reducible exact Only.refl _ _
      | with_reducible refine Only.foldl _ (fun _ _ => ?_) ?_
      | with_reducible refine Only.ite (fun _ => ?_) (fun _ => ?_)
      | split
      | refine Only.upd ?_

theorem setStream_only (s : State) (q st : Nat) (v : Stream) :
    Only [.quires] s (setStream s q st v) := by
  unfold setStream
  try dsimp only
  repeat'
    first
      | with_reducible exact Only.refl _ _
      | ((with_reducible apply Only.step); (· with_reducible apply setQuire_only); (· decide))
      | with_reducible refine Only.foldl _ (fun _ _ => ?_) ?_
      | with_reducible refine Only.ite (fun _ => ?_) (fun _ => ?_)
      | split
      | refine Only.upd ?_

theorem setPhys_only (s : State) (p : Nat) (x : Phys) :
    Only [.phys] s (setPhys s p x) := by
  unfold setPhys
  try dsimp only
  repeat'
    first
      | with_reducible exact Only.refl _ _
      | with_reducible refine Only.foldl _ (fun _ _ => ?_) ?_
      | with_reducible refine Only.ite (fun _ => ?_) (fun _ => ?_)
      | split
      | refine Only.upd ?_

theorem setDeckle_only (s : State) (d : Nat) (x : Deckle) :
    Only [.deckles] s (setDeckle s d x) := by
  unfold setDeckle
  try dsimp only
  repeat'
    first
      | with_reducible exact Only.refl _ _
      | with_reducible refine Only.foldl _ (fun _ _ => ?_) ?_
      | with_reducible refine Only.ite (fun _ => ?_) (fun _ => ?_)
      | split
      | refine Only.upd ?_

theorem setRing_only (s : State) (r : Nat) (x : Ring) :
    Only [.hostRings] s (setRing s r x) := by
  unfold setRing
  try dsimp only
  repeat'
    first
      | with_reducible exact Only.refl _ _
      | with_reducible refine Only.foldl _ (fun _ _ => ?_) ?_
      | with_reducible refine Only.ite (fun _ => ?_) (fun _ => ?_)
      | split
      | refine Only.upd ?_

theorem setFunc_only (s : State) (f : Nat) (x : Function) :
    Only [.hostFns] s (setFunc s f x) := by
  unfold setFunc
  try dsimp only
  repeat'
    first
      | with_reducible exact Only.refl _ _
      | with_reducible refine Only.foldl _ (fun _ _ => ?_) ?_
      | with_reducible refine Only.ite (fun _ => ?_) (fun _ => ?_)
      | split
      | refine Only.upd ?_

theorem setPoly_only (s : State) (d : Nat) (x : Poly) :
    Only [.poly] s (setPoly s d x) := by
  unfold setPoly
  try dsimp only
  repeat'
    first
      | with_reducible exact Only.refl _ _
      | with_reducible refine Only.foldl _ (fun _ _ => ?_) ?_
      | with_reducible refine Only.ite (fun _ => ?_) (fun _ => ?_)
      | split
      | refine Only.upd ?_

theorem setCtl_only (s : State) (c : Nat) (x : Controller) :
    Only [.ctls] s (setCtl s c x) := by
  unfold setCtl
  try dsimp only
  repeat'
    first
      | with_reducible exact Only.refl _ _
      | with_reducible refine Only.foldl _ (fun _ _ => ?_) ?_
      | with_reducible refine Only.ite (fun _ => ?_) (fun _ => ?_)
      | split
      | refine Only.upd ?_

theorem setPort_only (s : State) (p : Nat) (x : Port) :
    Only [.izk] s (setPort s p x) := by
  unfold setPort
  try dsimp only
  repeat'
    first
      | with_reducible exact Only.refl _ _
      | with_reducible refine Only.foldl _ (fun _ _ => ?_) ?_
      | with_reducible refine Only.ite (fun _ => ?_) (fun _ => ?_)
      | split
      | refine Only.upd ?_

theorem setPin_only (s : State) (i : Nat) (x : Pin) :
    Only [.pins] s (setPin s i x) := by
  unfold setPin
  try dsimp only
  repeat'
    first
      | with_reducible exact Only.refl _ _
      | with_reducible refine Only.foldl _ (fun _ _ => ?_) ?_
      | with_reducible refine Only.ite (fun _ => ?_) (fun _ => ?_)
      | split
      | refine Only.upd ?_

theorem hostWrite_only (s : State) (a : Nat) (bs : List Byte) :
    Only [.hostMem] s (hostWrite s a bs) := by
  unfold hostWrite
  try dsimp only
  repeat'
    first
      | with_reducible exact Only.refl _ _
      | with_reducible refine Only.foldl _ (fun _ _ => ?_) ?_
      | with_reducible refine Only.ite (fun _ => ?_) (fun _ => ?_)
      | split
      | refine Only.upd ?_

theorem sendMsix_only (s : State) (fn vec : Nat) :
    Only [.out, .hostFns] s (sendMsix s fn vec) := by
  unfold sendMsix
  try dsimp only
  repeat'
    first
      | with_reducible exact Only.refl _ _
      | ((with_reducible apply Only.step); (· with_reducible apply setFunc_only); (· decide))
      | ((with_reducible apply Only.step); (· with_reducible apply emit_only); (· decide))
      | with_reducible refine Only.foldl _ (fun _ _ => ?_) ?_
      | with_reducible refine Only.ite (fun _ => ?_) (fun _ => ?_)
      | split
      | refine Only.upd ?_

theorem cqSignal_only (s : State) (r : Nat) :
    Only [.out, .hostRings, .hostFns] s (cqSignal s r) := by
  unfold cqSignal
  try dsimp only
  repeat'
    first
      | with_reducible exact Only.refl _ _
      | ((with_reducible apply Only.step); (· with_reducible apply sendMsix_only); (· decide))
      | ((with_reducible apply Only.step); (· with_reducible apply setRing_only); (· decide))
      | with_reducible refine Only.foldl _ (fun _ _ => ?_) ?_
      | with_reducible refine Only.ite (fun _ => ?_) (fun _ => ?_)
      | split
      | refine Only.upd ?_

theorem cqWrite_only (s : State) (r : Nat) (body : List Byte) (irq : Bool) :
    Only [.out, .hostMem, .hostRings, .hostFns] s (cqWrite s r body irq) := by
  unfold cqWrite
  try dsimp only
  repeat'
    first
      | with_reducible exact Only.refl _ _
      | ((with_reducible apply Only.step); (· with_reducible apply cqSignal_only); (· decide))
      | ((with_reducible apply Only.step); (· with_reducible apply hostWrite_only); (· decide))
      | ((with_reducible apply Only.step); (· with_reducible apply setRing_only); (· decide))
      | with_reducible refine Only.foldl _ (fun _ _ => ?_) ?_
      | with_reducible refine Only.ite (fun _ => ?_) (fun _ => ?_)
      | split
      | refine Only.upd ?_

theorem cqLose_only (s : State) (r : Nat) :
    Only [.regs] s (cqLose s r) := by
  unfold cqLose
  try dsimp only
  repeat'
    first
      | with_reducible exact Only.refl _ _
      | ((with_reducible apply Only.step); (· with_reducible apply fadd_only); (· decide))
      | ((with_reducible apply Only.step); (· with_reducible apply fset_only); (· decide))
      | with_reducible refine Only.foldl _ (fun _ _ => ?_) ?_
      | with_reducible refine Only.ite (fun _ => ?_) (fun _ => ?_)
      | split
      | refine Only.upd ?_

theorem drainQueue_only (n : Nat) (s : State) (r : Nat) :
    Only [.out, .hostMem, .hostRings, .hostFns, .hostQueues] s (drainQueue n s r) := by
  induction n generalizing s with
  | zero => exact Only.refl _ _
  | succ n ih =>
    unfold drainQueue
    try dsimp only
    repeat'
      first
        | with_reducible exact Only.refl _ _
        | ((with_reducible apply Only.step); (· with_reducible apply ih); (· decide))
        | ((with_reducible apply Only.step); (· with_reducible apply cqWrite_only); (· decide))
        | with_reducible refine Only.foldl _ (fun _ _ => ?_) ?_
        | with_reducible refine Only.ite (fun _ => ?_) (fun _ => ?_)
        | split
        | refine Only.upd ?_

theorem dropQueued_only (s : State) (r : Nat) :
    Only [.regs, .hostQueues] s (dropQueued s r) := by
  unfold dropQueued
  try dsimp only
  repeat'
    first
      | with_reducible exact Only.refl _ _
      | ((with_reducible apply Only.step); (· with_reducible apply cqLose_only); (· decide))
      | with_reducible refine Only.foldl _ (fun _ _ => ?_) ?_
      | with_reducible refine Only.ite (fun _ => ?_) (fun _ => ?_)
      | split
      | refine Only.upd ?_

theorem cqUnreserved_only (s : State) (r : Nat) (fn : Nat) (body : List Byte) :
    Only [.regs, .out, .hostMem, .hostRings, .hostFns, .hostQueues] s (cqUnreserved s r fn body) := by
  unfold cqUnreserved
  try dsimp only
  repeat'
    first
      | with_reducible exact Only.refl _ _
      | ((with_reducible apply Only.step); (· with_reducible apply cqLose_only); (· decide))
      | ((with_reducible apply Only.step); (· with_reducible apply cqWrite_only); (· decide))
      | with_reducible refine Only.foldl _ (fun _ _ => ?_) ?_
      | with_reducible refine Only.ite (fun _ => ?_) (fun _ => ?_)
      | split
      | refine Only.upd ?_

theorem ringSettle_only (s : State) (r : Nat) :
    Only [.regs, .hostRings, .hostQueues] s (ringSettle s r) := by
  unfold ringSettle
  try dsimp only
  repeat'
    first
      | with_reducible exact Only.refl _ _
      | ((with_reducible apply Only.step); (· with_reducible apply dropQueued_only); (· decide))
      | ((with_reducible apply Only.step); (· with_reducible apply setRing_only); (· decide))
      | with_reducible refine Only.foldl _ (fun _ _ => ?_) ?_
      | with_reducible refine Only.ite (fun _ => ?_) (fun _ => ?_)
      | split
      | refine Only.upd ?_

theorem complete_only (s : State) (r id status fault value : Nat) (aux : Nat) :
    Only [.regs, .out, .hostMem, .hostRings, .hostFns, .hostQueues] s (complete s r id status fault value aux) := by
  unfold complete
  try dsimp only
  repeat'
    first
      | with_reducible exact Only.refl _ _
      | ((with_reducible apply Only.step); (· with_reducible apply ringSettle_only); (· decide))
      | ((with_reducible apply Only.step); (· with_reducible apply drainQueue_only); (· decide))
      | ((with_reducible apply Only.step); (· with_reducible apply cqWrite_only); (· decide))
      | ((with_reducible apply Only.step); (· with_reducible apply setRing_only); (· decide))
      | with_reducible refine Only.foldl _ (fun _ _ => ?_) ?_
      | with_reducible refine Only.ite (fun _ => ?_) (fun _ => ?_)
      | split
      | refine Only.upd ?_

theorem flushUnstarted_only (s : State) (r status : Nat) :
    Only [.regs, .out, .hostMem, .hostRings, .hostFns, .hostQueues] s (flushUnstarted s r status) := by
  unfold flushUnstarted
  try dsimp only
  repeat'
    first
      | with_reducible exact Only.refl _ _
      | ((with_reducible apply Only.step); (· with_reducible apply complete_only); (· decide))
      | with_reducible refine Only.foldl _ (fun _ _ => ?_) ?_
      | with_reducible refine Only.ite (fun _ => ?_) (fun _ => ?_)
      | split
      | refine Only.upd ?_

theorem haltRing_only (s : State) (r reason : Nat) :
    Only [.regs, .out, .hostMem, .hostRings, .hostFns, .hostQueues] s (haltRing s r reason) := by
  unfold haltRing
  try dsimp only
  repeat'
    first
      | with_reducible exact Only.refl _ _
      | ((with_reducible apply Only.step); (· with_reducible apply flushUnstarted_only); (· decide))
      | ((with_reducible apply Only.step); (· with_reducible apply ringSettle_only); (· decide))
      | ((with_reducible apply Only.step); (· with_reducible apply setRing_only); (· decide))
      | with_reducible refine Only.foldl _ (fun _ _ => ?_) ?_
      | with_reducible refine Only.ite (fun _ => ?_) (fun _ => ?_)
      | split
      | refine Only.upd ?_

theorem dropObj_only (s : State) (d obj : Nat) (side : Option Nat) :
    Only [.hostQueues] s (dropObj s d obj side) := by
  unfold dropObj
  try dsimp only
  repeat'
    first
      | with_reducible exact Only.refl _ _
      | with_reducible refine Only.foldl _ (fun _ _ => ?_) ?_
      | with_reducible refine Only.ite (fun _ => ?_) (fun _ => ?_)
      | split
      | refine Only.upd ?_

theorem setDomain_only (s : State) (d : Nat) (x : Domain) :
    Only [.clk] s (setDomain s d x) := by
  unfold setDomain
  try dsimp only
  repeat'
    first
      | with_reducible exact Only.refl _ _
      | with_reducible refine Only.foldl _ (fun _ _ => ?_) ?_
      | with_reducible refine Only.ite (fun _ => ?_) (fun _ => ?_)
      | split
      | refine Only.upd ?_

theorem enterFE_only (s : State) : Only [.regs, .out, .fe, .hostMem, .hostRings, .hostFns, .hostQueues, .deckles, .sessions, .izk] s (enterFE s) := by
  unfold enterFE
  split
  · exact Only.refl _ _
  · have h : Only [.regs, .out, .fe, .hostMem, .hostRings, .hostFns, .hostQueues, .deckles, .sessions, .izk] s ((List.range 256).foldl (fun s r => haltRing s r 0) { s with fe := true }) :=
      Only.foldl _ (fun t r => (haltRing_only t r 0).mono (by decide)) (Only.upd (Only.refl _ _))
    generalize (List.range 256).foldl (fun s r => haltRing s r 0) { s with fe := true } = s1 at h ⊢
    dsimp only
    exact Only.upd h

theorem evLoss_only (s : State) (sev : Nat) :
    Only [.regs] s (evLoss s sev) := by
  unfold evLoss
  try dsimp only
  repeat'
    first
      | with_reducible exact Only.refl _ _
      | ((with_reducible apply Only.step); (· with_reducible apply fadd_only); (· decide))
      | with_reducible refine Only.foldl _ (fun _ _ => ?_) ?_
      | with_reducible refine Only.ite (fun _ => ?_) (fun _ => ?_)
      | split
      | refine Only.upd ?_

theorem evInsert_only (s : State) (e : Event) :
    Only [.regs, .ev] s (evInsert s e) := by
  unfold evInsert
  try dsimp only
  repeat'
    first
      | with_reducible exact Only.refl _ _
      | ((with_reducible apply Only.step); (· with_reducible apply evLoss_only); (· decide))
      | with_reducible refine Only.foldl _ (fun _ _ => ?_) ?_
      | with_reducible refine Only.ite (fun _ => ?_) (fun _ => ?_)
      | split
      | refine Only.upd ?_

theorem evFatal_only (s : State) (e : Event) (fatal : Bool) :
    Only [.regs] s (evFatal s e fatal) := by
  unfold evFatal
  try dsimp only
  repeat'
    first
      | with_reducible exact Only.refl _ _
      | ((with_reducible apply Only.step); (· with_reducible apply fset_only); (· decide))
      | ((with_reducible apply Only.step); (· with_reducible apply rset_only); (· decide))
      | with_reducible refine Only.foldl _ (fun _ _ => ?_) ?_
      | with_reducible refine Only.ite (fun _ => ?_) (fun _ => ?_)
      | split
      | refine Only.upd ?_

theorem evSubscribe_only (s : State) (e : Event) :
    Only [.regs, .mgt] s (evSubscribe s e) := by
  unfold evSubscribe
  try dsimp only
  repeat'
    first
      | with_reducible exact Only.refl _ _
      | ((with_reducible apply Only.step); (· with_reducible apply fadd_only); (· decide))
      | with_reducible refine Only.foldl _ (fun _ _ => ?_) ?_
      | with_reducible refine Only.ite (fun _ => ?_) (fun _ => ?_)
      | split
      | refine Only.upd ?_

theorem evEnter_only (s : State) (e0 : Event) :
    Only [.regs, .ev, .mgt] s (evEnter s e0) := by
  unfold evEnter
  try dsimp only
  repeat'
    first
      | with_reducible exact Only.refl _ _
      | ((with_reducible apply Only.step); (· with_reducible apply evSubscribe_only); (· decide))
      | ((with_reducible apply Only.step); (· with_reducible apply evFatal_only); (· decide))
      | ((with_reducible apply Only.step); (· with_reducible apply evInsert_only); (· decide))
      | ((with_reducible apply Only.step); (· with_reducible apply fset_only); (· decide))
      | with_reducible refine Only.foldl _ (fun _ _ => ?_) ?_
      | with_reducible refine Only.ite (fun _ => ?_) (fun _ => ?_)
      | split
      | refine Only.upd ?_

theorem raise_only (s : State) (e0 : Event) :
    Only eventParts s (raise s e0) := by
  unfold raise
  try dsimp only
  repeat'
    first
      | with_reducible exact Only.refl _ _
      | ((with_reducible apply Only.step); (· with_reducible apply evEnter_only); (· decide))
      | ((with_reducible apply Only.step); (· with_reducible apply evFatal_only); (· decide))
      | ((with_reducible apply Only.step); (· with_reducible apply enterFE_only); (· decide))
      | with_reducible refine Only.foldl _ (fun _ _ => ?_) ?_
      | with_reducible refine Only.ite (fun _ => ?_) (fun _ => ?_)
      | split
      | refine Only.upd ?_

theorem raisePoison_only (s : State) (block inst : Nat) (dk : Option Nat) (dpa : Nat) :
    Only eventParts s (raisePoison s block inst dk dpa) := by
  unfold raisePoison
  try dsimp only
  repeat'
    first
      | with_reducible exact Only.refl _ _
      | ((with_reducible apply Only.step); (· with_reducible apply raise_only); (· decide))
      | with_reducible refine Only.foldl _ (fun _ _ => ?_) ?_
      | with_reducible refine Only.ite (fun _ => ?_) (fun _ => ?_)
      | split
      | refine Only.upd ?_


/-! ### Error reports -/

theorem requestRetire_only (s : State) (p : Nat) :
    Only [.phys, .retireQueue] s (requestRetire s p) := by
  unfold requestRetire
  try dsimp only
  repeat'
    first
      | with_reducible exact Only.refl _ _
      | ((with_reducible apply Only.step); (· with_reducible apply setPhys_only); (· decide))
      | with_reducible refine Only.foldl _ (fun _ _ => ?_) ?_
      | with_reducible refine Only.ite (fun _ => ?_) (fun _ => ?_)
      | split
      | refine Only.upd ?_

theorem nestEvent_only (s : State) (p : Nat) (e : Event) :
    Only [.regs] s (nestEvent s p e).1 := by
  unfold nestEvent
  try dsimp only
  repeat'
    first
      | with_reducible exact Only.refl _ _
      | ((with_reducible apply Only.step); (· with_reducible apply fset_only); (· decide))
      | ((with_reducible apply Only.step); (· with_reducible apply rset_only); (· decide))
      | with_reducible refine Only.foldl _ (fun _ _ => ?_) ?_
      | with_reducible refine Only.ite (fun _ => ?_) (fun _ => ?_)
      | split
      | refine Only.upd ?_

theorem qreRaise_only (s : State) (p : Nat) (e : Event) :
    Only eventParts s (qreRaise s p e) := by
  unfold qreRaise
  try dsimp only
  repeat'
    first
      | with_reducible exact Only.refl _ _
      | ((with_reducible apply Only.step); (· (with_reducible apply Only.fst); (· assumption); (· with_reducible apply nestEvent_only)); (· decide))
      | ((with_reducible apply Only.step); (· with_reducible apply nestEvent_only); (· decide))
      | ((with_reducible apply Only.step); (· with_reducible apply raise_only); (· decide))
      | with_reducible refine Only.foldl _ (fun _ _ => ?_) ?_
      | with_reducible refine Only.ite (fun _ => ?_) (fun _ => ?_)
      | split
      | refine Only.upd ?_

theorem qrePoison_only (s : State) (p : Nat) (dk : Option Nat) (dpa : Nat) :
    Only eventParts s (qrePoison s p dk dpa) := by
  unfold qrePoison
  try dsimp only
  repeat'
    first
      | with_reducible exact Only.refl _ _
      | ((with_reducible apply Only.step); (· with_reducible apply qreRaise_only); (· decide))
      | with_reducible refine Only.foldl _ (fun _ _ => ?_) ?_
      | with_reducible refine Only.ite (fun _ => ?_) (fun _ => ?_)
      | split
      | refine Only.upd ?_

theorem bucketFull_only (s : State) (p : Nat) :
    Only ([.phys, .retireQueue] ++ eventParts) s (bucketFull s p) := by
  unfold bucketFull
  try dsimp only
  repeat'
    first
      | with_reducible exact Only.refl _ _
      | ((with_reducible apply Only.step); (· with_reducible apply qreRaise_only); (· decide))
      | ((with_reducible apply Only.step); (· with_reducible apply requestRetire_only); (· decide))
      | ((with_reducible apply Only.step); (· with_reducible apply fset_only); (· decide))
      | with_reducible refine Only.foldl _ (fun _ _ => ?_) ?_
      | with_reducible refine Only.ite (fun _ => ?_) (fun _ => ?_)
      | split
      | refine Only.upd ?_

theorem bucketAdd_only (s : State) (p : Nat) :
    Only ([.phys, .retireQueue] ++ eventParts) s (bucketAdd s p) := by
  unfold bucketAdd
  try dsimp only
  repeat'
    first
      | with_reducible exact Only.refl _ _
      | ((with_reducible apply Only.step); (· with_reducible apply bucketFull_only); (· decide))
      | ((with_reducible apply Only.step); (· with_reducible apply fadd_only); (· decide))
      | with_reducible refine Only.foldl _ (fun _ _ => ?_) ?_
      | with_reducible refine Only.ite (fun _ => ?_) (fun _ => ?_)
      | split
      | refine Only.upd ?_

theorem windowHit_only (s : State) (p : Nat) :
    Only [.phys, .retireQueue] s (windowHit s p) := by
  unfold windowHit
  try dsimp only
  repeat'
    first
      | with_reducible exact Only.refl _ _
      | ((with_reducible apply Only.step); (· with_reducible apply requestRetire_only); (· decide))
      | ((with_reducible apply Only.step); (· with_reducible apply setPhys_only); (· decide))
      | with_reducible refine Only.foldl _ (fun _ _ => ?_) ?_
      | with_reducible refine Only.ite (fun _ => ?_) (fun _ => ?_)
      | split
      | refine Only.upd ?_

theorem qreError_only (s : State) (p sev code : Nat) (info : Nat) (hide : Nat) (addr : Option Nat) :
    Only ([.phys, .retireQueue] ++ eventParts) s (qreError s p sev code info hide addr) := by
  unfold qreError
  try dsimp only
  repeat'
    first
      | with_reducible exact Only.refl _ _
      | ((with_reducible apply Only.step); (· with_reducible apply windowHit_only); (· decide))
      | ((with_reducible apply Only.step); (· with_reducible apply bucketAdd_only); (· decide))
      | ((with_reducible apply Only.step); (· with_reducible apply qreRaise_only); (· decide))
      | with_reducible refine Only.foldl _ (fun _ _ => ?_) ?_
      | with_reducible refine Only.ite (fun _ => ?_) (fun _ => ?_)
      | split
      | refine Only.upd ?_


/-! ### Code words -/

theorem retireAdd_only (s : State) (a reason : Nat) :
    Only eventParts s (retireAdd s a reason) := by
  unfold retireAdd
  try dsimp only
  repeat'
    first
      | with_reducible exact Only.refl _ _
      | ((with_reducible apply Only.step); (· with_reducible apply raise_only); (· decide))
      | ((with_reducible apply Only.step); (· with_reducible apply fset_only); (· decide))
      | ((with_reducible apply Only.step); (· with_reducible apply rset_only); (· decide))
      | with_reducible refine Only.foldl _ (fun _ _ => ?_) ?_
      | with_reducible refine Only.ite (fun _ => ?_) (fun _ => ?_)
      | split
      | refine Only.upd ?_

theorem eccLog_only (s : State) (cw kind nbytes : Nat) :
    Only [.regs] s (eccLog s cw kind nbytes) := by
  unfold eccLog
  try dsimp only
  repeat'
    first
      | with_reducible exact Only.refl _ _
      | ((with_reducible apply Only.step); (· with_reducible apply logRecord_only); (· decide))
      | with_reducible refine Only.foldl _ (fun _ _ => ?_) ?_
      | with_reducible refine Only.ite (fun _ => ?_) (fun _ => ?_)
      | split
      | refine Only.upd ?_

theorem frameBucket_only (s : State) (a : Nat) :
    Only ([.ctls] ++ eventParts) s (frameBucket s a) := by
  unfold frameBucket
  try dsimp only
  repeat'
    first
      | with_reducible exact Only.refl _ _
      | ((with_reducible apply Only.step); (· with_reducible apply retireAdd_only); (· decide))
      | ((with_reducible apply Only.step); (· with_reducible apply raise_only); (· decide))
      | ((with_reducible apply Only.step); (· with_reducible apply setCtl_only); (· decide))
      | with_reducible refine Only.foldl _ (fun _ _ => ?_) ?_
      | with_reducible refine Only.ite (fun _ => ?_) (fun _ => ?_)
      | split
      | refine Only.upd ?_

theorem surface_only (s : State) (cw : Nat) :
    Only [.dramData, .dramCells] s (surface s cw) := by
  unfold surface
  try dsimp only
  repeat'
    first
      | with_reducible exact Only.refl _ _
      | with_reducible refine Only.foldl _ (fun _ _ => ?_) ?_
      | with_reducible refine Only.ite (fun _ => ?_) (fun _ => ?_)
      | split
      | refine Only.upd ?_

theorem flipAt_only (s : State) (cw : Nat) :
    Only [.regs, .dramMarks] s (flipAt s cw) := by
  unfold flipAt
  try dsimp only
  repeat'
    first
      | with_reducible exact Only.refl _ _
      | ((with_reducible apply Only.step); (· with_reducible apply fset_only); (· decide))
      | ((with_reducible apply Only.step); (· with_reducible apply rset_only); (· decide))
      | with_reducible refine Only.foldl _ (fun _ _ => ?_) ?_
      | with_reducible refine Only.ite (fun _ => ?_) (fun _ => ?_)
      | split
      | refine Only.upd ?_

theorem addPoison_only (s : State) (cw : Nat) :
    Only [.dramMarks] s (addPoison s cw) := by
  unfold addPoison
  try dsimp only
  repeat'
    first
      | with_reducible exact Only.refl _ _
      | with_reducible refine Only.foldl _ (fun _ _ => ?_) ?_
      | with_reducible refine Only.ite (fun _ => ?_) (fun _ => ?_)
      | split
      | refine Only.upd ?_

theorem clearErrors_only (s : State) (cw : Nat) :
    Only [.dramMarks] s (clearErrors s cw) := by
  unfold clearErrors
  try dsimp only
  repeat'
    first
      | with_reducible exact Only.refl _ _
      | with_reducible refine Only.foldl _ (fun _ _ => ?_) ?_
      | with_reducible refine Only.ite (fun _ => ?_) (fun _ => ?_)
      | split
      | refine Only.upd ?_

theorem dramRead_only (s : State) (a n : Nat) :
    Only [.regs] s (dramRead s a n) := by
  unfold dramRead
  try dsimp only
  repeat'
    first
      | with_reducible exact Only.refl _ _
      | ((with_reducible apply Only.step); (· with_reducible apply fadd_only); (· decide))
      | with_reducible refine Only.foldl _ (fun _ _ => ?_) ?_
      | with_reducible refine Only.ite (fun _ => ?_) (fun _ => ?_)
      | split
      | refine Only.upd ?_

theorem checkBuffer_only (s : State) (cw : Nat) :
    Only [.regs, .ctls] s (checkBuffer s cw) := by
  unfold checkBuffer
  try dsimp only
  repeat'
    first
      | with_reducible exact Only.refl _ _
      | ((with_reducible apply Only.step); (· with_reducible apply dramRead_only); (· decide))
      | ((with_reducible apply Only.step); (· with_reducible apply setCtl_only); (· decide))
      | with_reducible refine Only.foldl _ (fun _ _ => ?_) ?_
      | with_reducible refine Only.ite (fun _ => ?_) (fun _ => ?_)
      | split
      | refine Only.upd ?_

theorem writeCw_only (s : State) (cw : Nat) :
    Only [.regs, .dramMarks, .dramCells, .ctls] s (writeCw s cw) := by
  unfold writeCw
  try dsimp only
  repeat'
    first
      | with_reducible exact Only.refl _ _
      | ((with_reducible apply Only.step); (· with_reducible apply checkBuffer_only); (· decide))
      | ((with_reducible apply Only.step); (· with_reducible apply clearErrors_only); (· decide))
      | ((with_reducible apply Only.step); (· with_reducible apply flipAt_only); (· decide))
      | ((with_reducible apply Only.step); (· with_reducible apply fadd_only); (· decide))
      | with_reducible refine Only.foldl _ (fun _ _ => ?_) ?_
      | with_reducible refine Only.ite (fun _ => ?_) (fun _ => ?_)
      | split
      | refine Only.upd ?_

theorem putPoison_only (s : State) (cw : Nat) (under : Bool) :
    Only [.regs, .dramMarks, .dramCells, .ctls] s (putPoison s cw under) := by
  unfold putPoison
  try dsimp only
  repeat'
    first
      | with_reducible exact Only.refl _ _
      | ((with_reducible apply Only.step); (· with_reducible apply writeCw_only); (· decide))
      | ((with_reducible apply Only.step); (· with_reducible apply addPoison_only); (· decide))
      | ((with_reducible apply Only.step); (· with_reducible apply flipAt_only); (· decide))
      | ((with_reducible apply Only.step); (· with_reducible apply fadd_only); (· decide))
      | with_reducible refine Only.foldl _ (fun _ _ => ?_) ?_
      | with_reducible refine Only.ite (fun _ => ?_) (fun _ => ?_)
      | split
      | refine Only.upd ?_

theorem eccCe_only (s : State) (cw kind n : Nat) (scrub : Bool) :
    Only ([.dramMarks, .ctls] ++ eventParts) s (eccCe s cw kind n scrub) := by
  unfold eccCe
  try dsimp only
  repeat'
    first
      | with_reducible exact Only.refl _ _
      | ((with_reducible apply Only.step); (· with_reducible apply clearErrors_only); (· decide))
      | ((with_reducible apply Only.step); (· with_reducible apply flipAt_only); (· decide))
      | ((with_reducible apply Only.step); (· with_reducible apply frameBucket_only); (· decide))
      | ((with_reducible apply Only.step); (· with_reducible apply eccLog_only); (· decide))
      | ((with_reducible apply Only.step); (· with_reducible apply raise_only); (· decide))
      | ((with_reducible apply Only.step); (· with_reducible apply fadd_only); (· decide))
      | with_reducible refine Only.foldl _ (fun _ _ => ?_) ?_
      | with_reducible refine Only.ite (fun _ => ?_) (fun _ => ?_)
      | split
      | refine Only.upd ?_

theorem eccUc_only (s : State) (cw kind reason : Nat) (under : Bool) :
    Only ([.dramMarks, .dramCells, .ctls] ++ eventParts) s (eccUc s cw kind reason under) := by
  unfold eccUc
  try dsimp only
  repeat'
    first
      | with_reducible exact Only.refl _ _
      | ((with_reducible apply Only.step); (· with_reducible apply putPoison_only); (· decide))
      | ((with_reducible apply Only.step); (· with_reducible apply eccLog_only); (· decide))
      | ((with_reducible apply Only.step); (· with_reducible apply retireAdd_only); (· decide))
      | ((with_reducible apply Only.step); (· with_reducible apply fadd_only); (· decide))
      | with_reducible refine Only.foldl _ (fun _ _ => ?_) ?_
      | with_reducible refine Only.ite (fun _ => ?_) (fun _ => ?_)
      | split
      | refine Only.upd ?_

theorem foundPoison_only (s : State) (cw : Nat) :
    Only [.dramMarks] s (foundPoison s cw) := by
  unfold foundPoison
  try dsimp only
  repeat'
    first
      | with_reducible exact Only.refl _ _
      | ((with_reducible apply Only.step); (· with_reducible apply clearErrors_only); (· decide))
      | ((with_reducible apply Only.step); (· with_reducible apply addPoison_only); (· decide))
      | with_reducible refine Only.foldl _ (fun _ _ => ?_) ?_
      | with_reducible refine Only.ite (fun _ => ?_) (fun _ => ?_)
      | split
      | refine Only.upd ?_

theorem eccWild_only (s : State) (cw kind reason : Nat) :
    Only touchParts s (eccWild s cw kind reason) := by
  unfold eccWild
  try dsimp only
  repeat'
    first
      | with_reducible exact Only.refl _ _
      | ((with_reducible apply Only.step); (· with_reducible apply eccUc_only); (· decide))
      | ((with_reducible apply Only.step); (· with_reducible apply eccCe_only); (· decide))
      | ((with_reducible apply Only.step); (· (with_reducible apply Only.snd); (· assumption); (· with_reducible apply takeFree_only)); (· decide))
      | ((with_reducible apply Only.step); (· with_reducible apply takeFree_only); (· decide))
      | with_reducible refine Only.foldl _ (fun _ _ => ?_) ?_
      | with_reducible refine Only.ite (fun _ => ?_) (fun _ => ?_)
      | split
      | refine Only.upd ?_

theorem dropCell_only (s : State) (c : Cell) :
    Only [.dramCells] s (dropCell s c) := by
  unfold dropCell
  try dsimp only
  repeat'
    first
      | with_reducible exact Only.refl _ _
      | with_reducible refine Only.foldl _ (fun _ _ => ?_) ?_
      | with_reducible refine Only.ite (fun _ => ?_) (fun _ => ?_)
      | split
      | refine Only.upd ?_

theorem handlerUse_only (s : State) (h : Handler) (block code : Nat) :
    Only ([.dramCells] ++ eventParts) s (handlerUse s h block code) := by
  unfold handlerUse
  try dsimp only
  repeat'
    first
      | with_reducible exact Only.refl _ _
      | ((with_reducible apply Only.step); (· with_reducible apply dropCell_only); (· decide))
      | ((with_reducible apply Only.step); (· with_reducible apply raise_only); (· decide))
      | with_reducible refine Only.foldl _ (fun _ _ => ?_) ?_
      | with_reducible refine Only.ite (fun _ => ?_) (fun _ => ?_)
      | split
      | refine Only.upd ?_

theorem checkLine_only (s : State) (cw : Nat) :
    Only ([.dramMarks, .dramCells, .ctls] ++ eventParts) s (checkLine s cw) := by
  unfold checkLine
  try dsimp only
  repeat'
    first
      | with_reducible exact Only.refl _ _
      | ((with_reducible apply Only.step); (· with_reducible apply putPoison_only); (· decide))
      | ((with_reducible apply Only.step); (· with_reducible apply eccLog_only); (· decide))
      | ((with_reducible apply Only.step); (· with_reducible apply raise_only); (· decide))
      | ((with_reducible apply Only.step); (· with_reducible apply fadd_only); (· decide))
      | with_reducible refine Only.foldl _ (fun _ _ => ?_) ?_
      | with_reducible refine Only.ite (fun _ => ?_) (fun _ => ?_)
      | split
      | refine Only.upd ?_

theorem touchCw_only (s0 : State) (cw : Nat) :
    Only touchParts s0 (touchCw s0 cw) := by
  unfold touchCw
  try dsimp only
  repeat'
    first
      | with_reducible exact Only.refl _ _
      | ((with_reducible apply Only.step); (· with_reducible apply checkLine_only); (· decide))
      | ((with_reducible apply Only.step); (· with_reducible apply eccWild_only); (· decide))
      | ((with_reducible apply Only.step); (· with_reducible apply foundPoison_only); (· decide))
      | ((with_reducible apply Only.step); (· with_reducible apply eccUc_only); (· decide))
      | ((with_reducible apply Only.step); (· with_reducible apply eccCe_only); (· decide))
      | ((with_reducible apply Only.step); (· with_reducible apply checkBuffer_only); (· decide))
      | ((with_reducible apply Only.step); (· with_reducible apply dramRead_only); (· decide))
      | with_reducible refine Only.foldl _ (fun _ _ => ?_) ?_
      | with_reducible refine Only.ite (fun _ => ?_) (fun _ => ?_)
      | split
      | refine Only.upd ?_


/-! ### Caches -/

theorem useWay_only (s : State) (base way : Nat) :
    Only [.dramCells] s (useWay s base way) := by
  unfold useWay
  try dsimp only
  repeat'
    first
      | with_reducible exact Only.refl _ _
      | with_reducible refine Only.foldl _ (fun _ _ => ?_) ?_
      | with_reducible refine Only.ite (fun _ => ?_) (fun _ => ?_)
      | split
      | refine Only.upd ?_

theorem modLine_only (s : State) (l : CacheLine) (h : CacheLine → CacheLine) :
    Only [.dramCells] s (modLine s l h) := by
  unfold modLine
  try dsimp only
  repeat'
    first
      | with_reducible exact Only.refl _ _
      | with_reducible refine Only.foldl _ (fun _ _ => ?_) ?_
      | with_reducible refine Only.ite (fun _ => ?_) (fun _ => ?_)
      | split
      | refine Only.upd ?_

theorem dropLine_only (s : State) (l : CacheLine) :
    Only [.dramData, .dramCells] s (dropLine s l) := by
  unfold dropLine
  try dsimp only
  repeat'
    first
      | with_reducible exact Only.refl _ _
      | ((with_reducible apply Only.step); (· with_reducible apply surface_only); (· decide))
      | with_reducible refine Only.foldl _ (fun _ _ => ?_) ?_
      | with_reducible refine Only.ite (fun _ => ?_) (fun _ => ?_)
      | split
      | refine Only.upd ?_

theorem clearCells_only (s : State) (c : Cell) (words : Nat → Bool) :
    Only [.dramCells] s (clearCells s c words) := by
  unfold clearCells
  try dsimp only
  repeat'
    first
      | with_reducible exact Only.refl _ _
      | with_reducible refine Only.foldl _ (fun _ _ => ?_) ?_
      | with_reducible refine Only.ite (fun _ => ?_) (fun _ => ?_)
      | split
      | refine Only.upd ?_

theorem sliceRaise_only (s : State) (sev code base : Nat) :
    Only eventParts s (sliceRaise s sev code base) := by
  unfold sliceRaise
  try dsimp only
  repeat'
    first
      | with_reducible exact Only.refl _ _
      | ((with_reducible apply Only.step); (· with_reducible apply raise_only); (· decide))
      | with_reducible refine Only.foldl _ (fun _ _ => ?_) ?_
      | with_reducible refine Only.ite (fun _ => ?_) (fun _ => ?_)
      | split
      | refine Only.upd ?_

theorem tagRead_only (s : State) (l : CacheLine) :
    Only ([.dramCells] ++ eventParts) s (tagRead s l) := by
  unfold tagRead
  try dsimp only
  repeat'
    first
      | with_reducible exact Only.refl _ _
      | ((with_reducible apply Only.step); (· with_reducible apply sliceRaise_only); (· decide))
      | ((with_reducible apply Only.step); (· with_reducible apply clearCells_only); (· decide))
      | ((with_reducible apply Only.step); (· with_reducible apply raise_only); (· decide))
      | with_reducible refine Only.foldl _ (fun _ _ => ?_) ?_
      | with_reducible refine Only.ite (fun _ => ?_) (fun _ => ?_)
      | split
      | refine Only.upd ?_

theorem sliceWord_only (l : CacheLine) (s : State) (w : Nat) :
    Only touchParts s (sliceWord l s w) := by
  unfold sliceWord
  try dsimp only
  repeat'
    first
      | with_reducible exact Only.refl _ _
      | ((with_reducible apply Only.step); (· with_reducible apply sliceRaise_only); (· decide))
      | ((with_reducible apply Only.step); (· with_reducible apply clearCells_only); (· decide))
      | ((with_reducible apply Only.step); (· with_reducible apply touchCw_only); (· decide))
      | ((with_reducible apply Only.step); (· with_reducible apply addPoison_only); (· decide))
      | ((with_reducible apply Only.step); (· with_reducible apply surface_only); (· decide))
      | with_reducible refine Only.foldl _ (fun _ _ => ?_) ?_
      | with_reducible refine Only.ite (fun _ => ?_) (fun _ => ?_)
      | split
      | refine Only.upd ?_

theorem l1Merge_only (s : State) (l : CacheLine) :
    Only ([.phys, .retireQueue, .dramMarks, .dramCells] ++ eventParts) s (l1Merge s l) := by
  unfold l1Merge
  try dsimp only
  repeat'
    first
      | with_reducible exact Only.refl _ _
      | ((with_reducible apply Only.step); (· with_reducible apply clearCells_only); (· decide))
      | ((with_reducible apply Only.step); (· with_reducible apply modLine_only); (· decide))
      | ((with_reducible apply Only.step); (· with_reducible apply addPoison_only); (· decide))
      | ((with_reducible apply Only.step); (· with_reducible apply qreError_only); (· decide))
      | with_reducible refine Only.foldl _ (fun _ _ => ?_) ?_
      | with_reducible refine Only.ite (fun _ => ?_) (fun _ => ?_)
      | split
      | refine Only.upd ?_

theorem sliceRead_only (s : State) (l : CacheLine) (off n : Nat) :
    Only touchParts s (sliceRead s l off n) := by
  unfold sliceRead
  try dsimp only
  repeat'
    first
      | with_reducible exact Only.refl _ _
      | ((with_reducible apply Only.step); (· with_reducible apply sliceWord_only); (· decide))
      | ((with_reducible apply Only.step); (· with_reducible apply tagRead_only); (· decide))
      | with_reducible refine Only.foldl _ (fun _ _ => ?_) ?_
      | with_reducible refine Only.ite (fun _ => ?_) (fun _ => ?_)
      | split
      | refine Only.upd ?_

theorem writeBack_only (s : State) (base : Nat) :
    Only [.regs, .dramMarks, .dramCells, .ctls] s (writeBack s base) := by
  unfold writeBack
  try dsimp only
  repeat'
    first
      | with_reducible exact Only.refl _ _
      | ((with_reducible apply Only.step); (· with_reducible apply writeCw_only); (· decide))
      | with_reducible refine Only.foldl _ (fun _ _ => ?_) ?_
      | with_reducible refine Only.ite (fun _ => ?_) (fun _ => ?_)
      | split
      | refine Only.upd ?_

theorem evictLine_only (s : State) (l : CacheLine) :
    Only ([.phys, .retireQueue] ++ touchParts) s (evictLine s l) := by
  unfold evictLine
  try dsimp only
  repeat'
    first
      | with_reducible exact Only.refl _ _
      | ((with_reducible apply Only.step); (· with_reducible apply writeBack_only); (· decide))
      | ((with_reducible apply Only.step); (· with_reducible apply sliceRead_only); (· decide))
      | ((with_reducible apply Only.step); (· with_reducible apply l1Merge_only); (· decide))
      | ((with_reducible apply Only.step); (· with_reducible apply dropLine_only); (· decide))
      | with_reducible refine Only.foldl _ (fun _ _ => ?_) ?_
      | with_reducible refine Only.ite (fun _ => ?_) (fun _ => ?_)
      | split
      | refine Only.upd ?_

theorem l1Enter_only (s : State) (p base : Nat) :
    Only ([.phys, .retireQueue, .dramMarks, .dramCells] ++ eventParts) s (l1Enter s p base) := by
  unfold l1Enter
  try dsimp only
  repeat'
    first
      | with_reducible exact Only.refl _ _
      | ((with_reducible apply Only.step); (· with_reducible apply l1Merge_only); (· decide))
      | ((with_reducible apply Only.step); (· with_reducible apply modLine_only); (· decide))
      | with_reducible refine Only.foldl _ (fun _ _ => ?_) ?_
      | with_reducible refine Only.ite (fun _ => ?_) (fun _ => ?_)
      | split
      | refine Only.upd ?_

theorem fillLine_only (s : State) (v : Via) (base : Nat) :
    Only ([.phys, .retireQueue] ++ touchParts) s (fillLine s v base) := by
  unfold fillLine
  try dsimp only
  repeat'
    first
      | with_reducible exact Only.refl _ _
      | ((with_reducible apply Only.step); (· with_reducible apply evictLine_only); (· decide))
      | ((with_reducible apply Only.step); (· with_reducible apply useWay_only); (· decide))
      | with_reducible refine Only.foldl _ (fun _ _ => ?_) ?_
      | with_reducible refine Only.ite (fun _ => ?_) (fun _ => ?_)
      | split
      | refine Only.upd ?_

theorem flushLines_only (s : State) (p : CacheLine → Bool) :
    Only ([.phys, .retireQueue] ++ touchParts) s (flushLines s p) := by
  unfold flushLines
  try dsimp only
  repeat'
    first
      | with_reducible exact Only.refl _ _
      | ((with_reducible apply Only.step); (· with_reducible apply evictLine_only); (· decide))
      | with_reducible refine Only.foldl _ (fun _ _ => ?_) ?_
      | with_reducible refine Only.ite (fun _ => ?_) (fun _ => ?_)
      | split
      | refine Only.upd ?_

theorem l1Flush_only (s : State) (p : Nat) :
    Only ([.phys, .retireQueue, .dramMarks, .dramCells] ++ eventParts) s (l1Flush s p) := by
  unfold l1Flush
  try dsimp only
  repeat'
    first
      | with_reducible exact Only.refl _ _
      | ((with_reducible apply Only.step); (· with_reducible apply l1Merge_only); (· decide))
      | with_reducible refine Only.foldl _ (fun _ _ => ?_) ?_
      | with_reducible refine Only.ite (fun _ => ?_) (fun _ => ?_)
      | split
      | refine Only.upd ?_

theorem l1Read_only (s : State) (p : Nat) (l : CacheLine) (off n : Nat) :
    Only ([.phys, .retireQueue] ++ touchParts) s (l1Read s p l off n) := by
  unfold l1Read
  try dsimp only
  repeat'
    first
      | with_reducible exact Only.refl _ _
      | ((with_reducible apply Only.step); (· with_reducible apply sliceRead_only); (· decide))
      | ((with_reducible apply Only.step); (· with_reducible apply l1Merge_only); (· decide))
      | ((with_reducible apply Only.step); (· with_reducible apply clearCells_only); (· decide))
      | ((with_reducible apply Only.step); (· with_reducible apply qreError_only); (· decide))
      | with_reducible refine Only.foldl _ (fun _ _ => ?_) ?_
      | with_reducible refine Only.ite (fun _ => ?_) (fun _ => ?_)
      | split
      | refine Only.upd ?_

theorem sliceCount_only (s : State) (hit : Bool) :
    Only [.regs] s (sliceCount s hit) := by
  unfold sliceCount
  try dsimp only
  repeat'
    first
      | with_reducible exact Only.refl _ _
      | ((with_reducible apply Only.step); (· with_reducible apply fadd_only); (· decide))
      | with_reducible refine Only.foldl _ (fun _ _ => ?_) ?_
      | with_reducible refine Only.ite (fun _ => ?_) (fun _ => ?_)
      | split
      | refine Only.upd ?_

theorem readLine_only (v : Via) (s : State) (base off n : Nat) :
    Only ([.phys, .retireQueue] ++ touchParts) s (readLine v s base off n) := by
  unfold readLine
  try dsimp only
  repeat'
    first
      | with_reducible exact Only.refl _ _
      | ((with_reducible apply Only.step); (· with_reducible apply sliceCount_only); (· decide))
      | ((with_reducible apply Only.step); (· with_reducible apply l1Read_only); (· decide))
      | ((with_reducible apply Only.step); (· with_reducible apply fillLine_only); (· decide))
      | ((with_reducible apply Only.step); (· with_reducible apply l1Enter_only); (· decide))
      | ((with_reducible apply Only.step); (· with_reducible apply sliceRead_only); (· decide))
      | ((with_reducible apply Only.step); (· with_reducible apply l1Merge_only); (· decide))
      | ((with_reducible apply Only.step); (· with_reducible apply useWay_only); (· decide))
      | ((with_reducible apply Only.step); (· with_reducible apply touchCw_only); (· decide))
      | with_reducible refine Only.foldl _ (fun _ _ => ?_) ?_
      | with_reducible refine Only.ite (fun _ => ?_) (fun _ => ?_)
      | split
      | refine Only.upd ?_

theorem storeBytes_only (s : State) (a : Nat) (bs : List Byte) :
    Only [.dramData, .dramMarks] s (storeBytes s a bs) := by
  unfold storeBytes
  try dsimp only
  repeat'
    first
      | with_reducible exact Only.refl _ _
      | with_reducible refine Only.foldl _ (fun _ _ => ?_) ?_
      | with_reducible refine Only.ite (fun _ => ?_) (fun _ => ?_)
      | split
      | refine Only.upd ?_

theorem cacheWrite_only (v : Via) (s : State) (l : CacheLine) (a : Nat) (bs : List Byte) :
    Only ([.phys, .retireQueue] ++ touchParts) s (cacheWrite v s l a bs) := by
  unfold cacheWrite
  try dsimp only
  repeat'
    first
      | with_reducible exact Only.refl _ _
      | ((with_reducible apply Only.step); (· with_reducible apply storeBytes_only); (· decide))
      | ((with_reducible apply Only.step); (· with_reducible apply sliceCount_only); (· decide))
      | ((with_reducible apply Only.step); (· with_reducible apply l1Read_only); (· decide))
      | ((with_reducible apply Only.step); (· with_reducible apply l1Enter_only); (· decide))
      | ((with_reducible apply Only.step); (· with_reducible apply l1Merge_only); (· decide))
      | ((with_reducible apply Only.step); (· with_reducible apply sliceWord_only); (· decide))
      | ((with_reducible apply Only.step); (· with_reducible apply tagRead_only); (· decide))
      | ((with_reducible apply Only.step); (· with_reducible apply clearCells_only); (· decide))
      | ((with_reducible apply Only.step); (· with_reducible apply modLine_only); (· decide))
      | ((with_reducible apply Only.step); (· with_reducible apply useWay_only); (· decide))
      | with_reducible refine Only.foldl _ (fun _ _ => ?_) ?_
      | with_reducible refine Only.ite (fun _ => ?_) (fun _ => ?_)
      | split
      | refine Only.upd ?_

theorem putCw_only (s : State) (a : Nat) (bs : List Byte) :
    Only touchParts s (putCw s a bs) := by
  unfold putCw
  try dsimp only
  repeat'
    first
      | with_reducible exact Only.refl _ _
      | ((with_reducible apply Only.step); (· with_reducible apply storeBytes_only); (· decide))
      | ((with_reducible apply Only.step); (· with_reducible apply touchCw_only); (· decide))
      | ((with_reducible apply Only.step); (· with_reducible apply writeCw_only); (· decide))
      | ((with_reducible apply Only.step); (· with_reducible apply clearErrors_only); (· decide))
      | ((with_reducible apply Only.step); (· with_reducible apply flipAt_only); (· decide))
      | ((with_reducible apply Only.step); (· with_reducible apply raise_only); (· decide))
      | with_reducible refine Only.foldl _ (fun _ _ => ?_) ?_
      | with_reducible refine Only.ite (fun _ => ?_) (fun _ => ?_)
      | split
      | refine Only.upd ?_

theorem putLine_only (v : Via) (s : State) (a : Nat) (bs : List Byte) :
    Only ([.phys, .retireQueue] ++ touchParts) s (putLine v s a bs) := by
  unfold putLine
  try dsimp only
  repeat'
    first
      | with_reducible exact Only.refl _ _
      | ((with_reducible apply Only.step); (· with_reducible apply putCw_only); (· decide))
      | ((with_reducible apply Only.step); (· with_reducible apply cacheWrite_only); (· decide))
      | ((with_reducible apply Only.step); (· with_reducible apply sliceCount_only); (· decide))
      | ((with_reducible apply Only.step); (· with_reducible apply fillLine_only); (· decide))
      | ((with_reducible apply Only.step); (· with_reducible apply touchCw_only); (· decide))
      | with_reducible refine Only.foldl _ (fun _ _ => ?_) ?_
      | with_reducible refine Only.ite (fun _ => ?_) (fun _ => ?_)
      | split
      | refine Only.upd ?_


/-! ### Device memory -/

theorem notify_only (s : State) (a n : Nat) :
    Only [.waits] s (notify s a n) := by
  unfold notify
  try dsimp only
  repeat'
    first
      | with_reducible exact Only.refl _ _
      | with_reducible refine Only.foldl _ (fun _ _ => ?_) ?_
      | with_reducible refine Only.ite (fun _ => ?_) (fun _ => ?_)
      | split
      | refine Only.upd ?_

theorem putGo_only (v : Via) (k : Nat) (s : State) (a : Nat) (bs : List Byte) : Only ([.phys, .retireQueue] ++ touchParts) s (putGo v k s a bs) := by
  induction k generalizing s a bs with
  | zero => exact Only.refl _ _
  | succ k ih =>
    cases bs with
    | nil => exact Only.refl _ _
    | cons b bs => exact (putLine_only ..).trans (ih _ _ _)

theorem memZero_only (s : State) (a n : Nat) :
    Only [.regs, .waits, .dramData, .dramMarks, .dramCells] s (memZero s a n) := by
  unfold memZero
  try dsimp only
  repeat'
    first
      | with_reducible exact Only.refl _ _
      | ((with_reducible apply Only.step); (· with_reducible apply notify_only); (· decide))
      | ((with_reducible apply Only.step); (· with_reducible apply flipAt_only); (· decide))
      | with_reducible refine Only.foldl _ (fun _ _ => ?_) ?_
      | with_reducible refine Only.ite (fun _ => ?_) (fun _ => ?_)
      | split
      | refine Only.upd ?_

theorem memPut_only (s : State) (v : Via) (a : Nat) (bs : List Byte) :
    Only writeParts s (memPut s v a bs) := by
  unfold memPut
  try dsimp only
  repeat'
    first
      | with_reducible exact Only.refl _ _
      | ((with_reducible apply Only.step); (· with_reducible apply memZero_only); (· decide))
      | ((with_reducible apply Only.step); (· with_reducible apply putGo_only); (· decide))
      | ((with_reducible apply Only.step); (· with_reducible apply notify_only); (· decide))
      | with_reducible refine Only.foldl _ (fun _ _ => ?_) ?_
      | with_reducible refine Only.ite (fun _ => ?_) (fun _ => ?_)
      | split
      | refine Only.upd ?_

theorem poisonWord_only (s : State) (v : Via) (cw : Nat) :
    Only [.regs, .dramMarks] s (poisonWord s v cw) := by
  unfold poisonWord
  try dsimp only
  repeat'
    first
      | with_reducible exact Only.refl _ _
      | ((with_reducible apply Only.step); (· with_reducible apply addPoison_only); (· decide))
      | ((with_reducible apply Only.step); (· with_reducible apply fadd_only); (· decide))
      | with_reducible refine Only.foldl _ (fun _ _ => ?_) ?_
      | with_reducible refine Only.ite (fun _ => ?_) (fun _ => ?_)
      | split
      | refine Only.upd ?_

theorem touchRange_only (s : State) (v : Via) (a n : Nat) :
    Only ([.phys, .retireQueue] ++ touchParts) s (touchRange s v a n) := by
  unfold touchRange
  try dsimp only
  repeat'
    first
      | with_reducible exact Only.refl _ _
      | ((with_reducible apply Only.step); (· with_reducible apply readLine_only); (· decide))
      | with_reducible refine Only.foldl _ (fun _ _ => ?_) ?_
      | with_reducible refine Only.ite (fun _ => ?_) (fun _ => ?_)
      | split
      | refine Only.upd ?_

theorem memFresh_only (s : State) (a n : Nat) :
    Only [.dramData, .dramMarks, .dramCells] s (memFresh s a n) := by
  unfold memFresh
  try dsimp only
  repeat'
    first
      | with_reducible exact Only.refl _ _
      | ((with_reducible apply Only.step); (· with_reducible apply dropLine_only); (· decide))
      | with_reducible refine Only.foldl _ (fun _ _ => ?_) ?_
      | with_reducible refine Only.ite (fun _ => ?_) (fun _ => ?_)
      | split
      | refine Only.upd ?_

theorem entryRead_only (s : State) (d a : Nat) :
    Only ([.phys, .retireQueue] ++ touchParts) s (entryRead s d a) := by
  unfold entryRead
  try dsimp only
  repeat'
    first
      | with_reducible exact Only.refl _ _
      | ((with_reducible apply Only.step); (· with_reducible apply touchRange_only); (· decide))
      | with_reducible refine Only.foldl _ (fun _ _ => ?_) ?_
      | with_reducible refine Only.ite (fun _ => ?_) (fun _ => ?_)
      | split
      | refine Only.upd ?_

theorem walkTouch_only (s : State) (d va : Nat) :
    Only ([.phys, .retireQueue] ++ touchParts) s (walkTouch s d va) := by
  unfold walkTouch
  try dsimp only
  repeat'
    first
      | with_reducible exact Only.refl _ _
      | ((with_reducible apply Only.step); (· with_reducible apply entryRead_only); (· decide))
      | with_reducible refine Only.foldl _ (fun _ _ => ?_) ?_
      | with_reducible refine Only.ite (fun _ => ?_) (fun _ => ?_)
      | split
      | refine Only.upd ?_

theorem reachTouch_only (s : State) (d va n : Nat) :
    Only ([.phys, .retireQueue] ++ touchParts) s (reachTouch s d va n) := by
  unfold reachTouch
  try dsimp only
  repeat'
    first
      | with_reducible exact Only.refl _ _
      | ((with_reducible apply Only.step); (· with_reducible apply walkTouch_only); (· decide))
      | with_reducible refine Only.foldl _ (fun _ _ => ?_) ?_
      | with_reducible refine Only.ite (fun _ => ?_) (fun _ => ?_)
      | split
      | refine Only.upd ?_

theorem segsWrite_only (s : State) (v : Via) (l : List (Nat × Nat)) (bs : List Byte) :
    Only writeParts s (segsWrite s v l bs) := by
  induction l generalizing s bs with
  | nil => exact Only.refl _ _
  | cons g l ih =>
    unfold segsWrite
    try dsimp only
    repeat'
      first
        | with_reducible exact Only.refl _ _
        | ((with_reducible apply Only.step); (· with_reducible apply ih); (· decide))
        | ((with_reducible apply Only.step); (· with_reducible apply memPut_only); (· decide))
        | with_reducible refine Only.foldl _ (fun _ _ => ?_) ?_
        | with_reducible refine Only.ite (fun _ => ?_) (fun _ => ?_)
        | split
        | refine Only.upd ?_

theorem segsTouch_only (s : State) (v : Via) (segs : List (Nat × Nat)) :
    Only ([.phys, .retireQueue] ++ touchParts) s (segsTouch s v segs) := by
  unfold segsTouch
  try dsimp only
  repeat'
    first
      | with_reducible exact Only.refl _ _
      | ((with_reducible apply Only.step); (· with_reducible apply touchRange_only); (· decide))
      | with_reducible refine Only.foldl _ (fun _ _ => ?_) ?_
      | with_reducible refine Only.ite (fun _ => ?_) (fun _ => ?_)
      | split
      | refine Only.upd ?_

theorem dkRead_only (s : State) (d : Nat) (a : Agent) (va n : Nat) :
    Only ([.phys, .retireQueue] ++ touchParts) s (dkRead s d a va n).1 := by
  unfold dkRead
  try dsimp only
  repeat'
    first
      | with_reducible exact Only.refl _ _
      | ((with_reducible apply Only.step); (· with_reducible apply segsTouch_only); (· decide))
      | ((with_reducible apply Only.step); (· with_reducible apply reachTouch_only); (· decide))
      | with_reducible refine Only.foldl _ (fun _ _ => ?_) ?_
      | with_reducible refine Only.ite (fun _ => ?_) (fun _ => ?_)
      | split
      | refine Only.upd ?_

theorem dkWrite_only (s : State) (d : Nat) (a : Agent) (va : Nat) (bs : List Byte) :
    Only writeParts s (dkWrite s d a va bs).1 := by
  unfold dkWrite
  try dsimp only
  repeat'
    first
      | with_reducible exact Only.refl _ _
      | ((with_reducible apply Only.step); (· with_reducible apply segsWrite_only); (· decide))
      | ((with_reducible apply Only.step); (· with_reducible apply reachTouch_only); (· decide))
      | with_reducible refine Only.foldl _ (fun _ _ => ?_) ?_
      | with_reducible refine Only.ite (fun _ => ?_) (fun _ => ?_)
      | split
      | refine Only.upd ?_

theorem dkProbe_only (s : State) (d : Nat) (a : Agent) (write : Bool) (va n : Nat) :
    Only ([.phys, .retireQueue] ++ touchParts) s (dkProbe s d a write va n).1 := by
  unfold dkProbe
  try dsimp only
  repeat'
    first
      | with_reducible exact Only.refl _ _
      | ((with_reducible apply Only.step); (· with_reducible apply reachTouch_only); (· decide))
      | with_reducible refine Only.foldl _ (fun _ _ => ?_) ?_
      | with_reducible refine Only.ite (fun _ => ?_) (fun _ => ?_)
      | split
      | refine Only.upd ?_

theorem addProt_only (s : State) (d : Nat) (p : Prot) :
    Only [.deckles] s (addProt s d p) := by
  unfold addProt
  try dsimp only
  repeat'
    first
      | with_reducible exact Only.refl _ _
      | ((with_reducible apply Only.step); (· with_reducible apply setDeckle_only); (· decide))
      | with_reducible refine Only.foldl _ (fun _ _ => ?_) ?_
      | with_reducible refine Only.ite (fun _ => ?_) (fun _ => ?_)
      | split
      | refine Only.upd ?_

theorem delProt_only (s : State) (d : Nat) (k : ProtKind) (base : Nat) :
    Only [.deckles] s (delProt s d k base) := by
  unfold delProt
  try dsimp only
  repeat'
    first
      | with_reducible exact Only.refl _ _
      | ((with_reducible apply Only.step); (· with_reducible apply setDeckle_only); (· decide))
      | with_reducible refine Only.foldl _ (fun _ _ => ?_) ?_
      | with_reducible refine Only.ite (fun _ => ?_) (fun _ => ?_)
      | split
      | refine Only.upd ?_

theorem reEncrypt_only (d : Nat) (on : Bool) (s : State) :
    Only [.dramData, .dramCells] s (reEncrypt d on s) := by
  unfold reEncrypt
  try dsimp only
  repeat'
    first
      | with_reducible exact Only.refl _ _
      | with_reducible refine Only.foldl _ (fun _ _ => ?_) ?_
      | with_reducible refine Only.ite (fun _ => ?_) (fun _ => ?_)
      | split
      | refine Only.upd ?_

theorem zeroStart_only (s : State) (r : ZeroReq) :
    Only [.zeros] s (zeroStart s r) := by
  unfold zeroStart
  try dsimp only
  repeat'
    first
      | with_reducible exact Only.refl _ _
      | with_reducible refine Only.foldl _ (fun _ _ => ?_) ?_
      | with_reducible refine Only.ite (fun _ => ?_) (fun _ => ?_)
      | split
      | refine Only.upd ?_

theorem zeroFree_only (s : State) (e : Nat) :
    Only [.zeros] s (zeroFree s e) := by
  unfold zeroFree
  try dsimp only
  repeat'
    first
      | with_reducible exact Only.refl _ _
      | with_reducible refine Only.foldl _ (fun _ _ => ?_) ?_
      | with_reducible refine Only.ite (fun _ => ?_) (fun _ => ?_)
      | split
      | refine Only.upd ?_


/-! ### Register writes -/

theorem storeReg_only (s : State) (r : Reg) (k j m v : Nat) :
    Only [.regs] s (storeReg s r k j m v) := by
  unfold storeReg
  try dsimp only
  repeat'
    first
      | with_reducible exact Only.refl _ _
      | ((with_reducible apply Only.step); (· with_reducible apply rset_only); (· decide))
      | with_reducible refine Only.foldl _ (fun _ _ => ?_) ?_
      | with_reducible refine Only.ite (fun _ => ?_) (fun _ => ?_)
      | split
      | refine Only.upd ?_

theorem approvedOff_only (s : State) :
    Only [.regs] s (approvedOff s) := by
  unfold approvedOff
  try dsimp only
  repeat'
    first
      | with_reducible exact Only.refl _ _
      | ((with_reducible apply Only.step); (· with_reducible apply fset_only); (· decide))
      | with_reducible refine Only.foldl _ (fun _ _ => ?_) ?_
      | with_reducible refine Only.ite (fun _ => ?_) (fun _ => ?_)
      | split
      | refine Only.upd ?_

theorem injWrite_only (s : State) (r : Reg) (k v : Nat) :
    Only [.regs] s (injWrite s r k v) := by
  unfold injWrite
  try dsimp only
  repeat'
    first
      | with_reducible exact Only.refl _ _
      | ((with_reducible apply Only.step); (· with_reducible apply approvedOff_only); (· decide))
      | ((with_reducible apply Only.step); (· with_reducible apply storeReg_only); (· decide))
      | ((with_reducible apply Only.step); (· with_reducible apply fset_only); (· decide))
      | with_reducible refine Only.foldl _ (fun _ _ => ?_) ?_
      | with_reducible refine Only.ite (fun _ => ?_) (fun _ => ?_)
      | split
      | refine Only.upd ?_

theorem armStep_only (fn : Nat) (r : Reg) (k v : Nat) (s : State) :
    Only [.regs] s (armStep fn r k v s) := by
  unfold armStep
  try dsimp only
  repeat'
    first
      | with_reducible exact Only.refl _ _
      | ((with_reducible apply Only.step); (· with_reducible apply injWrite_only); (· decide))
      | with_reducible refine Only.foldl _ (fun _ _ => ?_) ?_
      | with_reducible refine Only.ite (fun _ => ?_) (fun _ => ?_)
      | split
      | refine Only.upd ?_

theorem endPliac_only (s : State) :
    Only [.reports, .rng, .mgt] s (endPliac s) := by
  unfold endPliac
  try dsimp only
  repeat'
    first
      | with_reducible exact Only.refl _ _
      | with_reducible refine Only.foldl _ (fun _ _ => ?_) ?_
      | with_reducible refine Only.ite (fun _ => ?_) (fun _ => ?_)
      | split
      | refine Only.upd ?_

theorem regEffect_only (s : State) (fn : Nat) (r : Reg) (k j m0 v : Nat) :
    Only [.regs, .quires, .dramData, .dramCells, .reports, .deckles, .rng, .mgt] s (regEffect s fn r k j m0 v) := by
  unfold regEffect
  try dsimp only
  repeat'
    first
      | with_reducible exact Only.refl _ _
      | ((with_reducible apply Only.step); (· with_reducible apply endPliac_only); (· decide))
      | ((with_reducible apply Only.step); (· with_reducible apply approvedOff_only); (· decide))
      | ((with_reducible apply Only.step); (· with_reducible apply storeReg_only); (· decide))
      | ((with_reducible apply Only.step); (· with_reducible apply reEncrypt_only); (· decide))
      | ((with_reducible apply Only.step); (· with_reducible apply setDeckle_only); (· decide))
      | ((with_reducible apply Only.step); (· with_reducible apply setQuire_only); (· decide))
      | ((with_reducible apply Only.step); (· with_reducible apply fset_only); (· decide))
      | ((with_reducible apply Only.step); (· with_reducible apply rset_only); (· decide))
      | with_reducible refine Only.foldl _ (fun _ _ => ?_) ?_
      | with_reducible refine Only.ite (fun _ => ?_) (fun _ => ?_)
      | split
      | refine Only.upd ?_

/-- A register write with a command of its own changes what the register's rules change, and what the command's action changes. -/
theorem ownWrite_only {l : List Piece} (s : State) (fn : Nat) (r : Reg) (k v : Nat) (act : State → State)
    (hl : [.regs, .quires, .dramData, .dramCells, .reports, .deckles, .rng, .mgt].all (fun p => l.contains p) = true) (h : ∀ t, Only l t (act t)) : Only l s (ownWrite s fn r k v act) := by
  unfold ownWrite
  split
  · exact ((regEffect_only ..).mono hl).trans (h _)
  · exact Only.refl _ _

theorem regWriteOne_only (s : State) (fn addr size v : Nat) :
    Only [.regs, .quires, .dramData, .dramCells, .reports, .deckles, .rng, .mgt] s (regWriteOne s fn addr size v) := by
  unfold regWriteOne
  try dsimp only
  repeat'
    first
      | with_reducible exact Only.refl _ _
      | ((with_reducible apply Only.step); (· with_reducible apply regEffect_only); (· decide))
      | with_reducible refine Only.foldl _ (fun _ _ => ?_) ?_
      | with_reducible refine Only.ite (fun _ => ?_) (fun _ => ?_)
      | split
      | refine Only.upd ?_

theorem regWrite_only (s : State) (fn addr size v : Nat) :
    Only [.regs, .quires, .dramData, .dramCells, .reports, .deckles, .rng, .mgt] s (regWrite s fn addr size v) := by
  unfold regWrite
  try dsimp only
  repeat'
    first
      | with_reducible exact Only.refl _ _
      | ((with_reducible apply Only.step); (· with_reducible apply regWriteOne_only); (· decide))
      | with_reducible refine Only.foldl _ (fun _ _ => ?_) ?_
      | with_reducible refine Only.ite (fun _ => ?_) (fun _ => ?_)
      | split
      | refine Only.upd ?_

theorem clearLog_only (s : State) (r : Reg) (k j : Nat) :
    Only [.regs, .quires] s (clearLog s r k j) := by
  unfold clearLog
  try dsimp only
  repeat'
    first
      | with_reducible exact Only.refl _ _
      | ((with_reducible apply Only.step); (· with_reducible apply setStream_only); (· decide))
      | ((with_reducible apply Only.step); (· with_reducible apply rset_only); (· decide))
      | with_reducible refine Only.foldl _ (fun _ _ => ?_) ?_
      | with_reducible refine Only.ite (fun _ => ?_) (fun _ => ?_)
      | split
      | refine Only.upd ?_

theorem logWrite_only (s : State) (fn addr size v : Nat) :
    Only [.regs, .halfClears, .quires] s (logWrite s fn addr size v) := by
  unfold logWrite
  try dsimp only
  repeat'
    first
      | with_reducible exact Only.refl _ _
      | ((with_reducible apply Only.step); (· with_reducible apply clearLog_only); (· decide))
      | with_reducible refine Only.foldl _ (fun _ _ => ?_) ?_
      | with_reducible refine Only.ite (fun _ => ?_) (fun _ => ?_)
      | split
      | refine Only.upd ?_


/-! ### Serving -/

theorem setCtx_only (s : State) (c : Nat) (x : Ctx) :
    Only [.serving] s (setCtx s c x) := by
  unfold setCtx
  try dsimp only
  repeat'
    first
      | with_reducible exact Only.refl _ _
      | with_reducible refine Only.foldl _ (fun _ _ => ?_) ?_
      | with_reducible refine Only.ite (fun _ => ?_) (fun _ => ?_)
      | split
      | refine Only.upd ?_

theorem setModel_only (s : State) (d m : Nat) (x : Model) :
    Only [.serving] s (setModel s d m x) := by
  unfold setModel
  try dsimp only
  repeat'
    first
      | with_reducible exact Only.refl _ _
      | with_reducible refine Only.foldl _ (fun _ _ => ?_) ?_
      | with_reducible refine Only.ite (fun _ => ?_) (fun _ => ?_)
      | split
      | refine Only.upd ?_

theorem setPoolFree_only (s : State) (d k n : Nat) :
    Only [.regs] s (setPoolFree s d k n) := by
  unfold setPoolFree
  try dsimp only
  repeat'
    first
      | with_reducible exact Only.refl _ _
      | ((with_reducible apply Only.step); (· with_reducible apply fset_only); (· decide))
      | with_reducible refine Only.foldl _ (fun _ _ => ?_) ?_
      | with_reducible refine Only.ite (fun _ => ?_) (fun _ => ?_)
      | split
      | refine Only.upd ?_

theorem ctxPut_only (s : State) (d va : Nat) (bs : List Byte) :
    Only writeParts s (ctxPut s d va bs) := by
  unfold ctxPut
  try dsimp only
  repeat'
    first
      | with_reducible exact Only.refl _ _
      | ((with_reducible apply Only.step); (· with_reducible apply segsWrite_only); (· decide))
      | ((with_reducible apply Only.step); (· with_reducible apply reachTouch_only); (· decide))
      | with_reducible refine Only.foldl _ (fun _ _ => ?_) ?_
      | with_reducible refine Only.ite (fun _ => ?_) (fun _ => ?_)
      | split
      | refine Only.upd ?_

theorem markUnit_only (s : State) (d k u : Nat) (on : Bool) :
    Only writeParts s (markUnit s d k u on) := by
  unfold markUnit
  try dsimp only
  repeat'
    first
      | with_reducible exact Only.refl _ _
      | ((with_reducible apply Only.step); (· with_reducible apply ctxPut_only); (· decide))
      | ((with_reducible apply Only.step); (· with_reducible apply setPoolFree_only); (· decide))
      | with_reducible refine Only.foldl _ (fun _ _ => ?_) ?_
      | with_reducible refine Only.ite (fun _ => ?_) (fun _ => ?_)
      | split
      | refine Only.upd ?_

/-- A unit allocated marks its bitmap as `markUnit` does. -/
theorem allocUnit_only (s t : State) (d k a : Nat) (h : allocUnit s d k = some (a, t)) : Only writeParts s t := by
  unfold allocUnit at h
  split at h
  · cases h
  · split at h
    · cases h
    · simp only [Option.some.injEq, Prod.mk.injEq] at h
      exact h.2 ▸ markUnit_only ..

theorem freeUnit_only (s : State) (d k a : Nat) :
    Only writeParts s (freeUnit s d k a) := by
  unfold freeUnit
  try dsimp only
  repeat'
    first
      | with_reducible exact Only.refl _ _
      | ((with_reducible apply Only.step); (· with_reducible apply markUnit_only); (· decide))
      | with_reducible refine Only.foldl _ (fun _ _ => ?_) ?_
      | with_reducible refine Only.ite (fun _ => ?_) (fun _ => ?_)
      | split
      | refine Only.upd ?_

theorem tableRead_only (s : State) (d va : Nat) :
    Only ([.phys, .retireQueue] ++ touchParts) s (tableRead s d va).1 := by
  unfold tableRead
  try dsimp only
  repeat'
    first
      | with_reducible exact Only.refl _ _
      | ((with_reducible apply Only.step); (· (with_reducible apply Only.fst); (· assumption); (· with_reducible apply dkRead_only)); (· decide))
      | ((with_reducible apply Only.step); (· with_reducible apply dkRead_only); (· decide))
      | with_reducible refine Only.foldl _ (fun _ _ => ?_) ?_
      | with_reducible refine Only.ite (fun _ => ?_) (fun _ => ?_)
      | split
      | refine Only.upd ?_

theorem tableWrite_only (s : State) (d va v : Nat) :
    Only writeParts s (tableWrite s d va v) := by
  unfold tableWrite
  try dsimp only
  repeat'
    first
      | with_reducible exact Only.refl _ _
      | ((with_reducible apply Only.step); (· with_reducible apply ctxPut_only); (· decide))
      | with_reducible refine Only.foldl _ (fun _ _ => ?_) ?_
      | with_reducible refine Only.ite (fun _ => ?_) (fun _ => ?_)
      | split
      | refine Only.upd ?_

theorem mapFolio_only (s : State) (c f : Nat) : Only ([.serving] ++ writeParts) s (mapFolio s c f).1 := by
  unfold mapFolio
  dsimp only
  split
  · next h => exact Only.step (Only.fst h (tableRead_only ..)) (by decide) (Only.refl _ _)
  · next s1 e h =>
    have h1 : Only writeParts s s1 := Only.step (Only.fst h (tableRead_only ..)) (by decide) (Only.refl _ _)
    have hl (p : Nat × State) (hp : (if bit e 0 = true then some (e / 8192 * 8192, s1)
        else match allocUnit s1 (ctxOf s c).deckle 2 with
          | none => none
          | some (a, s2) => some (a, tableWrite (ctxPut s2 (ctxOf s c).deckle a (zeros 8192)) (ctxOf s c).deckle
              ((ctxOf s c).dir + 8 * (f / 1024)) (a + 1))) = some p) : Only writeParts s p.2 := by
      split at hp
      · cases hp; exact h1
      · split at hp
        · cases hp
        · next a s2 h2 =>
          cases hp
          exact Only.step (tableWrite_only ..) (by decide) (Only.step (ctxPut_only ..) (by decide)
            (Only.step (allocUnit_only _ _ _ _ _ h2) (by decide) h1))
    split
    · exact h1.mono (by decide)
    · next leaf s2 h2 =>
      have h2' := hl _ h2
      split
      · next h3 => exact Only.step (Only.fst h3 (tableRead_only ..)) (by decide) (h2'.mono (by decide))
      · next s3 l h3 =>
        have h3' : Only writeParts s s3 := Only.step (Only.fst h3 (tableRead_only ..)) (by decide) h2'
        split
        · exact h3'.mono (by decide)
        · split
          · exact h3'.mono (by decide)
          · next a s4 h4 =>
            exact Only.step (setCtx_only ..) (by decide) (Only.step (tableWrite_only ..) (by decide)
              (Only.step (allocUnit_only _ _ _ _ _ h4) (by decide) (h3'.mono (by decide))))

theorem mapFolios_only (s : State) (c : Nat) (l : List Nat) :
    Only ([.serving] ++ writeParts) s ((mapFolios s c l).1) := by
  induction l generalizing s with
  | nil => exact Only.refl _ _
  | cons f l ih =>
    unfold mapFolios
    try dsimp only
    repeat'
      first
        | with_reducible exact Only.refl _ _
        | ((with_reducible apply Only.step); (· with_reducible apply ih); (· decide))
        | ((with_reducible apply Only.step); (· (with_reducible apply Only.fst); (· assumption); (· with_reducible apply mapFolio_only)); (· decide))
        | ((with_reducible apply Only.step); (· with_reducible apply mapFolio_only); (· decide))
        | with_reducible refine Only.foldl _ (fun _ _ => ?_) ?_
        | with_reducible refine Only.ite (fun _ => ?_) (fun _ => ?_)
        | split
        | refine Only.upd ?_

theorem takeReady_only (s : State) :
    Only [.serving] s (takeReady s).2 := by
  unfold takeReady
  try dsimp only
  repeat'
    first
      | with_reducible exact Only.refl _ _
      | with_reducible refine Only.foldl _ (fun _ _ => ?_) ?_
      | with_reducible refine Only.ite (fun _ => ?_) (fun _ => ?_)
      | split
      | refine Only.upd ?_

theorem renewReady_only (s : State) (c : Nat) :
    Only [.serving] s (renewReady s c) := by
  unfold renewReady
  try dsimp only
  repeat'
    first
      | with_reducible exact Only.refl _ _
      | ((with_reducible apply Only.step); (· (with_reducible apply Only.snd); (· assumption); (· with_reducible apply takeReady_only)); (· decide))
      | ((with_reducible apply Only.step); (· with_reducible apply takeReady_only); (· decide))
      | ((with_reducible apply Only.step); (· with_reducible apply setCtx_only); (· decide))
      | with_reducible refine Only.foldl _ (fun _ _ => ?_) ?_
      | with_reducible refine Only.ite (fun _ => ?_) (fun _ => ?_)
      | split
      | refine Only.upd ?_

theorem ctxIdle_only (s : State) (c : Nat) :
    Only ([.serving] ++ writeParts) s (ctxIdle s c) := by
  unfold ctxIdle
  try dsimp only
  repeat'
    first
      | with_reducible exact Only.refl _ _
      | ((with_reducible apply Only.step); (· with_reducible apply freeUnit_only); (· decide))
      | ((with_reducible apply Only.step); (· with_reducible apply setModel_only); (· decide))
      | ((with_reducible apply Only.step); (· with_reducible apply setCtx_only); (· decide))
      | with_reducible refine Only.foldl _ (fun _ _ => ?_) ?_
      | with_reducible refine Only.ite (fun _ => ?_) (fun _ => ?_)
      | split
      | refine Only.upd ?_

theorem completeAll_only (s : State) (l : List (Nat × Nat)) :
    Only [.regs, .out, .hostMem, .hostRings, .hostFns, .hostQueues] s (completeAll s l) := by
  unfold completeAll
  try dsimp only
  repeat'
    first
      | with_reducible exact Only.refl _ _
      | ((with_reducible apply Only.step); (· with_reducible apply complete_only); (· decide))
      | with_reducible refine Only.foldl _ (fun _ _ => ?_) ?_
      | with_reducible refine Only.ite (fun _ => ?_) (fun _ => ?_)
      | split
      | refine Only.upd ?_

theorem ctxCancel_only (s : State) (c : Nat) :
    Only [.regs, .out, .hostMem, .hostRings, .hostFns, .hostQueues, .serving] s (ctxCancel s c) := by
  unfold ctxCancel
  try dsimp only
  repeat'
    first
      | with_reducible exact Only.refl _ _
      | ((with_reducible apply Only.step); (· with_reducible apply completeAll_only); (· decide))
      | ((with_reducible apply Only.step); (· with_reducible apply setCtx_only); (· decide))
      | with_reducible refine Only.foldl _ (fun _ _ => ?_) ?_
      | with_reducible refine Only.ite (fun _ => ?_) (fun _ => ?_)
      | split
      | refine Only.upd ?_

theorem ctxSettle_only (s : State) (c : Nat) :
    Only ([.serving] ++ writeParts) s (ctxSettle s c) := by
  unfold ctxSettle
  try dsimp only
  repeat'
    first
      | with_reducible exact Only.refl _ _
      | ((with_reducible apply Only.step); (· with_reducible apply completeAll_only); (· decide))
      | ((with_reducible apply Only.step); (· with_reducible apply ctxIdle_only); (· decide))
      | with_reducible refine Only.foldl _ (fun _ _ => ?_) ?_
      | with_reducible refine Only.ite (fun _ => ?_) (fun _ => ?_)
      | split
      | refine Only.upd ?_

theorem ctxRecord_only (s : State) (c kind fault token : Nat) (ends : Bool) :
    Only [.regs, .out, .hostMem, .hostRings, .hostFns, .hostQueues] s (ctxRecord s c kind fault token ends) := by
  unfold ctxRecord
  try dsimp only
  repeat'
    first
      | with_reducible exact Only.refl _ _
      | ((with_reducible apply Only.step); (· with_reducible apply cqUnreserved_only); (· decide))
      | with_reducible refine Only.foldl _ (fun _ _ => ?_) ?_
      | with_reducible refine Only.ite (fun _ => ?_) (fun _ => ?_)
      | split
      | refine Only.upd ?_

theorem commitToken_only (s : State) (c : Nat) :
    Only ([.serving] ++ writeParts) s (commitToken s c) := by
  unfold commitToken
  try dsimp only
  repeat'
    first
      | with_reducible exact Only.refl _ _
      | ((with_reducible apply Only.step); (· with_reducible apply ctxRecord_only); (· decide))
      | ((with_reducible apply Only.step); (· with_reducible apply setCtx_only); (· decide))
      | ((with_reducible apply Only.step); (· (with_reducible apply Only.fst); (· assumption); (· with_reducible apply dkWrite_only)); (· decide))
      | ((with_reducible apply Only.step); (· with_reducible apply dkWrite_only); (· decide))
      | with_reducible refine Only.foldl _ (fun _ _ => ?_) ?_
      | with_reducible refine Only.ite (fun _ => ?_) (fun _ => ?_)
      | split
      | refine Only.upd ?_

theorem closeEntry_only (commit : Bool) (stepno : Nat) (s : State) (e : StepEntry) :
    Only ([.serving] ++ writeParts) s (closeEntry commit stepno s e) := by
  unfold closeEntry
  try dsimp only
  repeat'
    first
      | with_reducible exact Only.refl _ _
      | ((with_reducible apply Only.step); (· with_reducible apply commitToken_only); (· decide))
      | ((with_reducible apply Only.step); (· with_reducible apply ctxSettle_only); (· decide))
      | ((with_reducible apply Only.step); (· with_reducible apply ctxCancel_only); (· decide))
      | ((with_reducible apply Only.step); (· with_reducible apply renewReady_only); (· decide))
      | ((with_reducible apply Only.step); (· with_reducible apply setCtx_only); (· decide))
      | ((with_reducible apply Only.step); (· with_reducible apply fset_only); (· decide))
      | with_reducible refine Only.foldl _ (fun _ _ => ?_) ?_
      | with_reducible refine Only.ite (fun _ => ?_) (fun _ => ?_)
      | split
      | refine Only.upd ?_

theorem closeStep_only (s : State) (q st : Nat) (commit : Bool) :
    Only ([.quires, .serving] ++ writeParts) s (closeStep s q st commit) := by
  unfold closeStep
  try dsimp only
  repeat'
    first
      | with_reducible exact Only.refl _ _
      | ((with_reducible apply Only.step); (· with_reducible apply closeEntry_only); (· decide))
      | ((with_reducible apply Only.step); (· with_reducible apply ctxCancel_only); (· decide))
      | ((with_reducible apply Only.step); (· with_reducible apply setStream_only); (· decide))
      | ((with_reducible apply Only.step); (· with_reducible apply fset_only); (· decide))
      | with_reducible refine Only.foldl _ (fun _ _ => ?_) ?_
      | with_reducible refine Only.ite (fun _ => ?_) (fun _ => ?_)
      | split
      | refine Only.upd ?_


/-! ### Random numbers -/

theorem setDrbg_only (s : State) (g : Nat) (x : Drbg) :
    Only [.rng] s (setDrbg s g x) := by
  unfold setDrbg
  try dsimp only
  repeat'
    first
      | with_reducible exact Only.refl _ _
      | with_reducible refine Only.foldl _ (fun _ _ => ?_) ?_
      | with_reducible refine Only.ite (fun _ => ?_) (fun _ => ?_)
      | split
      | refine Only.upd ?_

theorem askBlock_only (s : State) (g : Nat) (r : RngReq) :
    Only [.rng] s (askBlock s g r) := by
  unfold askBlock
  try dsimp only
  repeat'
    first
      | with_reducible exact Only.refl _ _
      | ((with_reducible apply Only.step); (· with_reducible apply setDrbg_only); (· decide))
      | with_reducible refine Only.foldl _ (fun _ _ => ?_) ?_
      | with_reducible refine Only.ite (fun _ => ?_) (fun _ => ?_)
      | split
      | refine Only.upd ?_

theorem setSource_only (s : State) (i : Nat) (x : Source) :
    Only [.rng] s (setSource s i x) := by
  unfold setSource
  try dsimp only
  repeat'
    first
      | with_reducible exact Only.refl _ _
      | with_reducible refine Only.foldl _ (fun _ _ => ?_) ?_
      | with_reducible refine Only.ite (fun _ => ?_) (fun _ => ?_)
      | split
      | refine Only.upd ?_

theorem setGroup_only (s : State) (g : Nat) (x : Group) :
    Only [.rng] s (setGroup s g x) := by
  unfold setGroup
  try dsimp only
  repeat'
    first
      | with_reducible exact Only.refl _ _
      | with_reducible refine Only.foldl _ (fun _ _ => ?_) ?_
      | with_reducible refine Only.ite (fun _ => ?_) (fun _ => ?_)
      | split
      | refine Only.upd ?_

theorem combine_only (g k : Nat) (s : State) :
    Only [.rng] s (combine g k s) := by
  induction k generalizing s with
  | zero => exact Only.refl _ _
  | succ k ih =>
    unfold combine
    try dsimp only
    repeat'
      first
        | with_reducible exact Only.refl _ _
        | ((with_reducible apply Only.step); (· with_reducible apply ih); (· decide))
        | ((with_reducible apply Only.step); (· with_reducible apply setGroup_only); (· decide))
        | ((with_reducible apply Only.step); (· with_reducible apply setSource_only); (· decide))
        | ((with_reducible apply Only.step); (· with_reducible apply setDrbg_only); (· decide))
        | with_reducible refine Only.foldl _ (fun _ _ => ?_) ?_
        | with_reducible refine Only.ite (fun _ => ?_) (fun _ => ?_)
        | split
        | refine Only.upd ?_

theorem vouch_only (s : State) (i : Nat) (b : List Byte) :
    Only [.rng] s (vouch s i b) := by
  unfold vouch
  try dsimp only
  repeat'
    first
      | with_reducible exact Only.refl _ _
      | ((with_reducible apply Only.step); (· with_reducible apply combine_only); (· decide))
      | ((with_reducible apply Only.step); (· with_reducible apply setSource_only); (· decide))
      | with_reducible refine Only.foldl _ (fun _ _ => ?_) ?_
      | with_reducible refine Only.ite (fun _ => ?_) (fun _ => ?_)
      | split
      | refine Only.upd ?_

theorem regroupOne_only (s : State) (g : Nat) :
    Only ([.rng] ++ eventParts) s (regroupOne s g) := by
  unfold regroupOne
  try dsimp only
  repeat'
    first
      | with_reducible exact Only.refl _ _
      | ((with_reducible apply Only.step); (· with_reducible apply setGroup_only); (· decide))
      | ((with_reducible apply Only.step); (· with_reducible apply raise_only); (· decide))
      | with_reducible refine Only.foldl _ (fun _ _ => ?_) ?_
      | with_reducible refine Only.ite (fun _ => ?_) (fun _ => ?_)
      | split
      | refine Only.upd ?_

theorem reborrow_only (s : State) :
    Only ([.rng] ++ eventParts) s (reborrow s) := by
  unfold reborrow
  try dsimp only
  repeat'
    first
      | with_reducible exact Only.refl _ _
      | ((with_reducible apply Only.step); (· with_reducible apply setGroup_only); (· decide))
      | ((with_reducible apply Only.step); (· with_reducible apply raise_only); (· decide))
      | with_reducible refine Only.foldl _ (fun _ _ => ?_) ?_
      | with_reducible refine Only.ite (fun _ => ?_) (fun _ => ?_)
      | split
      | refine Only.upd ?_

theorem regroup_only (s : State) :
    Only ([.rng] ++ eventParts) s (regroup s) := by
  unfold regroup
  try dsimp only
  repeat'
    first
      | with_reducible exact Only.refl _ _
      | ((with_reducible apply Only.step); (· with_reducible apply reborrow_only); (· decide))
      | ((with_reducible apply Only.step); (· with_reducible apply regroupOne_only); (· decide))
      | ((with_reducible apply Only.step); (· with_reducible apply combine_only); (· decide))
      | with_reducible refine Only.foldl _ (fun _ _ => ?_) ?_
      | with_reducible refine Only.ite (fun _ => ?_) (fun _ => ?_)
      | split
      | refine Only.upd ?_

theorem sampleGap_only (s : State) (i : Nat) :
    Only [.regs, .rng] s (sampleGap s i) := by
  unfold sampleGap
  try dsimp only
  repeat'
    first
      | with_reducible exact Only.refl _ _
      | ((with_reducible apply Only.step); (· with_reducible apply setSource_only); (· decide))
      | ((with_reducible apply Only.step); (· with_reducible apply fadd_only); (· decide))
      | with_reducible refine Only.foldl _ (fun _ _ => ?_) ?_
      | with_reducible refine Only.ite (fun _ => ?_) (fun _ => ?_)
      | split
      | refine Only.upd ?_

theorem testFails_only (s : State) (i : Nat) (tests : List Nat) :
    Only ([.rng] ++ eventParts) s (testFails s i tests) := by
  unfold testFails
  try dsimp only
  repeat'
    first
      | with_reducible exact Only.refl _ _
      | ((with_reducible apply Only.step); (· with_reducible apply regroup_only); (· decide))
      | ((with_reducible apply Only.step); (· with_reducible apply setSource_only); (· decide))
      | ((with_reducible apply Only.step); (· with_reducible apply raise_only); (· decide))
      | ((with_reducible apply Only.step); (· with_reducible apply logRecord_only); (· decide))
      | ((with_reducible apply Only.step); (· with_reducible apply fadd_only); (· decide))
      | ((with_reducible apply Only.step); (· with_reducible apply fset_only); (· decide))
      | with_reducible refine Only.foldl _ (fun _ _ => ?_) ?_
      | with_reducible refine Only.ite (fun _ => ?_) (fun _ => ?_)
      | split
      | refine Only.upd ?_

theorem sampleUsed_only (s : State) (i : Nat) (x : Source) (v : Nat) :
    Only ([.rng] ++ eventParts) s (sampleUsed s i x v) := by
  unfold sampleUsed
  try dsimp only
  repeat'
    first
      | with_reducible exact Only.refl _ _
      | ((with_reducible apply Only.step); (· with_reducible apply regroup_only); (· decide))
      | ((with_reducible apply Only.step); (· with_reducible apply vouch_only); (· decide))
      | ((with_reducible apply Only.step); (· with_reducible apply setSource_only); (· decide))
      | with_reducible refine Only.foldl _ (fun _ _ => ?_) ?_
      | with_reducible refine Only.ite (fun _ => ?_) (fun _ => ?_)
      | split
      | refine Only.upd ?_

theorem takeSample_only (i v0 : Nat) (s : State) :
    Only ([.rng] ++ eventParts) s (takeSample i v0 s) := by
  unfold takeSample
  try dsimp only
  repeat'
    first
      | with_reducible exact Only.refl _ _
      | ((with_reducible apply Only.step); (· with_reducible apply sampleUsed_only); (· decide))
      | ((with_reducible apply Only.step); (· with_reducible apply testFails_only); (· decide))
      | with_reducible refine Only.foldl _ (fun _ _ => ?_) ?_
      | with_reducible refine Only.ite (fun _ => ?_) (fun _ => ?_)
      | split
      | refine Only.upd ?_

theorem enterFailed_only (s : State) :
    Only ([.rng] ++ eventParts) s (enterFailed s) := by
  unfold enterFailed
  try dsimp only
  repeat'
    first
      | with_reducible exact Only.refl _ _
      | ((with_reducible apply Only.step); (· with_reducible apply raise_only); (· decide))
      | ((with_reducible apply Only.step); (· with_reducible apply fset_only); (· decide))
      | with_reducible refine Only.foldl _ (fun _ _ => ?_) ?_
      | with_reducible refine Only.ite (fun _ => ?_) (fun _ => ?_)
      | split
      | refine Only.upd ?_


/-! ### Quires and streams -/

theorem spareLine_only (s0 : State) (p bank code : Nat) :
    Only ([.phys, .retireQueue, .dramCells] ++ eventParts) s0 (spareLine s0 p bank code) := by
  unfold spareLine
  try dsimp only
  repeat'
    first
      | with_reducible exact Only.refl _ _
      | ((with_reducible apply Only.step); (· with_reducible apply handlerUse_only); (· decide))
      | ((with_reducible apply Only.step); (· with_reducible apply qreError_only); (· decide))
      | ((with_reducible apply Only.step); (· with_reducible apply bucketFull_only); (· decide))
      | ((with_reducible apply Only.step); (· with_reducible apply setPhys_only); (· decide))
      | ((with_reducible apply Only.step); (· with_reducible apply fadd_only); (· decide))
      | ((with_reducible apply Only.step); (· with_reducible apply fset_only); (· decide))
      | with_reducible refine Only.foldl _ (fun _ _ => ?_) ?_
      | with_reducible refine Only.ite (fun _ => ?_) (fun _ => ?_)
      | split
      | refine Only.upd ?_

theorem addUpsets_only (s : State) (q : Nat) (us : List StoreUpset) (ps : List PathUpset) :
    Only [.quires] s (addUpsets s q us ps) := by
  unfold addUpsets
  try dsimp only
  repeat'
    first
      | with_reducible exact Only.refl _ _
      | ((with_reducible apply Only.step); (· with_reducible apply setQuire_only); (· decide))
      | with_reducible refine Only.foldl _ (fun _ _ => ?_) ?_
      | with_reducible refine Only.ite (fun _ => ?_) (fun _ => ?_)
      | split
      | refine Only.upd ?_

theorem dropStrikes_only (s : State) (q : Nat) (p : UPath) :
    Only [.quires] s (dropStrikes s q p) := by
  unfold dropStrikes
  try dsimp only
  repeat'
    first
      | with_reducible exact Only.refl _ _
      | ((with_reducible apply Only.step); (· with_reducible apply setQuire_only); (· decide))
      | with_reducible refine Only.foldl _ (fun _ _ => ?_) ?_
      | with_reducible refine Only.ite (fun _ => ?_) (fun _ => ?_)
      | split
      | refine Only.upd ?_

theorem spareWord_only (s : State) (q p word code : Nat) :
    Only ([.quires, .phys, .retireQueue, .dramCells] ++ eventParts) s (spareWord s q p word code) := by
  unfold spareWord
  try dsimp only
  repeat'
    first
      | with_reducible exact Only.refl _ _
      | ((with_reducible apply Only.step); (· with_reducible apply spareLine_only); (· decide))
      | ((with_reducible apply Only.step); (· with_reducible apply setQuire_only); (· decide))
      | with_reducible refine Only.foldl _ (fun _ _ => ?_) ?_
      | with_reducible refine Only.ite (fun _ => ?_) (fun _ => ?_)
      | split
      | refine Only.upd ?_

theorem spadDecode_only (s : State) (q : Nat) (word : Nat) :
    Only ([.quires, .phys, .retireQueue, .dramCells] ++ eventParts) s (spadDecode s q word) := by
  unfold spadDecode
  try dsimp only
  repeat'
    first
      | with_reducible exact Only.refl _ _
      | ((with_reducible apply Only.step); (· with_reducible apply spareWord_only); (· decide))
      | ((with_reducible apply Only.step); (· with_reducible apply qreError_only); (· decide))
      | ((with_reducible apply Only.step); (· with_reducible apply setQuire_only); (· decide))
      | with_reducible refine Only.foldl _ (fun _ _ => ?_) ?_
      | with_reducible refine Only.ite (fun _ => ?_) (fun _ => ?_)
      | split
      | refine Only.upd ?_

theorem spadTouch_only (s : State) (q a n : Nat) :
    Only ([.quires, .phys, .retireQueue, .dramCells] ++ eventParts) s (spadTouch s q a n) := by
  unfold spadTouch
  try dsimp only
  repeat'
    first
      | with_reducible exact Only.refl _ _
      | ((with_reducible apply Only.step); (· with_reducible apply spadDecode_only); (· decide))
      | with_reducible refine Only.foldl _ (fun _ _ => ?_) ?_
      | with_reducible refine Only.ite (fun _ => ?_) (fun _ => ?_)
      | split
      | refine Only.upd ?_

theorem spadRead_only (s : State) (q a n : Nat) :
    Only ([.quires, .phys, .retireQueue, .dramCells] ++ eventParts) s (spadRead s q a n).1 := by
  unfold spadRead
  try dsimp only
  repeat'
    first
      | with_reducible exact Only.refl _ _
      | ((with_reducible apply Only.step); (· with_reducible apply spadTouch_only); (· decide))
      | with_reducible refine Only.foldl _ (fun _ _ => ?_) ?_
      | with_reducible refine Only.ite (fun _ => ?_) (fun _ => ?_)
      | split
      | refine Only.upd ?_

theorem spadWrite_only (s : State) (q a : Nat) (bs : List Byte) :
    Only ([.quires, .phys, .retireQueue, .dramCells] ++ eventParts) s (spadWrite s q a bs) := by
  unfold spadWrite
  try dsimp only
  repeat'
    first
      | with_reducible exact Only.refl _ _
      | ((with_reducible apply Only.step); (· with_reducible apply spadTouch_only); (· decide))
      | ((with_reducible apply Only.step); (· with_reducible apply setQuire_only); (· decide))
      | with_reducible refine Only.foldl _ (fun _ _ => ?_) ?_
      | with_reducible refine Only.ite (fun _ => ?_) (fun _ => ?_)
      | split
      | refine Only.upd ?_

theorem wrS_only (s : State) (q st i v : Nat) :
    Only [.quires] s (wrS s q st i v) := by
  unfold wrS
  try dsimp only
  repeat'
    first
      | with_reducible exact Only.refl _ _
      | ((with_reducible apply Only.step); (· with_reducible apply setStream_only); (· decide))
      | with_reducible refine Only.foldl _ (fun _ _ => ?_) ?_
      | with_reducible refine Only.ite (fun _ => ?_) (fun _ => ?_)
      | split
      | refine Only.upd ?_

theorem wrV_only (s : State) (q st i : Nat) (v : VReg) :
    Only [.quires] s (wrV s q st i v) := by
  unfold wrV
  try dsimp only
  repeat'
    first
      | with_reducible exact Only.refl _ _
      | ((with_reducible apply Only.step); (· with_reducible apply setStream_only); (· decide))
      | with_reducible refine Only.foldl _ (fun _ _ => ?_) ?_
      | with_reducible refine Only.ite (fun _ => ?_) (fun _ => ?_)
      | split
      | refine Only.upd ?_

theorem wrP_only (s : State) (q st i : Nat) (v : Pred) :
    Only [.quires] s (wrP s q st i v) := by
  unfold wrP
  try dsimp only
  repeat'
    first
      | with_reducible exact Only.refl _ _
      | ((with_reducible apply Only.step); (· with_reducible apply setStream_only); (· decide))
      | with_reducible refine Only.foldl _ (fun _ _ => ?_) ?_
      | with_reducible refine Only.ite (fun _ => ?_) (fun _ => ?_)
      | split
      | refine Only.upd ?_

theorem freshPred_only (s : State) (q st i : Nat) (whole : Nat → Bool) :
    Only [.quires] s (freshPred s q st i whole) := by
  unfold freshPred
  try dsimp only
  repeat'
    first
      | with_reducible exact Only.refl _ _
      | ((with_reducible apply Only.step); (· with_reducible apply setQuire_only); (· decide))
      | with_reducible refine Only.foldl _ (fun _ _ => ?_) ?_
      | with_reducible refine Only.ite (fun _ => ?_) (fun _ => ?_)
      | split
      | refine Only.upd ?_

theorem btrLog_only (s : State) (p rep ecc pipe st vreg elem pred act : Nat) :
    Only [.regs] s (btrLog s p rep ecc pipe st vreg elem pred act) := by
  unfold btrLog
  try dsimp only
  repeat'
    first
      | with_reducible exact Only.refl _ _
      | ((with_reducible apply Only.step); (· with_reducible apply logRecord_only); (· decide))
      | with_reducible refine Only.foldl _ (fun _ _ => ?_) ?_
      | with_reducible refine Only.ite (fun _ => ?_) (fun _ => ?_)
      | split
      | refine Only.upd ?_

theorem readWords_only (q st pipe : Nat) (store : Store) (name reg per : Nat) (a : State × List (Nat × Nat)) :
    Only ([.quires, .phys, .retireQueue] ++ eventParts) a.1 (readWords q st pipe store name reg per a).1 := by
  unfold readWords
  dsimp only
  generalize hp : pOf a.1 q = p
  clear hp
  refine List.foldlRecOn (motive := fun c : State × List (Nat × Nat) => Only ([.quires, .phys, .retireQueue] ++ eventParts) a.1 c.1) _ _ (Only.refl _ _) ?_
  intro c hc w _
  try dsimp only
  split
  · exact hc
  · split
    · dsimp only
      exact Only.step (qreError_only ..) (by decide) (Only.step (btrLog_only ..) (by decide)
        (Only.step (fadd_only ..) (by decide) (Only.step (setQuire_only ..) (by decide) hc)))
    · dsimp only
      exact Only.step (qreError_only ..) (by decide) (Only.step (btrLog_only ..) (by decide) hc)

theorem readRegs_only (s : State) (q : Nat) (f : Flight) (pipe width : Nat) : Only ([.quires, .phys, .retireQueue] ++ eventParts) s (readRegs s q f pipe width).1 := by
  unfold readRegs
  split
  · exact Only.refl _ _
  · dsimp only
    have h : Only ([.quires, .phys, .retireQueue] ++ eventParts) s (f.vRd.foldl (fun a r => readWords q f.stream pipe (.vreg f.stream r) r r (64 / width) a) (s, [])).1 :=
      List.foldlRecOn (motive := fun c : State × List (Nat × Nat) => Only ([.quires, .phys, .retireQueue] ++ eventParts) s c.1) _ _ (Only.refl _ _)
        (fun c hc r _ => Only.step (readWords_only ..) (by decide) hc)
    exact List.foldlRecOn (motive := fun c : State × List (Nat × Nat) => Only ([.quires, .phys, .retireQueue] ++ eventParts) s c.1) _ _ h (fun c hc r _ => Only.step (readWords_only ..) (by decide) hc)

theorem dropFlight_only (s : State) (q st seq : Nat) :
    Only [.quires] s (dropFlight s q st seq) := by
  unfold dropFlight
  try dsimp only
  repeat'
    first
      | with_reducible exact Only.refl _ _
      | ((with_reducible apply Only.step); (· with_reducible apply setQuire_only); (· decide))
      | with_reducible refine Only.foldl _ (fun _ _ => ?_) ?_
      | with_reducible refine Only.ite (fun _ => ?_) (fun _ => ?_)
      | split
      | refine Only.upd ?_

theorem putFlight_only (s : State) (q : Nat) (f : Flight) :
    Only [.quires] s (putFlight s q f) := by
  unfold putFlight
  try dsimp only
  repeat'
    first
      | with_reducible exact Only.refl _ _
      | ((with_reducible apply Only.step); (· with_reducible apply setQuire_only); (· decide))
      | with_reducible refine Only.foldl _ (fun _ _ => ?_) ?_
      | with_reducible refine Only.ite (fun _ => ?_) (fun _ => ?_)
      | split
      | refine Only.upd ?_

theorem withdrawDraws_only (s : State) (q st : Nat) :
    Only [.rng] s (withdrawDraws s q st) := by
  unfold withdrawDraws
  try dsimp only
  repeat'
    first
      | with_reducible exact Only.refl _ _
      | with_reducible refine Only.foldl _ (fun _ _ => ?_) ?_
      | with_reducible refine Only.ite (fun _ => ?_) (fun _ => ?_)
      | split
      | refine Only.upd ?_

theorem withdrawSend_only (s : State) (q : Nat) (f : Flight) :
    Only [.quires, .mesh] s (withdrawSend s q f) := by
  unfold withdrawSend
  try dsimp only
  repeat'
    first
      | with_reducible exact Only.refl _ _
      | ((with_reducible apply Only.step); (· with_reducible apply dropFlight_only); (· decide))
      | ((with_reducible apply Only.step); (· with_reducible apply setQuire_only); (· decide))
      | with_reducible refine Only.foldl _ (fun _ _ => ?_) ?_
      | with_reducible refine Only.ite (fun _ => ?_) (fun _ => ?_)
      | split
      | refine Only.upd ?_

theorem dropWait_only (s : State) (q st seq : Nat) :
    Only [.waits] s (dropWait s q st seq) := by
  unfold dropWait
  try dsimp only
  repeat'
    first
      | with_reducible exact Only.refl _ _
      | with_reducible refine Only.foldl _ (fun _ _ => ?_) ?_
      | with_reducible refine Only.ite (fun _ => ?_) (fun _ => ?_)
      | split
      | refine Only.upd ?_

theorem freeSession_only (s : State) (n : Nat) :
    Only [.deckles, .sessions] s (freeSession s n) := by
  unfold freeSession
  try dsimp only
  repeat'
    first
      | with_reducible exact Only.refl _ _
      | ((with_reducible apply Only.step); (· with_reducible apply delProt_only); (· decide))
      | with_reducible refine Only.foldl _ (fun _ _ => ?_) ?_
      | with_reducible refine Only.ite (fun _ => ?_) (fun _ => ?_)
      | split
      | refine Only.upd ?_

theorem endDraw_only (s : State) (f : Flight) :
    Only [.deckles, .serving, .sessions] s (endDraw s f) := by
  unfold endDraw
  try dsimp only
  repeat'
    first
      | with_reducible exact Only.refl _ _
      | ((with_reducible apply Only.step); (· with_reducible apply freeSession_only); (· decide))
      | ((with_reducible apply Only.step); (· with_reducible apply setCtx_only); (· decide))
      | ((with_reducible apply Only.step); (· with_reducible apply delProt_only); (· decide))
      | with_reducible refine Only.foldl _ (fun _ _ => ?_) ?_
      | with_reducible refine Only.ite (fun _ => ?_) (fun _ => ?_)
      | split
      | refine Only.upd ?_

theorem endWait_only (q : Nat) (s : State) (f : Flight) :
    Only [.quires, .mesh, .waits, .deckles, .serving, .sessions] s (endWait q s f) := by
  unfold endWait
  try dsimp only
  repeat'
    first
      | with_reducible exact Only.refl _ _
      | ((with_reducible apply Only.step); (· with_reducible apply endDraw_only); (· decide))
      | ((with_reducible apply Only.step); (· with_reducible apply dropWait_only); (· decide))
      | ((with_reducible apply Only.step); (· with_reducible apply withdrawSend_only); (· decide))
      | ((with_reducible apply Only.step); (· with_reducible apply dropFlight_only); (· decide))
      | ((with_reducible apply Only.step); (· with_reducible apply wrS_only); (· decide))
      | ((with_reducible apply Only.step); (· with_reducible apply setQuire_only); (· decide))
      | with_reducible refine Only.foldl _ (fun _ _ => ?_) ?_
      | with_reducible refine Only.ite (fun _ => ?_) (fun _ => ?_)
      | split
      | refine Only.upd ?_

theorem endWaits_only (s : State) (q st : Nat) :
    Only [.quires, .mesh, .waits, .deckles, .serving, .sessions, .rng] s (endWaits s q st) := by
  unfold endWaits
  try dsimp only
  repeat'
    first
      | with_reducible exact Only.refl _ _
      | ((with_reducible apply Only.step); (· with_reducible apply endWait_only); (· decide))
      | ((with_reducible apply Only.step); (· with_reducible apply withdrawDraws_only); (· decide))
      | with_reducible refine Only.foldl _ (fun _ _ => ?_) ?_
      | with_reducible refine Only.ite (fun _ => ?_) (fun _ => ?_)
      | split
      | refine Only.upd ?_

theorem streamFault_only (s : State) (q st : Nat) (r : FaultRec) :
    Only ([.quires, .mesh, .serving, .rng] ++ writeParts) s (streamFault s q st r) := by
  unfold streamFault
  try dsimp only
  repeat'
    first
      | with_reducible exact Only.refl _ _
      | ((with_reducible apply Only.step); (· with_reducible apply endWaits_only); (· decide))
      | ((with_reducible apply Only.step); (· with_reducible apply closeStep_only); (· decide))
      | ((with_reducible apply Only.step); (· with_reducible apply setStream_only); (· decide))
      | with_reducible refine Only.foldl _ (fun _ _ => ?_) ?_
      | with_reducible refine Only.ite (fun _ => ?_) (fun _ => ?_)
      | split
      | refine Only.upd ?_

theorem exFault_only (s : State) (q : Nat) (f : Flight) (code : Nat) :
    Only ([.quires, .mesh, .serving, .rng] ++ writeParts) s (exFault s q f code) := by
  unfold exFault
  try dsimp only
  repeat'
    first
      | with_reducible exact Only.refl _ _
      | ((with_reducible apply Only.step); (· with_reducible apply streamFault_only); (· decide))
      | ((with_reducible apply Only.step); (· with_reducible apply dropFlight_only); (· decide))
      | with_reducible refine Only.foldl _ (fun _ _ => ?_) ?_
      | with_reducible refine Only.ite (fun _ => ?_) (fun _ => ?_)
      | split
      | refine Only.upd ?_

theorem memFault_only (s : State) (q : Nat) (f : Flight) (code : Nat) (dpa : Option Nat) :
    Only ([.quires, .mesh, .serving, .rng] ++ writeParts) s (memFault s q f code dpa) := by
  unfold memFault
  try dsimp only
  repeat'
    first
      | with_reducible exact Only.refl _ _
      | ((with_reducible apply Only.step); (· with_reducible apply exFault_only); (· decide))
      | ((with_reducible apply Only.step); (· with_reducible apply qrePoison_only); (· decide))
      | with_reducible refine Only.foldl _ (fun _ _ => ?_) ?_
      | with_reducible refine Only.ite (fun _ => ?_) (fun _ => ?_)
      | split
      | refine Only.upd ?_

theorem beginLeave_only (s : State) (q st : Nat) :
    Only [.quires] s (beginLeave s q st) := by
  unfold beginLeave
  try dsimp only
  repeat'
    first
      | with_reducible exact Only.refl _ _
      | ((with_reducible apply Only.step); (· with_reducible apply setQuire_only); (· decide))
      | with_reducible refine Only.foldl _ (fun _ _ => ?_) ?_
      | with_reducible refine Only.ite (fun _ => ?_) (fun _ => ?_)
      | split
      | refine Only.upd ?_

theorem finishLeave_only (s : State) (q st : Nat) :
    Only [.quires] s (finishLeave s q st) := by
  unfold finishLeave
  try dsimp only
  repeat'
    first
      | with_reducible exact Only.refl _ _
      | ((with_reducible apply Only.step); (· with_reducible apply setQuire_only); (· decide))
      | with_reducible refine Only.foldl _ (fun _ _ => ?_) ?_
      | with_reducible refine Only.ite (fun _ => ?_) (fun _ => ?_)
      | split
      | refine Only.upd ?_

theorem settleStream_only (s : State) (q st : Nat) :
    Only ([.quires, .serving] ++ writeParts) s (settleStream s q st) := by
  unfold settleStream
  try dsimp only
  repeat'
    first
      | with_reducible exact Only.refl _ _
      | ((with_reducible apply Only.step); (· with_reducible apply finishLeave_only); (· decide))
      | ((with_reducible apply Only.step); (· with_reducible apply beginLeave_only); (· decide))
      | ((with_reducible apply Only.step); (· with_reducible apply closeStep_only); (· decide))
      | ((with_reducible apply Only.step); (· with_reducible apply complete_only); (· decide))
      | ((with_reducible apply Only.step); (· with_reducible apply setStream_only); (· decide))
      | with_reducible refine Only.foldl _ (fun _ _ => ?_) ?_
      | with_reducible refine Only.ite (fun _ => ?_) (fun _ => ?_)
      | split
      | refine Only.upd ?_

theorem settleQuire_only (s : State) (q : Nat) :
    Only ([.quires, .serving] ++ writeParts) s (settleQuire s q) := by
  unfold settleQuire
  try dsimp only
  repeat'
    first
      | with_reducible exact Only.refl _ _
      | ((with_reducible apply Only.step); (· with_reducible apply settleStream_only); (· decide))
      | with_reducible refine Only.foldl _ (fun _ _ => ?_) ?_
      | with_reducible refine Only.ite (fun _ => ?_) (fun _ => ?_)
      | split
      | refine Only.upd ?_


/-! ### Fetch and issue -/

theorem issueFault_only (s : State) (q st maj sub code : Nat) :
    Only ([.quires, .mesh, .serving, .rng] ++ writeParts) s (issueFault s q st maj sub code) := by
  unfold issueFault
  try dsimp only
  repeat'
    first
      | with_reducible exact Only.refl _ _
      | ((with_reducible apply Only.step); (· with_reducible apply settleQuire_only); (· decide))
      | ((with_reducible apply Only.step); (· with_reducible apply streamFault_only); (· decide))
      | ((with_reducible apply Only.step); (· with_reducible apply setStream_only); (· decide))
      | with_reducible refine Only.foldl _ (fun _ _ => ?_) ?_
      | with_reducible refine Only.ite (fun _ => ?_) (fun _ => ?_)
      | split
      | refine Only.upd ?_

theorem consumeLines_only (s : State) (q : Nat) (mem : List (Nat × Nat)) :
    Only [.quires] s (consumeLines s q mem) := by
  unfold consumeLines
  try dsimp only
  repeat'
    first
      | with_reducible exact Only.refl _ _
      | ((with_reducible apply Only.step); (· with_reducible apply setQuire_only); (· decide))
      | with_reducible refine Only.foldl _ (fun _ _ => ?_) ?_
      | with_reducible refine Only.ite (fun _ => ?_) (fun _ => ?_)
      | split
      | refine Only.upd ?_

theorem codeWord_only (s : State) (q : Nat) (g : Program) (pc : Nat) :
    Only ([.quires, .phys, .retireQueue] ++ touchParts) s (codeWord s q g pc).1 := by
  unfold codeWord
  try dsimp only
  repeat'
    first
      | with_reducible exact Only.refl _ _
      | ((with_reducible apply Only.step); (· (with_reducible apply Only.fst); (· assumption); (· with_reducible apply fetch_only)); (· decide))
      | ((with_reducible apply Only.step); (· with_reducible apply fetch_only); (· decide))
      | ((with_reducible apply Only.step); (· with_reducible apply consumeLines_only); (· decide))
      | ((with_reducible apply Only.step); (· (with_reducible apply Only.fst); (· assumption); (· with_reducible apply dkRead_only)); (· decide))
      | ((with_reducible apply Only.step); (· with_reducible apply dkRead_only); (· decide))
      | ((with_reducible apply Only.step); (· with_reducible apply qrePoison_only); (· decide))
      | with_reducible refine Only.foldl _ (fun _ _ => ?_) ?_
      | with_reducible refine Only.ite (fun _ => ?_) (fun _ => ?_)
      | split
      | refine Only.upd ?_

theorem fetch_only (s : State) (q st : Nat) :
    Only ([.quires, .phys, .retireQueue] ++ touchParts) s (fetch s q st).1 := by
  unfold fetch
  try dsimp only
  repeat'
    first
      | with_reducible exact Only.refl _ _
      | ((with_reducible apply Only.step); (· (with_reducible apply Only.fst); (· assumption); (· with_reducible apply codeWord_only)); (· decide))
      | ((with_reducible apply Only.step); (· with_reducible apply codeWord_only); (· decide))
      | with_reducible refine Only.foldl _ (fun _ _ => ?_) ?_
      | with_reducible refine Only.ite (fun _ => ?_) (fun _ => ?_)
      | split
      | refine Only.upd ?_

theorem advance_only (s0 : State) (q st : Nat) (w : IWord) :
    Only [.regs, .quires] s0 (advance s0 q st w) := by
  unfold advance
  try dsimp only
  repeat'
    first
      | with_reducible exact Only.refl _ _
      | ((with_reducible apply Only.step); (· with_reducible apply setStream_only); (· decide))
      | ((with_reducible apply Only.step); (· with_reducible apply fadd_only); (· decide))
      | with_reducible refine Only.foldl _ (fun _ _ => ?_) ?_
      | with_reducible refine Only.ite (fun _ => ?_) (fun _ => ?_)
      | split
      | refine Only.upd ?_

theorem guardRead_only (s : State) (q : Nat) (f : Flight) (guard : Nat) :
    Only ([.quires, .phys, .retireQueue] ++ eventParts) s (guardRead s q f guard).1 := by
  unfold guardRead
  try dsimp only
  repeat'
    first
      | with_reducible exact Only.refl _ _
      | ((with_reducible apply Only.step); (· (with_reducible apply Only.fst); (· assumption); (· with_reducible apply readRegs_only)); (· decide))
      | ((with_reducible apply Only.step); (· with_reducible apply readRegs_only); (· decide))
      | with_reducible refine Only.foldl _ (fun _ _ => ?_) ?_
      | with_reducible refine Only.ite (fun _ => ?_) (fun _ => ?_)
      | split
      | refine Only.upd ?_

theorem guardPassed_only (s : State) (q st : Nat) (w : IWord) (o : Op) :
    Only ([.quires, .phys, .retireQueue] ++ eventParts) s (guardPassed s q st w o).1 := by
  unfold guardPassed
  try dsimp only
  repeat'
    first
      | with_reducible exact Only.refl _ _
      | ((with_reducible apply Only.step); (· (with_reducible apply Only.fst); (· assumption); (· with_reducible apply guardRead_only)); (· decide))
      | ((with_reducible apply Only.step); (· with_reducible apply guardRead_only); (· decide))
      | with_reducible refine Only.foldl _ (fun _ _ => ?_) ?_
      | with_reducible refine Only.ite (fun _ => ?_) (fun _ => ?_)
      | split
      | refine Only.upd ?_

theorem stall_only (s : State) (q : Nat) :
    Only [.regs, .freeCount] s (stall s q) := by
  unfold stall
  try dsimp only
  repeat'
    first
      | with_reducible exact Only.refl _ _
      | ((with_reducible apply Only.step); (· (with_reducible apply Only.snd); (· assumption); (· with_reducible apply takeFree_only)); (· decide))
      | ((with_reducible apply Only.step); (· with_reducible apply takeFree_only); (· decide))
      | ((with_reducible apply Only.step); (· with_reducible apply fadd_only); (· decide))
      | with_reducible refine Only.foldl _ (fun _ _ => ?_) ?_
      | with_reducible refine Only.ite (fun _ => ?_) (fun _ => ?_)
      | split
      | refine Only.upd ?_

/-- What an issue changes beside what the instruction's own start changes. -/
abbrev issueParts : List Piece := ([.quires, .mesh, .serving, .rng] ++ writeParts)

/-- An issued instruction changes what a fault, a fetch or a settled stream can change, and what its start changes. -/
theorem issue_only {l : List Piece} (s : State) (q st : Nat) (w : IWord) (o : Op) (plan : State → Flight → Issue)
    (start : State → Flight → State) (hl : issueParts.all (fun p => l.contains p) = true) (hs : ∀ t f, Only l t (start t f)) :
    Only l s (issue s q st w o plan start) := by
  have up {a b : State} (h : Only issueParts a b) : Only l a b := h.mono hl
  have hset {a b : State} (h : Only l a b) : Only l a (settleQuire b q) := h.trans (up ((settleQuire_only ..).mono (by decide)))
  unfold issue
  refine Only.ite (fun _ => Only.refl _ _) (fun _ => ?_)
  split
  · next s1 c h =>
    dsimp only
    exact up (Only.step (issueFault_only ..) (by decide) (Only.step (takeFree_only ..) (by decide)
      (Only.step (Only.fst h (fetch_only ..)) (by decide) (Only.refl _ _))))
  · next s1 b e h =>
    have h1 : Only issueParts s s1 := Only.step (Only.fst h (fetch_only ..)) (by decide) (Only.refl _ _)
    have h2 : Only issueParts s (guardPassed s1 q st w o).1 := Only.step (guardPassed_only ..) (by decide) h1
    have hw : Only l s (stall s q) := up ((stall_only ..).mono (by decide))
    dsimp only
    generalize guardPassed s1 q st w o = r at h2 ⊢
    have hf (maj sub code : Nat) : Only l s (issueFault s1 q st maj sub code) := up (Only.step (issueFault_only ..) (by decide) h1)
    have hg (maj sub code : Nat) : Only l s (issueFault r.1 q st maj sub code) := up (Only.step (issueFault_only ..) (by decide) h2)
    have ha : Only issueParts s (advance r.1 q st w) := Only.step (advance_only ..) (by decide) h2
    refine Only.ite (fun _ => hf _ _ _) (fun _ => Only.ite (fun _ => Only.refl _ _) (fun _ => Only.ite (fun _ => hf _ _ _)
      (fun _ => Only.ite (fun _ => Only.refl _ _) (fun _ => Only.ite (fun _ => hset (up (Only.step (exFault_only ..) (by decide) ha)))
      (fun _ => Only.ite (fun _ => hset (up ha)) (fun _ => Only.ite (fun _ => Only.refl _ _) (fun _ => Only.ite (fun _ => hw)
      (fun _ => Only.ite (fun _ => hg _ _ _) (fun _ => Only.ite (fun _ => up ((setStream_only ..).mono (by decide)))
      (fun _ => Only.ite (fun _ => hw) (fun _ => Only.ite (fun _ => ?_) (fun _ => ?_))))))))))))
    · exact hset (up (Only.step (putFlight_only ..) (by decide) ha))
    · exact hset ((up (Only.step (consumeLines_only ..) (by decide) ha)).trans (hs _ _))

end Sys2Proof.Laws
end

