-- ==== Sys2Proof/Laws/Canonical.lean ====
section
/-! SUPPORT. Every shared operation keeps the canonical form of device memory, host memory and the registers. -/

namespace Sys2Proof.Laws

open Sys2Proof.Machine Sys2Proof.Safety

set_option Elab.async false

/-! ### Registers, events, host memory, rings -/

theorem rset_canonical (s : State) (r : Reg) (v : Nat) (k : Nat) (j : Nat) (hc : CanonicalForm s) :
    CanonicalForm (rset s r v k j) := by
  unfold rset
  try dsimp only
  repeat'
    first
      | with_reducible assumption
      | (with_reducible refine canonical_foldl _ (fun _ _ _ => ?_) ?_)
      | with_reducible refine canonical_ite (fun _ => ?_) (fun _ => ?_)
      | split
      | refine canonical_upd ?_

theorem fset_canonical (s : State) (r : Reg) (hi lo v : Nat) (k : Nat) (j : Nat) (hc : CanonicalForm s) :
    CanonicalForm (fset s r hi lo v k j) := by
  unfold fset
  try dsimp only
  repeat'
    first
      | with_reducible assumption
      | with_reducible apply rset_canonical
      | (with_reducible refine canonical_foldl _ (fun _ _ _ => ?_) ?_)
      | with_reducible refine canonical_ite (fun _ => ?_) (fun _ => ?_)
      | split
      | refine canonical_upd ?_

theorem fadd_canonical (s : State) (r : Reg) (hi lo n : Nat) (k : Nat) (j : Nat) (hc : CanonicalForm s) :
    CanonicalForm (fadd s r hi lo n k j) := by
  unfold fadd
  try dsimp only
  repeat'
    first
      | with_reducible assumption
      | with_reducible apply fset_canonical
      | (with_reducible refine canonical_foldl _ (fun _ _ _ => ?_) ?_)
      | with_reducible refine canonical_ite (fun _ => ?_) (fun _ => ?_)
      | split
      | refine canonical_upd ?_

theorem logRecord_canonical (s : State) (r : Reg) (k lost v : Nat) (hc : CanonicalForm s) :
    CanonicalForm (logRecord s r k lost v) := by
  unfold logRecord
  try dsimp only
  repeat'
    first
      | with_reducible assumption
      | with_reducible apply fset_canonical
      | with_reducible apply rset_canonical
      | (with_reducible refine canonical_foldl _ (fun _ _ _ => ?_) ?_)
      | with_reducible refine canonical_ite (fun _ => ?_) (fun _ => ?_)
      | split
      | refine canonical_upd ?_

theorem takeFree_canonical (s : State) (hc : CanonicalForm s) :
    CanonicalForm (takeFree s).2 := (takeFree_only ..).canonical (by decide) hc

theorem emit_canonical (s : State) (o : Output) (hc : CanonicalForm s) :
    CanonicalForm (emit s o) := (emit_only ..).canonical (by decide) hc

theorem setQuire_canonical (s : State) (q : Nat) (x : Quire) (hc : CanonicalForm s) :
    CanonicalForm (setQuire s q x) := (setQuire_only ..).canonical (by decide) hc

theorem setStream_canonical (s : State) (q st : Nat) (v : Stream) (hc : CanonicalForm s) :
    CanonicalForm (setStream s q st v) := (setStream_only ..).canonical (by decide) hc

theorem setPhys_canonical (s : State) (p : Nat) (x : Phys) (hc : CanonicalForm s) :
    CanonicalForm (setPhys s p x) := (setPhys_only ..).canonical (by decide) hc

theorem setDeckle_canonical (s : State) (d : Nat) (x : Deckle) (hc : CanonicalForm s) :
    CanonicalForm (setDeckle s d x) := (setDeckle_only ..).canonical (by decide) hc

theorem setRing_canonical (s : State) (r : Nat) (x : Ring) (hc : CanonicalForm s) :
    CanonicalForm (setRing s r x) := (setRing_only ..).canonical (by decide) hc

theorem setFunc_canonical (s : State) (f : Nat) (x : Function) (hc : CanonicalForm s) :
    CanonicalForm (setFunc s f x) := (setFunc_only ..).canonical (by decide) hc

theorem setPoly_canonical (s : State) (d : Nat) (x : Poly) (hc : CanonicalForm s) :
    CanonicalForm (setPoly s d x) := (setPoly_only ..).canonical (by decide) hc

theorem setCtl_canonical (s : State) (c : Nat) (x : Controller) (hc : CanonicalForm s) :
    CanonicalForm (setCtl s c x) := (setCtl_only ..).canonical (by decide) hc

theorem setPort_canonical (s : State) (p : Nat) (x : Port) (hc : CanonicalForm s) :
    CanonicalForm (setPort s p x) := (setPort_only ..).canonical (by decide) hc

theorem setPin_canonical (s : State) (i : Nat) (x : Pin) (hc : CanonicalForm s) :
    CanonicalForm (setPin s i x) := (setPin_only ..).canonical (by decide) hc

theorem hostWrite_canonical (s : State) (a : Nat) (bs : List Byte) (hc : CanonicalForm s) :
    CanonicalForm (hostWrite s a bs) := by
  unfold hostWrite
  try dsimp only
  repeat'
    first
      | with_reducible assumption
      | (with_reducible refine canonical_foldl _ (fun _ _ _ => ?_) ?_)
      | with_reducible refine canonical_ite (fun _ => ?_) (fun _ => ?_)
      | split
      | refine canonical_upd ?_

theorem sendMsix_canonical (s : State) (fn vec : Nat) (hc : CanonicalForm s) :
    CanonicalForm (sendMsix s fn vec) := (sendMsix_only ..).canonical (by decide) hc

theorem cqSignal_canonical (s : State) (r : Nat) (hc : CanonicalForm s) :
    CanonicalForm (cqSignal s r) := (cqSignal_only ..).canonical (by decide) hc

theorem cqWrite_canonical (s : State) (r : Nat) (body : List Byte) (irq : Bool) (hc : CanonicalForm s) :
    CanonicalForm (cqWrite s r body irq) := by
  unfold cqWrite
  try dsimp only
  repeat'
    first
      | with_reducible assumption
      | with_reducible apply cqSignal_canonical
      | with_reducible apply hostWrite_canonical
      | with_reducible apply setRing_canonical
      | (with_reducible refine canonical_foldl _ (fun _ _ _ => ?_) ?_)
      | with_reducible refine canonical_ite (fun _ => ?_) (fun _ => ?_)
      | split
      | refine canonical_upd ?_

theorem cqLose_canonical (s : State) (r : Nat) (hc : CanonicalForm s) :
    CanonicalForm (cqLose s r) := by
  unfold cqLose
  try dsimp only
  repeat'
    first
      | with_reducible assumption
      | with_reducible apply fadd_canonical
      | with_reducible apply fset_canonical
      | (with_reducible refine canonical_foldl _ (fun _ _ _ => ?_) ?_)
      | with_reducible refine canonical_ite (fun _ => ?_) (fun _ => ?_)
      | split
      | refine canonical_upd ?_

theorem drainQueue_canonical (n : Nat) (s : State) (r : Nat) (hc : CanonicalForm s) : CanonicalForm (drainQueue n s r) := by
  induction n generalizing s with
  | zero => exact hc
  | succ n ih =>
    unfold drainQueue
    try dsimp only
    repeat'
      first
        | with_reducible assumption
        | with_reducible apply ih
        | with_reducible apply cqWrite_canonical
        | (with_reducible refine canonical_foldl _ (fun _ _ _ => ?_) ?_)
        | with_reducible refine canonical_ite (fun _ => ?_) (fun _ => ?_)
        | split
        | refine canonical_upd ?_

theorem dropQueued_canonical (s : State) (r : Nat) (hc : CanonicalForm s) :
    CanonicalForm (dropQueued s r) := by
  unfold dropQueued
  try dsimp only
  repeat'
    first
      | with_reducible assumption
      | with_reducible apply cqLose_canonical
      | (with_reducible refine canonical_foldl _ (fun _ _ _ => ?_) ?_)
      | with_reducible refine canonical_ite (fun _ => ?_) (fun _ => ?_)
      | split
      | refine canonical_upd ?_

theorem cqUnreserved_canonical (s : State) (r : Nat) (fn : Nat) (body : List Byte) (hc : CanonicalForm s) :
    CanonicalForm (cqUnreserved s r fn body) := by
  unfold cqUnreserved
  try dsimp only
  repeat'
    first
      | with_reducible assumption
      | with_reducible apply cqLose_canonical
      | with_reducible apply cqWrite_canonical
      | (with_reducible refine canonical_foldl _ (fun _ _ _ => ?_) ?_)
      | with_reducible refine canonical_ite (fun _ => ?_) (fun _ => ?_)
      | split
      | refine canonical_upd ?_

theorem ringSettle_canonical (s : State) (r : Nat) (hc : CanonicalForm s) :
    CanonicalForm (ringSettle s r) := by
  unfold ringSettle
  try dsimp only
  repeat'
    first
      | with_reducible assumption
      | with_reducible apply dropQueued_canonical
      | with_reducible apply setRing_canonical
      | (with_reducible refine canonical_foldl _ (fun _ _ _ => ?_) ?_)
      | with_reducible refine canonical_ite (fun _ => ?_) (fun _ => ?_)
      | split
      | refine canonical_upd ?_

theorem complete_canonical (s : State) (r id status fault value : Nat) (aux : Nat) (hc : CanonicalForm s) :
    CanonicalForm (complete s r id status fault value aux) := by
  unfold complete
  try dsimp only
  repeat'
    first
      | with_reducible assumption
      | with_reducible apply ringSettle_canonical
      | with_reducible apply drainQueue_canonical
      | with_reducible apply cqWrite_canonical
      | with_reducible apply setRing_canonical
      | (with_reducible refine canonical_foldl _ (fun _ _ _ => ?_) ?_)
      | with_reducible refine canonical_ite (fun _ => ?_) (fun _ => ?_)
      | split
      | refine canonical_upd ?_

theorem flushUnstarted_canonical (s : State) (r status : Nat) (hc : CanonicalForm s) :
    CanonicalForm (flushUnstarted s r status) := by
  unfold flushUnstarted
  try dsimp only
  repeat'
    first
      | with_reducible assumption
      | with_reducible apply complete_canonical
      | (with_reducible refine canonical_foldl _ (fun _ _ _ => ?_) ?_)
      | with_reducible refine canonical_ite (fun _ => ?_) (fun _ => ?_)
      | split
      | refine canonical_upd ?_

theorem haltRing_canonical (s : State) (r reason : Nat) (hc : CanonicalForm s) :
    CanonicalForm (haltRing s r reason) := by
  unfold haltRing
  try dsimp only
  repeat'
    first
      | with_reducible assumption
      | with_reducible apply flushUnstarted_canonical
      | with_reducible apply ringSettle_canonical
      | with_reducible apply setRing_canonical
      | (with_reducible refine canonical_foldl _ (fun _ _ _ => ?_) ?_)
      | with_reducible refine canonical_ite (fun _ => ?_) (fun _ => ?_)
      | split
      | refine canonical_upd ?_

theorem dropObj_canonical (s : State) (d obj : Nat) (side : Option Nat) (hc : CanonicalForm s) :
    CanonicalForm (dropObj s d obj side) := (dropObj_only ..).canonical (by decide) hc

theorem setDomain_canonical (s : State) (d : Nat) (x : Domain) (hc : CanonicalForm s) :
    CanonicalForm (setDomain s d x) := (setDomain_only ..).canonical (by decide) hc

theorem enterFE_canonical (s : State) (hc : CanonicalForm s) : CanonicalForm (enterFE s) := by
  unfold enterFE
  split
  · exact hc
  · have h : CanonicalForm ((List.range 256).foldl (fun s r => haltRing s r 0) { s with fe := true }) :=
      canonical_foldl _ (fun t r ht => haltRing_canonical t r 0 ht) (canonical_upd hc)
    generalize (List.range 256).foldl (fun s r => haltRing s r 0) { s with fe := true } = s1 at h ⊢
    exact canonical_upd h

theorem evLoss_canonical (s : State) (sev : Nat) (hc : CanonicalForm s) :
    CanonicalForm (evLoss s sev) := by
  unfold evLoss
  try dsimp only
  repeat'
    first
      | with_reducible assumption
      | with_reducible apply fadd_canonical
      | (with_reducible refine canonical_foldl _ (fun _ _ _ => ?_) ?_)
      | with_reducible refine canonical_ite (fun _ => ?_) (fun _ => ?_)
      | split
      | refine canonical_upd ?_

theorem evInsert_canonical (s : State) (e : Event) (hc : CanonicalForm s) :
    CanonicalForm (evInsert s e) := by
  unfold evInsert
  try dsimp only
  repeat'
    first
      | with_reducible assumption
      | with_reducible apply evLoss_canonical
      | (with_reducible refine canonical_foldl _ (fun _ _ _ => ?_) ?_)
      | with_reducible refine canonical_ite (fun _ => ?_) (fun _ => ?_)
      | split
      | refine canonical_upd ?_

theorem evFatal_canonical (s : State) (e : Event) (fatal : Bool) (hc : CanonicalForm s) :
    CanonicalForm (evFatal s e fatal) := by
  unfold evFatal
  try dsimp only
  repeat'
    first
      | with_reducible assumption
      | with_reducible apply fset_canonical
      | with_reducible apply rset_canonical
      | (with_reducible refine canonical_foldl _ (fun _ _ _ => ?_) ?_)
      | with_reducible refine canonical_ite (fun _ => ?_) (fun _ => ?_)
      | split
      | refine canonical_upd ?_

theorem evSubscribe_canonical (s : State) (e : Event) (hc : CanonicalForm s) :
    CanonicalForm (evSubscribe s e) := by
  unfold evSubscribe
  try dsimp only
  repeat'
    first
      | with_reducible assumption
      | with_reducible apply fadd_canonical
      | (with_reducible refine canonical_foldl _ (fun _ _ _ => ?_) ?_)
      | with_reducible refine canonical_ite (fun _ => ?_) (fun _ => ?_)
      | split
      | refine canonical_upd ?_

theorem evEnter_canonical (s : State) (e0 : Event) (hc : CanonicalForm s) :
    CanonicalForm (evEnter s e0) := by
  unfold evEnter
  try dsimp only
  repeat'
    first
      | with_reducible assumption
      | with_reducible apply evSubscribe_canonical
      | with_reducible apply evFatal_canonical
      | with_reducible apply evInsert_canonical
      | with_reducible apply fset_canonical
      | (with_reducible refine canonical_foldl _ (fun _ _ _ => ?_) ?_)
      | with_reducible refine canonical_ite (fun _ => ?_) (fun _ => ?_)
      | split
      | refine canonical_upd ?_

theorem raise_canonical (s : State) (e0 : Event) (hc : CanonicalForm s) :
    CanonicalForm (raise s e0) := by
  unfold raise
  try dsimp only
  repeat'
    first
      | with_reducible assumption
      | with_reducible apply evEnter_canonical
      | with_reducible apply evFatal_canonical
      | with_reducible apply enterFE_canonical
      | (with_reducible refine canonical_foldl _ (fun _ _ _ => ?_) ?_)
      | with_reducible refine canonical_ite (fun _ => ?_) (fun _ => ?_)
      | split
      | refine canonical_upd ?_

theorem raisePoison_canonical (s : State) (block inst : Nat) (dk : Option Nat) (dpa : Nat) (hc : CanonicalForm s) :
    CanonicalForm (raisePoison s block inst dk dpa) := by
  unfold raisePoison
  try dsimp only
  repeat'
    first
      | with_reducible assumption
      | with_reducible apply raise_canonical
      | (with_reducible refine canonical_foldl _ (fun _ _ _ => ?_) ?_)
      | with_reducible refine canonical_ite (fun _ => ?_) (fun _ => ?_)
      | split
      | refine canonical_upd ?_


/-! ### Error reports -/

theorem requestRetire_canonical (s : State) (p : Nat) (hc : CanonicalForm s) :
    CanonicalForm (requestRetire s p) := (requestRetire_only ..).canonical (by decide) hc

theorem nestEvent_canonical (s : State) (p : Nat) (e : Event) (hc : CanonicalForm s) :
    CanonicalForm (nestEvent s p e).1 := by
  unfold nestEvent
  try dsimp only
  repeat'
    first
      | with_reducible assumption
      | with_reducible apply fset_canonical
      | with_reducible apply rset_canonical
      | (with_reducible refine canonical_foldl _ (fun _ _ _ => ?_) ?_)
      | with_reducible refine canonical_ite (fun _ => ?_) (fun _ => ?_)
      | split
      | refine canonical_upd ?_

theorem qreRaise_canonical (s : State) (p : Nat) (e : Event) (hc : CanonicalForm s) :
    CanonicalForm (qreRaise s p e) := by
  unfold qreRaise
  try dsimp only
  repeat'
    first
      | with_reducible assumption
      | ((with_reducible apply canonical_fst); (· assumption); with_reducible apply nestEvent_canonical)
      | with_reducible apply nestEvent_canonical
      | with_reducible apply raise_canonical
      | (with_reducible refine canonical_foldl _ (fun _ _ _ => ?_) ?_)
      | with_reducible refine canonical_ite (fun _ => ?_) (fun _ => ?_)
      | split
      | refine canonical_upd ?_

theorem qrePoison_canonical (s : State) (p : Nat) (dk : Option Nat) (dpa : Nat) (hc : CanonicalForm s) :
    CanonicalForm (qrePoison s p dk dpa) := by
  unfold qrePoison
  try dsimp only
  repeat'
    first
      | with_reducible assumption
      | with_reducible apply qreRaise_canonical
      | (with_reducible refine canonical_foldl _ (fun _ _ _ => ?_) ?_)
      | with_reducible refine canonical_ite (fun _ => ?_) (fun _ => ?_)
      | split
      | refine canonical_upd ?_

theorem bucketFull_canonical (s : State) (p : Nat) (hc : CanonicalForm s) :
    CanonicalForm (bucketFull s p) := by
  unfold bucketFull
  try dsimp only
  repeat'
    first
      | with_reducible assumption
      | with_reducible apply qreRaise_canonical
      | with_reducible apply requestRetire_canonical
      | with_reducible apply fset_canonical
      | (with_reducible refine canonical_foldl _ (fun _ _ _ => ?_) ?_)
      | with_reducible refine canonical_ite (fun _ => ?_) (fun _ => ?_)
      | split
      | refine canonical_upd ?_

theorem bucketAdd_canonical (s : State) (p : Nat) (hc : CanonicalForm s) :
    CanonicalForm (bucketAdd s p) := by
  unfold bucketAdd
  try dsimp only
  repeat'
    first
      | with_reducible assumption
      | with_reducible apply bucketFull_canonical
      | with_reducible apply fadd_canonical
      | (with_reducible refine canonical_foldl _ (fun _ _ _ => ?_) ?_)
      | with_reducible refine canonical_ite (fun _ => ?_) (fun _ => ?_)
      | split
      | refine canonical_upd ?_

theorem windowHit_canonical (s : State) (p : Nat) (hc : CanonicalForm s) :
    CanonicalForm (windowHit s p) := (windowHit_only ..).canonical (by decide) hc

theorem qreError_canonical (s : State) (p sev code : Nat) (info : Nat) (hide : Nat) (addr : Option Nat) (hc : CanonicalForm s) :
    CanonicalForm (qreError s p sev code info hide addr) := by
  unfold qreError
  try dsimp only
  repeat'
    first
      | with_reducible assumption
      | with_reducible apply windowHit_canonical
      | with_reducible apply bucketAdd_canonical
      | with_reducible apply qreRaise_canonical
      | (with_reducible refine canonical_foldl _ (fun _ _ _ => ?_) ?_)
      | with_reducible refine canonical_ite (fun _ => ?_) (fun _ => ?_)
      | split
      | refine canonical_upd ?_


/-! ### Code words -/

theorem retireAdd_canonical (s : State) (a reason : Nat) (hc : CanonicalForm s) :
    CanonicalForm (retireAdd s a reason) := by
  unfold retireAdd
  try dsimp only
  repeat'
    first
      | with_reducible assumption
      | with_reducible apply raise_canonical
      | with_reducible apply fset_canonical
      | with_reducible apply rset_canonical
      | (with_reducible refine canonical_foldl _ (fun _ _ _ => ?_) ?_)
      | with_reducible refine canonical_ite (fun _ => ?_) (fun _ => ?_)
      | split
      | refine canonical_upd ?_

theorem eccLog_canonical (s : State) (cw kind nbytes : Nat) (hc : CanonicalForm s) :
    CanonicalForm (eccLog s cw kind nbytes) := by
  unfold eccLog
  try dsimp only
  repeat'
    first
      | with_reducible assumption
      | with_reducible apply logRecord_canonical
      | (with_reducible refine canonical_foldl _ (fun _ _ _ => ?_) ?_)
      | with_reducible refine canonical_ite (fun _ => ?_) (fun _ => ?_)
      | split
      | refine canonical_upd ?_

theorem frameBucket_canonical (s : State) (a : Nat) (hc : CanonicalForm s) :
    CanonicalForm (frameBucket s a) := by
  unfold frameBucket
  try dsimp only
  repeat'
    first
      | with_reducible assumption
      | with_reducible apply retireAdd_canonical
      | with_reducible apply raise_canonical
      | with_reducible apply setCtl_canonical
      | (with_reducible refine canonical_foldl _ (fun _ _ _ => ?_) ?_)
      | with_reducible refine canonical_ite (fun _ => ?_) (fun _ => ?_)
      | split
      | refine canonical_upd ?_

theorem surface_canonical (s : State) (cw : Nat) (hc : CanonicalForm s) :
    CanonicalForm (surface s cw) := by
  unfold surface
  try dsimp only
  repeat'
    first
      | with_reducible assumption
      | (with_reducible refine canonical_foldl _ (fun _ _ _ => ?_) ?_)
      | with_reducible refine canonical_ite (fun _ => ?_) (fun _ => ?_)
      | split
      | refine canonical_upd ?_

theorem flipAt_canonical (s : State) (cw : Nat) (hc : CanonicalForm s) :
    CanonicalForm (flipAt s cw) := by
  unfold flipAt
  try dsimp only
  repeat'
    first
      | with_reducible assumption
      | with_reducible apply fset_canonical
      | with_reducible apply rset_canonical
      | (with_reducible refine canonical_foldl _ (fun _ _ _ => ?_) ?_)
      | with_reducible refine canonical_ite (fun _ => ?_) (fun _ => ?_)
      | split
      | refine canonical_upd ?_

theorem addPoison_canonical (s : State) (cw : Nat) (hc : CanonicalForm s) :
    CanonicalForm (addPoison s cw) := (addPoison_only ..).canonical (by decide) hc

theorem clearErrors_canonical (s : State) (cw : Nat) (hc : CanonicalForm s) :
    CanonicalForm (clearErrors s cw) := (clearErrors_only ..).canonical (by decide) hc

theorem dramRead_canonical (s : State) (a n : Nat) (hc : CanonicalForm s) :
    CanonicalForm (dramRead s a n) := by
  unfold dramRead
  try dsimp only
  repeat'
    first
      | with_reducible assumption
      | with_reducible apply fadd_canonical
      | (with_reducible refine canonical_foldl _ (fun _ _ _ => ?_) ?_)
      | with_reducible refine canonical_ite (fun _ => ?_) (fun _ => ?_)
      | split
      | refine canonical_upd ?_

theorem checkBuffer_canonical (s : State) (cw : Nat) (hc : CanonicalForm s) :
    CanonicalForm (checkBuffer s cw) := by
  unfold checkBuffer
  try dsimp only
  repeat'
    first
      | with_reducible assumption
      | with_reducible apply dramRead_canonical
      | with_reducible apply setCtl_canonical
      | (with_reducible refine canonical_foldl _ (fun _ _ _ => ?_) ?_)
      | with_reducible refine canonical_ite (fun _ => ?_) (fun _ => ?_)
      | split
      | refine canonical_upd ?_

theorem writeCw_canonical (s : State) (cw : Nat) (hc : CanonicalForm s) :
    CanonicalForm (writeCw s cw) := by
  unfold writeCw
  try dsimp only
  repeat'
    first
      | with_reducible assumption
      | with_reducible apply checkBuffer_canonical
      | with_reducible apply clearErrors_canonical
      | with_reducible apply flipAt_canonical
      | with_reducible apply fadd_canonical
      | (with_reducible refine canonical_foldl _ (fun _ _ _ => ?_) ?_)
      | with_reducible refine canonical_ite (fun _ => ?_) (fun _ => ?_)
      | split
      | refine canonical_upd ?_

theorem putPoison_canonical (s : State) (cw : Nat) (under : Bool) (hc : CanonicalForm s) :
    CanonicalForm (putPoison s cw under) := by
  unfold putPoison
  try dsimp only
  repeat'
    first
      | with_reducible assumption
      | with_reducible apply writeCw_canonical
      | with_reducible apply addPoison_canonical
      | with_reducible apply flipAt_canonical
      | with_reducible apply fadd_canonical
      | (with_reducible refine canonical_foldl _ (fun _ _ _ => ?_) ?_)
      | with_reducible refine canonical_ite (fun _ => ?_) (fun _ => ?_)
      | split
      | refine canonical_upd ?_

theorem eccCe_canonical (s : State) (cw kind n : Nat) (scrub : Bool) (hc : CanonicalForm s) :
    CanonicalForm (eccCe s cw kind n scrub) := by
  unfold eccCe
  try dsimp only
  repeat'
    first
      | with_reducible assumption
      | with_reducible apply clearErrors_canonical
      | with_reducible apply flipAt_canonical
      | with_reducible apply frameBucket_canonical
      | with_reducible apply eccLog_canonical
      | with_reducible apply raise_canonical
      | with_reducible apply fadd_canonical
      | (with_reducible refine canonical_foldl _ (fun _ _ _ => ?_) ?_)
      | with_reducible refine canonical_ite (fun _ => ?_) (fun _ => ?_)
      | split
      | refine canonical_upd ?_

theorem eccUc_canonical (s : State) (cw kind reason : Nat) (under : Bool) (hc : CanonicalForm s) :
    CanonicalForm (eccUc s cw kind reason under) := by
  unfold eccUc
  try dsimp only
  repeat'
    first
      | with_reducible assumption
      | with_reducible apply putPoison_canonical
      | with_reducible apply eccLog_canonical
      | with_reducible apply retireAdd_canonical
      | with_reducible apply fadd_canonical
      | (with_reducible refine canonical_foldl _ (fun _ _ _ => ?_) ?_)
      | with_reducible refine canonical_ite (fun _ => ?_) (fun _ => ?_)
      | split
      | refine canonical_upd ?_

theorem foundPoison_canonical (s : State) (cw : Nat) (hc : CanonicalForm s) :
    CanonicalForm (foundPoison s cw) := (foundPoison_only ..).canonical (by decide) hc

theorem eccWild_canonical (s : State) (cw kind reason : Nat) (hc : CanonicalForm s) :
    CanonicalForm (eccWild s cw kind reason) := by
  unfold eccWild
  try dsimp only
  repeat'
    first
      | with_reducible assumption
      | with_reducible apply eccUc_canonical
      | with_reducible apply eccCe_canonical
      | ((with_reducible apply canonical_snd); (· assumption); with_reducible apply takeFree_canonical)
      | with_reducible apply takeFree_canonical
      | (with_reducible refine canonical_foldl _ (fun _ _ _ => ?_) ?_)
      | with_reducible refine canonical_ite (fun _ => ?_) (fun _ => ?_)
      | split
      | refine canonical_upd ?_

theorem dropCell_canonical (s : State) (c : Cell) (hc : CanonicalForm s) :
    CanonicalForm (dropCell s c) := (dropCell_only ..).canonical (by decide) hc

theorem handlerUse_canonical (s : State) (h : Handler) (block code : Nat) (hc : CanonicalForm s) :
    CanonicalForm (handlerUse s h block code) := by
  unfold handlerUse
  try dsimp only
  repeat'
    first
      | with_reducible assumption
      | with_reducible apply dropCell_canonical
      | with_reducible apply raise_canonical
      | (with_reducible refine canonical_foldl _ (fun _ _ _ => ?_) ?_)
      | with_reducible refine canonical_ite (fun _ => ?_) (fun _ => ?_)
      | split
      | refine canonical_upd ?_

theorem checkLine_canonical (s : State) (cw : Nat) (hc : CanonicalForm s) :
    CanonicalForm (checkLine s cw) := by
  unfold checkLine
  try dsimp only
  repeat'
    first
      | with_reducible assumption
      | with_reducible apply putPoison_canonical
      | with_reducible apply eccLog_canonical
      | with_reducible apply raise_canonical
      | with_reducible apply fadd_canonical
      | (with_reducible refine canonical_foldl _ (fun _ _ _ => ?_) ?_)
      | with_reducible refine canonical_ite (fun _ => ?_) (fun _ => ?_)
      | split
      | refine canonical_upd ?_

theorem touchCw_canonical (s0 : State) (cw : Nat) (hc : CanonicalForm s0) :
    CanonicalForm (touchCw s0 cw) := by
  unfold touchCw
  try dsimp only
  repeat'
    first
      | with_reducible assumption
      | with_reducible apply checkLine_canonical
      | with_reducible apply eccWild_canonical
      | with_reducible apply foundPoison_canonical
      | with_reducible apply eccUc_canonical
      | with_reducible apply eccCe_canonical
      | with_reducible apply checkBuffer_canonical
      | with_reducible apply dramRead_canonical
      | (with_reducible refine canonical_foldl _ (fun _ _ _ => ?_) ?_)
      | with_reducible refine canonical_ite (fun _ => ?_) (fun _ => ?_)
      | split
      | refine canonical_upd ?_


/-! ### Caches -/

theorem useWay_canonical (s : State) (base way : Nat) (hc : CanonicalForm s) :
    CanonicalForm (useWay s base way) := (useWay_only ..).canonical (by decide) hc

theorem modLine_canonical (s : State) (l : CacheLine) (h : CacheLine → CacheLine) (hc : CanonicalForm s) :
    CanonicalForm (modLine s l h) := (modLine_only ..).canonical (by decide) hc

theorem dropLine_canonical (s : State) (l : CacheLine) (hc : CanonicalForm s) :
    CanonicalForm (dropLine s l) := by
  unfold dropLine
  try dsimp only
  repeat'
    first
      | with_reducible assumption
      | with_reducible apply surface_canonical
      | (with_reducible refine canonical_foldl _ (fun _ _ _ => ?_) ?_)
      | with_reducible refine canonical_ite (fun _ => ?_) (fun _ => ?_)
      | split
      | refine canonical_upd ?_

theorem clearCells_canonical (s : State) (c : Cell) (words : Nat → Bool) (hc : CanonicalForm s) :
    CanonicalForm (clearCells s c words) := (clearCells_only ..).canonical (by decide) hc

theorem sliceRaise_canonical (s : State) (sev code base : Nat) (hc : CanonicalForm s) :
    CanonicalForm (sliceRaise s sev code base) := by
  unfold sliceRaise
  try dsimp only
  repeat'
    first
      | with_reducible assumption
      | with_reducible apply raise_canonical
      | (with_reducible refine canonical_foldl _ (fun _ _ _ => ?_) ?_)
      | with_reducible refine canonical_ite (fun _ => ?_) (fun _ => ?_)
      | split
      | refine canonical_upd ?_

theorem tagRead_canonical (s : State) (l : CacheLine) (hc : CanonicalForm s) :
    CanonicalForm (tagRead s l) := by
  unfold tagRead
  try dsimp only
  repeat'
    first
      | with_reducible assumption
      | with_reducible apply sliceRaise_canonical
      | with_reducible apply clearCells_canonical
      | with_reducible apply raise_canonical
      | (with_reducible refine canonical_foldl _ (fun _ _ _ => ?_) ?_)
      | with_reducible refine canonical_ite (fun _ => ?_) (fun _ => ?_)
      | split
      | refine canonical_upd ?_

theorem sliceWord_canonical (l : CacheLine) (s : State) (w : Nat) (hc : CanonicalForm s) :
    CanonicalForm (sliceWord l s w) := by
  unfold sliceWord
  try dsimp only
  repeat'
    first
      | with_reducible assumption
      | with_reducible apply sliceRaise_canonical
      | with_reducible apply clearCells_canonical
      | with_reducible apply touchCw_canonical
      | with_reducible apply addPoison_canonical
      | with_reducible apply surface_canonical
      | (with_reducible refine canonical_foldl _ (fun _ _ _ => ?_) ?_)
      | with_reducible refine canonical_ite (fun _ => ?_) (fun _ => ?_)
      | split
      | refine canonical_upd ?_

theorem l1Merge_canonical (s : State) (l : CacheLine) (hc : CanonicalForm s) :
    CanonicalForm (l1Merge s l) := by
  unfold l1Merge
  try dsimp only
  repeat'
    first
      | with_reducible assumption
      | with_reducible apply clearCells_canonical
      | with_reducible apply modLine_canonical
      | with_reducible apply addPoison_canonical
      | with_reducible apply qreError_canonical
      | (with_reducible refine canonical_foldl _ (fun _ _ _ => ?_) ?_)
      | with_reducible refine canonical_ite (fun _ => ?_) (fun _ => ?_)
      | split
      | refine canonical_upd ?_

theorem sliceRead_canonical (s : State) (l : CacheLine) (off n : Nat) (hc : CanonicalForm s) :
    CanonicalForm (sliceRead s l off n) := by
  unfold sliceRead
  try dsimp only
  repeat'
    first
      | with_reducible assumption
      | with_reducible apply sliceWord_canonical
      | with_reducible apply tagRead_canonical
      | (with_reducible refine canonical_foldl _ (fun _ _ _ => ?_) ?_)
      | with_reducible refine canonical_ite (fun _ => ?_) (fun _ => ?_)
      | split
      | refine canonical_upd ?_

theorem writeBack_canonical (s : State) (base : Nat) (hc : CanonicalForm s) :
    CanonicalForm (writeBack s base) := by
  unfold writeBack
  try dsimp only
  repeat'
    first
      | with_reducible assumption
      | with_reducible apply writeCw_canonical
      | (with_reducible refine canonical_foldl _ (fun _ _ _ => ?_) ?_)
      | with_reducible refine canonical_ite (fun _ => ?_) (fun _ => ?_)
      | split
      | refine canonical_upd ?_

theorem evictLine_canonical (s : State) (l : CacheLine) (hc : CanonicalForm s) :
    CanonicalForm (evictLine s l) := by
  unfold evictLine
  try dsimp only
  repeat'
    first
      | with_reducible assumption
      | with_reducible apply writeBack_canonical
      | with_reducible apply sliceRead_canonical
      | with_reducible apply l1Merge_canonical
      | with_reducible apply dropLine_canonical
      | (with_reducible refine canonical_foldl _ (fun _ _ _ => ?_) ?_)
      | with_reducible refine canonical_ite (fun _ => ?_) (fun _ => ?_)
      | split
      | refine canonical_upd ?_

theorem l1Enter_canonical (s : State) (p base : Nat) (hc : CanonicalForm s) :
    CanonicalForm (l1Enter s p base) := by
  unfold l1Enter
  try dsimp only
  repeat'
    first
      | with_reducible assumption
      | with_reducible apply l1Merge_canonical
      | with_reducible apply modLine_canonical
      | (with_reducible refine canonical_foldl _ (fun _ _ _ => ?_) ?_)
      | with_reducible refine canonical_ite (fun _ => ?_) (fun _ => ?_)
      | split
      | refine canonical_upd ?_

theorem fillLine_canonical (s : State) (v : Via) (base : Nat) (hc : CanonicalForm s) :
    CanonicalForm (fillLine s v base) := by
  unfold fillLine
  try dsimp only
  repeat'
    first
      | with_reducible assumption
      | with_reducible apply evictLine_canonical
      | with_reducible apply useWay_canonical
      | (with_reducible refine canonical_foldl _ (fun _ _ _ => ?_) ?_)
      | with_reducible refine canonical_ite (fun _ => ?_) (fun _ => ?_)
      | split
      | refine canonical_upd ?_

theorem flushLines_canonical (s : State) (p : CacheLine → Bool) (hc : CanonicalForm s) :
    CanonicalForm (flushLines s p) := by
  unfold flushLines
  try dsimp only
  repeat'
    first
      | with_reducible assumption
      | with_reducible apply evictLine_canonical
      | (with_reducible refine canonical_foldl _ (fun _ _ _ => ?_) ?_)
      | with_reducible refine canonical_ite (fun _ => ?_) (fun _ => ?_)
      | split
      | refine canonical_upd ?_

theorem l1Flush_canonical (s : State) (p : Nat) (hc : CanonicalForm s) :
    CanonicalForm (l1Flush s p) := by
  unfold l1Flush
  try dsimp only
  repeat'
    first
      | with_reducible assumption
      | with_reducible apply l1Merge_canonical
      | (with_reducible refine canonical_foldl _ (fun _ _ _ => ?_) ?_)
      | with_reducible refine canonical_ite (fun _ => ?_) (fun _ => ?_)
      | split
      | refine canonical_upd ?_

theorem l1Read_canonical (s : State) (p : Nat) (l : CacheLine) (off n : Nat) (hc : CanonicalForm s) :
    CanonicalForm (l1Read s p l off n) := by
  unfold l1Read
  try dsimp only
  repeat'
    first
      | with_reducible assumption
      | with_reducible apply sliceRead_canonical
      | with_reducible apply l1Merge_canonical
      | with_reducible apply clearCells_canonical
      | with_reducible apply qreError_canonical
      | (with_reducible refine canonical_foldl _ (fun _ _ _ => ?_) ?_)
      | with_reducible refine canonical_ite (fun _ => ?_) (fun _ => ?_)
      | split
      | refine canonical_upd ?_

theorem sliceCount_canonical (s : State) (hit : Bool) (hc : CanonicalForm s) :
    CanonicalForm (sliceCount s hit) := by
  unfold sliceCount
  try dsimp only
  repeat'
    first
      | with_reducible assumption
      | with_reducible apply fadd_canonical
      | (with_reducible refine canonical_foldl _ (fun _ _ _ => ?_) ?_)
      | with_reducible refine canonical_ite (fun _ => ?_) (fun _ => ?_)
      | split
      | refine canonical_upd ?_

theorem readLine_canonical (v : Via) (s : State) (base off n : Nat) (hc : CanonicalForm s) :
    CanonicalForm (readLine v s base off n) := by
  unfold readLine
  try dsimp only
  repeat'
    first
      | with_reducible assumption
      | with_reducible apply sliceCount_canonical
      | with_reducible apply l1Read_canonical
      | with_reducible apply fillLine_canonical
      | with_reducible apply l1Enter_canonical
      | with_reducible apply sliceRead_canonical
      | with_reducible apply l1Merge_canonical
      | with_reducible apply useWay_canonical
      | with_reducible apply touchCw_canonical
      | (with_reducible refine canonical_foldl _ (fun _ _ _ => ?_) ?_)
      | with_reducible refine canonical_ite (fun _ => ?_) (fun _ => ?_)
      | split
      | refine canonical_upd ?_

theorem storeBytes_canonical (s : State) (a : Nat) (bs : List Byte) (hc : CanonicalForm s) :
    CanonicalForm (storeBytes s a bs) := by
  unfold storeBytes
  try dsimp only
  repeat'
    first
      | with_reducible assumption
      | (with_reducible refine canonical_foldl _ (fun _ _ _ => ?_) ?_)
      | with_reducible refine canonical_ite (fun _ => ?_) (fun _ => ?_)
      | split
      | refine canonical_upd ?_

theorem cacheWrite_canonical (v : Via) (s : State) (l : CacheLine) (a : Nat) (bs : List Byte) (hc : CanonicalForm s) :
    CanonicalForm (cacheWrite v s l a bs) := by
  unfold cacheWrite
  try dsimp only
  repeat'
    first
      | with_reducible assumption
      | with_reducible apply storeBytes_canonical
      | with_reducible apply sliceCount_canonical
      | with_reducible apply l1Read_canonical
      | with_reducible apply l1Enter_canonical
      | with_reducible apply l1Merge_canonical
      | with_reducible apply sliceWord_canonical
      | with_reducible apply tagRead_canonical
      | with_reducible apply clearCells_canonical
      | with_reducible apply modLine_canonical
      | with_reducible apply useWay_canonical
      | (with_reducible refine canonical_foldl _ (fun _ _ _ => ?_) ?_)
      | with_reducible refine canonical_ite (fun _ => ?_) (fun _ => ?_)
      | split
      | refine canonical_upd ?_

theorem putCw_canonical (s : State) (a : Nat) (bs : List Byte) (hc : CanonicalForm s) :
    CanonicalForm (putCw s a bs) := by
  unfold putCw
  try dsimp only
  repeat'
    first
      | with_reducible assumption
      | with_reducible apply storeBytes_canonical
      | with_reducible apply touchCw_canonical
      | with_reducible apply writeCw_canonical
      | with_reducible apply clearErrors_canonical
      | with_reducible apply flipAt_canonical
      | with_reducible apply raise_canonical
      | (with_reducible refine canonical_foldl _ (fun _ _ _ => ?_) ?_)
      | with_reducible refine canonical_ite (fun _ => ?_) (fun _ => ?_)
      | split
      | refine canonical_upd ?_

theorem putLine_canonical (v : Via) (s : State) (a : Nat) (bs : List Byte) (hc : CanonicalForm s) :
    CanonicalForm (putLine v s a bs) := by
  unfold putLine
  try dsimp only
  repeat'
    first
      | with_reducible assumption
      | with_reducible apply putCw_canonical
      | with_reducible apply cacheWrite_canonical
      | with_reducible apply sliceCount_canonical
      | with_reducible apply fillLine_canonical
      | with_reducible apply touchCw_canonical
      | (with_reducible refine canonical_foldl _ (fun _ _ _ => ?_) ?_)
      | with_reducible refine canonical_ite (fun _ => ?_) (fun _ => ?_)
      | split
      | refine canonical_upd ?_


/-! ### Device memory -/

theorem notify_canonical (s : State) (a n : Nat) (hc : CanonicalForm s) :
    CanonicalForm (notify s a n) := (notify_only ..).canonical (by decide) hc

theorem putGo_canonical (v : Via) (k : Nat) (s : State) (a : Nat) (bs : List Byte) (hc : CanonicalForm s) :
    CanonicalForm (putGo v k s a bs) := by
  induction k generalizing s a bs with
  | zero => exact hc
  | succ k ih =>
    cases bs with
    | nil => exact hc
    | cons b bs => exact ih _ _ _ (putLine_canonical _ _ _ _ hc)

theorem memZero_canonical (s : State) (a n : Nat) (hc : CanonicalForm s) :
    CanonicalForm (memZero s a n) := by
  unfold memZero
  try dsimp only
  repeat'
    first
      | with_reducible assumption
      | with_reducible apply notify_canonical
      | with_reducible apply flipAt_canonical
      | (with_reducible refine canonical_foldl _ (fun _ _ _ => ?_) ?_)
      | with_reducible refine canonical_ite (fun _ => ?_) (fun _ => ?_)
      | split
      | refine canonical_upd ?_

theorem memPut_canonical (s : State) (v : Via) (a : Nat) (bs : List Byte) (hc : CanonicalForm s) :
    CanonicalForm (memPut s v a bs) := by
  unfold memPut
  try dsimp only
  repeat'
    first
      | with_reducible assumption
      | with_reducible apply memZero_canonical
      | with_reducible apply putGo_canonical
      | with_reducible apply notify_canonical
      | (with_reducible refine canonical_foldl _ (fun _ _ _ => ?_) ?_)
      | with_reducible refine canonical_ite (fun _ => ?_) (fun _ => ?_)
      | split
      | refine canonical_upd ?_

theorem poisonWord_canonical (s : State) (v : Via) (cw : Nat) (hc : CanonicalForm s) :
    CanonicalForm (poisonWord s v cw) := by
  unfold poisonWord
  try dsimp only
  repeat'
    first
      | with_reducible assumption
      | with_reducible apply addPoison_canonical
      | with_reducible apply fadd_canonical
      | (with_reducible refine canonical_foldl _ (fun _ _ _ => ?_) ?_)
      | with_reducible refine canonical_ite (fun _ => ?_) (fun _ => ?_)
      | split
      | refine canonical_upd ?_

theorem touchRange_canonical (s : State) (v : Via) (a n : Nat) (hc : CanonicalForm s) :
    CanonicalForm (touchRange s v a n) := by
  unfold touchRange
  try dsimp only
  repeat'
    first
      | with_reducible assumption
      | with_reducible apply readLine_canonical
      | (with_reducible refine canonical_foldl _ (fun _ _ _ => ?_) ?_)
      | with_reducible refine canonical_ite (fun _ => ?_) (fun _ => ?_)
      | split
      | refine canonical_upd ?_

theorem memFresh_canonical (s : State) (a n : Nat) (hc : CanonicalForm s) : CanonicalForm (memFresh s a n) := by
  unfold memFresh
  dsimp only
  have h1 : CanonicalForm ((s.dram.cache.filter (fun l => decide (a ≤ l.base) && decide (l.base < a + n))).foldl dropLine s) :=
    canonical_foldl _ (fun t l ht => dropLine_canonical t l ht) hc
  exact canonical_upd h1 (hd := fun _ => tcanon_tclear _ _ _ _ hc.1)

theorem entryRead_canonical (s : State) (d a : Nat) (hc : CanonicalForm s) :
    CanonicalForm (entryRead s d a) := by
  unfold entryRead
  try dsimp only
  repeat'
    first
      | with_reducible assumption
      | with_reducible apply touchRange_canonical
      | (with_reducible refine canonical_foldl _ (fun _ _ _ => ?_) ?_)
      | with_reducible refine canonical_ite (fun _ => ?_) (fun _ => ?_)
      | split
      | refine canonical_upd ?_

theorem walkTouch_canonical (s : State) (d va : Nat) (hc : CanonicalForm s) :
    CanonicalForm (walkTouch s d va) := by
  unfold walkTouch
  try dsimp only
  repeat'
    first
      | with_reducible assumption
      | with_reducible apply entryRead_canonical
      | (with_reducible refine canonical_foldl _ (fun _ _ _ => ?_) ?_)
      | with_reducible refine canonical_ite (fun _ => ?_) (fun _ => ?_)
      | split
      | refine canonical_upd ?_

theorem reachTouch_canonical (s : State) (d va n : Nat) (hc : CanonicalForm s) :
    CanonicalForm (reachTouch s d va n) := by
  unfold reachTouch
  try dsimp only
  repeat'
    first
      | with_reducible assumption
      | with_reducible apply walkTouch_canonical
      | (with_reducible refine canonical_foldl _ (fun _ _ _ => ?_) ?_)
      | with_reducible refine canonical_ite (fun _ => ?_) (fun _ => ?_)
      | split
      | refine canonical_upd ?_

theorem segsWrite_canonical (s : State) (v : Via) (l : List (Nat × Nat)) (bs : List Byte) (hc : CanonicalForm s) : CanonicalForm (segsWrite s v l bs) := by
  induction l generalizing s bs with
  | nil => exact hc
  | cons g l ih =>
    unfold segsWrite
    try dsimp only
    repeat'
      first
        | with_reducible assumption
        | with_reducible apply ih
        | with_reducible apply memPut_canonical
        | (with_reducible refine canonical_foldl _ (fun _ _ _ => ?_) ?_)
        | with_reducible refine canonical_ite (fun _ => ?_) (fun _ => ?_)
        | split
        | refine canonical_upd ?_

theorem segsTouch_canonical (s : State) (v : Via) (segs : List (Nat × Nat)) (hc : CanonicalForm s) :
    CanonicalForm (segsTouch s v segs) := by
  unfold segsTouch
  try dsimp only
  repeat'
    first
      | with_reducible assumption
      | with_reducible apply touchRange_canonical
      | (with_reducible refine canonical_foldl _ (fun _ _ _ => ?_) ?_)
      | with_reducible refine canonical_ite (fun _ => ?_) (fun _ => ?_)
      | split
      | refine canonical_upd ?_

theorem dkRead_canonical (s : State) (d : Nat) (a : Agent) (va n : Nat) (hc : CanonicalForm s) :
    CanonicalForm (dkRead s d a va n).1 := by
  unfold dkRead
  try dsimp only
  repeat'
    first
      | with_reducible assumption
      | with_reducible apply segsTouch_canonical
      | with_reducible apply reachTouch_canonical
      | (with_reducible refine canonical_foldl _ (fun _ _ _ => ?_) ?_)
      | with_reducible refine canonical_ite (fun _ => ?_) (fun _ => ?_)
      | split
      | refine canonical_upd ?_

theorem dkWrite_canonical (s : State) (d : Nat) (a : Agent) (va : Nat) (bs : List Byte) (hc : CanonicalForm s) :
    CanonicalForm (dkWrite s d a va bs).1 := by
  unfold dkWrite
  try dsimp only
  repeat'
    first
      | with_reducible assumption
      | with_reducible apply segsWrite_canonical
      | with_reducible apply reachTouch_canonical
      | (with_reducible refine canonical_foldl _ (fun _ _ _ => ?_) ?_)
      | with_reducible refine canonical_ite (fun _ => ?_) (fun _ => ?_)
      | split
      | refine canonical_upd ?_

theorem dkProbe_canonical (s : State) (d : Nat) (a : Agent) (write : Bool) (va n : Nat) (hc : CanonicalForm s) :
    CanonicalForm (dkProbe s d a write va n).1 := by
  unfold dkProbe
  try dsimp only
  repeat'
    first
      | with_reducible assumption
      | with_reducible apply reachTouch_canonical
      | (with_reducible refine canonical_foldl _ (fun _ _ _ => ?_) ?_)
      | with_reducible refine canonical_ite (fun _ => ?_) (fun _ => ?_)
      | split
      | refine canonical_upd ?_

theorem addProt_canonical (s : State) (d : Nat) (p : Prot) (hc : CanonicalForm s) :
    CanonicalForm (addProt s d p) := (addProt_only ..).canonical (by decide) hc

theorem delProt_canonical (s : State) (d : Nat) (k : ProtKind) (base : Nat) (hc : CanonicalForm s) :
    CanonicalForm (delProt s d k base) := (delProt_only ..).canonical (by decide) hc

theorem reEncrypt_canonical (d : Nat) (on : Bool) (s : State) (hc : CanonicalForm s) :
    CanonicalForm (reEncrypt d on s) := by
  unfold reEncrypt
  try dsimp only
  repeat'
    first
      | with_reducible assumption
      | (with_reducible refine canonical_foldl _ (fun _ _ _ => ?_) ?_)
      | with_reducible refine canonical_ite (fun _ => ?_) (fun _ => ?_)
      | split
      | refine canonical_upd ?_

theorem zeroStart_canonical (s : State) (r : ZeroReq) (hc : CanonicalForm s) :
    CanonicalForm (zeroStart s r) := (zeroStart_only ..).canonical (by decide) hc

theorem zeroFree_canonical (s : State) (e : Nat) (hc : CanonicalForm s) :
    CanonicalForm (zeroFree s e) := (zeroFree_only ..).canonical (by decide) hc


/-! ### Register writes -/

theorem storeReg_canonical (s : State) (r : Reg) (k j m v : Nat) (hc : CanonicalForm s) :
    CanonicalForm (storeReg s r k j m v) := by
  unfold storeReg
  try dsimp only
  repeat'
    first
      | with_reducible assumption
      | with_reducible apply rset_canonical
      | (with_reducible refine canonical_foldl _ (fun _ _ _ => ?_) ?_)
      | with_reducible refine canonical_ite (fun _ => ?_) (fun _ => ?_)
      | split
      | refine canonical_upd ?_

theorem approvedOff_canonical (s : State) (hc : CanonicalForm s) :
    CanonicalForm (approvedOff s) := by
  unfold approvedOff
  try dsimp only
  repeat'
    first
      | with_reducible assumption
      | with_reducible apply fset_canonical
      | (with_reducible refine canonical_foldl _ (fun _ _ _ => ?_) ?_)
      | with_reducible refine canonical_ite (fun _ => ?_) (fun _ => ?_)
      | split
      | refine canonical_upd ?_

theorem injWrite_canonical (s : State) (r : Reg) (k v : Nat) (hc : CanonicalForm s) :
    CanonicalForm (injWrite s r k v) := by
  unfold injWrite
  try dsimp only
  repeat'
    first
      | with_reducible assumption
      | with_reducible apply approvedOff_canonical
      | with_reducible apply storeReg_canonical
      | with_reducible apply fset_canonical
      | (with_reducible refine canonical_foldl _ (fun _ _ _ => ?_) ?_)
      | with_reducible refine canonical_ite (fun _ => ?_) (fun _ => ?_)
      | split
      | refine canonical_upd ?_

theorem armStep_canonical (fn : Nat) (r : Reg) (k v : Nat) (s : State) (hc : CanonicalForm s) :
    CanonicalForm (armStep fn r k v s) := by
  unfold armStep
  try dsimp only
  repeat'
    first
      | with_reducible assumption
      | with_reducible apply injWrite_canonical
      | (with_reducible refine canonical_foldl _ (fun _ _ _ => ?_) ?_)
      | with_reducible refine canonical_ite (fun _ => ?_) (fun _ => ?_)
      | split
      | refine canonical_upd ?_

theorem endPliac_canonical (s : State) (hc : CanonicalForm s) :
    CanonicalForm (endPliac s) := (endPliac_only ..).canonical (by decide) hc

theorem regEffect_canonical (s : State) (fn : Nat) (r : Reg) (k j m0 v : Nat) (hc : CanonicalForm s) :
    CanonicalForm (regEffect s fn r k j m0 v) := by
  unfold regEffect
  try dsimp only
  repeat'
    first
      | with_reducible assumption
      | with_reducible apply endPliac_canonical
      | with_reducible apply approvedOff_canonical
      | with_reducible apply storeReg_canonical
      | with_reducible apply reEncrypt_canonical
      | with_reducible apply setDeckle_canonical
      | with_reducible apply setQuire_canonical
      | with_reducible apply fset_canonical
      | with_reducible apply rset_canonical
      | (with_reducible refine canonical_foldl _ (fun _ _ _ => ?_) ?_)
      | with_reducible refine canonical_ite (fun _ => ?_) (fun _ => ?_)
      | split
      | refine canonical_upd ?_

theorem ownWrite_canonical (s : State) (fn : Nat) (r : Reg) (k v : Nat) (act : State → State)
    (h : ∀ t, CanonicalForm t → CanonicalForm (act t)) (hc : CanonicalForm s) : CanonicalForm (ownWrite s fn r k v act) := by
  unfold ownWrite
  split
  · exact h _ (regEffect_canonical _ _ _ _ _ _ _ hc)
  · exact hc

theorem regWriteOne_canonical (s : State) (fn addr size v : Nat) (hc : CanonicalForm s) :
    CanonicalForm (regWriteOne s fn addr size v) := by
  unfold regWriteOne
  try dsimp only
  repeat'
    first
      | with_reducible assumption
      | with_reducible apply regEffect_canonical
      | (with_reducible refine canonical_foldl _ (fun _ _ _ => ?_) ?_)
      | with_reducible refine canonical_ite (fun _ => ?_) (fun _ => ?_)
      | split
      | refine canonical_upd ?_

theorem regWrite_canonical (s : State) (fn addr size v : Nat) (hc : CanonicalForm s) :
    CanonicalForm (regWrite s fn addr size v) := by
  unfold regWrite
  try dsimp only
  repeat'
    first
      | with_reducible assumption
      | with_reducible apply regWriteOne_canonical
      | (with_reducible refine canonical_foldl _ (fun _ _ _ => ?_) ?_)
      | with_reducible refine canonical_ite (fun _ => ?_) (fun _ => ?_)
      | split
      | refine canonical_upd ?_

theorem clearLog_canonical (s : State) (r : Reg) (k j : Nat) (hc : CanonicalForm s) :
    CanonicalForm (clearLog s r k j) := by
  unfold clearLog
  try dsimp only
  repeat'
    first
      | with_reducible assumption
      | with_reducible apply setStream_canonical
      | with_reducible apply rset_canonical
      | (with_reducible refine canonical_foldl _ (fun _ _ _ => ?_) ?_)
      | with_reducible refine canonical_ite (fun _ => ?_) (fun _ => ?_)
      | split
      | refine canonical_upd ?_

theorem logWrite_canonical (s : State) (fn addr size v : Nat) (hc : CanonicalForm s) :
    CanonicalForm (logWrite s fn addr size v) := by
  unfold logWrite
  try dsimp only
  repeat'
    first
      | with_reducible assumption
      | with_reducible apply clearLog_canonical
      | (with_reducible refine canonical_foldl _ (fun _ _ _ => ?_) ?_)
      | with_reducible refine canonical_ite (fun _ => ?_) (fun _ => ?_)
      | split
      | refine canonical_upd ?_


/-! ### Serving -/

theorem setCtx_canonical (s : State) (c : Nat) (x : Ctx) (hc : CanonicalForm s) :
    CanonicalForm (setCtx s c x) := (setCtx_only ..).canonical (by decide) hc

theorem setModel_canonical (s : State) (d m : Nat) (x : Model) (hc : CanonicalForm s) :
    CanonicalForm (setModel s d m x) := (setModel_only ..).canonical (by decide) hc

theorem setPoolFree_canonical (s : State) (d k n : Nat) (hc : CanonicalForm s) :
    CanonicalForm (setPoolFree s d k n) := by
  unfold setPoolFree
  try dsimp only
  repeat'
    first
      | with_reducible assumption
      | with_reducible apply fset_canonical
      | (with_reducible refine canonical_foldl _ (fun _ _ _ => ?_) ?_)
      | with_reducible refine canonical_ite (fun _ => ?_) (fun _ => ?_)
      | split
      | refine canonical_upd ?_

theorem ctxPut_canonical (s : State) (d va : Nat) (bs : List Byte) (hc : CanonicalForm s) :
    CanonicalForm (ctxPut s d va bs) := by
  unfold ctxPut
  try dsimp only
  repeat'
    first
      | with_reducible assumption
      | with_reducible apply segsWrite_canonical
      | with_reducible apply reachTouch_canonical
      | (with_reducible refine canonical_foldl _ (fun _ _ _ => ?_) ?_)
      | with_reducible refine canonical_ite (fun _ => ?_) (fun _ => ?_)
      | split
      | refine canonical_upd ?_

theorem markUnit_canonical (s : State) (d k u : Nat) (on : Bool) (hc : CanonicalForm s) :
    CanonicalForm (markUnit s d k u on) := by
  unfold markUnit
  try dsimp only
  repeat'
    first
      | with_reducible assumption
      | with_reducible apply ctxPut_canonical
      | with_reducible apply setPoolFree_canonical
      | (with_reducible refine canonical_foldl _ (fun _ _ _ => ?_) ?_)
      | with_reducible refine canonical_ite (fun _ => ?_) (fun _ => ?_)
      | split
      | refine canonical_upd ?_

theorem allocUnit_canonical (s t : State) (d k a : Nat) (h : allocUnit s d k = some (a, t)) (hc : CanonicalForm s) : CanonicalForm t := by
  unfold allocUnit at h
  split at h
  · cases h
  · split at h
    · cases h
    · simp only [Option.some.injEq, Prod.mk.injEq] at h
      exact h.2 ▸ markUnit_canonical _ _ _ _ _ hc

theorem freeUnit_canonical (s : State) (d k a : Nat) (hc : CanonicalForm s) :
    CanonicalForm (freeUnit s d k a) := by
  unfold freeUnit
  try dsimp only
  repeat'
    first
      | with_reducible assumption
      | with_reducible apply markUnit_canonical
      | (with_reducible refine canonical_foldl _ (fun _ _ _ => ?_) ?_)
      | with_reducible refine canonical_ite (fun _ => ?_) (fun _ => ?_)
      | split
      | refine canonical_upd ?_

theorem tableRead_canonical (s : State) (d va : Nat) (hc : CanonicalForm s) :
    CanonicalForm (tableRead s d va).1 := by
  unfold tableRead
  try dsimp only
  repeat'
    first
      | with_reducible assumption
      | ((with_reducible apply canonical_fst); (· assumption); with_reducible apply dkRead_canonical)
      | with_reducible apply dkRead_canonical
      | (with_reducible refine canonical_foldl _ (fun _ _ _ => ?_) ?_)
      | with_reducible refine canonical_ite (fun _ => ?_) (fun _ => ?_)
      | split
      | refine canonical_upd ?_

theorem tableWrite_canonical (s : State) (d va v : Nat) (hc : CanonicalForm s) :
    CanonicalForm (tableWrite s d va v) := by
  unfold tableWrite
  try dsimp only
  repeat'
    first
      | with_reducible assumption
      | with_reducible apply ctxPut_canonical
      | (with_reducible refine canonical_foldl _ (fun _ _ _ => ?_) ?_)
      | with_reducible refine canonical_ite (fun _ => ?_) (fun _ => ?_)
      | split
      | refine canonical_upd ?_

theorem mapFolio_canonical (s : State) (c f : Nat) (hc : CanonicalForm s) : CanonicalForm (mapFolio s c f).1 := by
  unfold mapFolio
  dsimp only
  split
  · next h => exact canonical_fst h (tableRead_canonical _ _ _ hc)
  · next s1 e h =>
    have h1 : CanonicalForm s1 := canonical_fst h (tableRead_canonical _ _ _ hc)
    have hl (p : Nat × State) (hp : (if bit e 0 = true then some (e / 8192 * 8192, s1)
        else match allocUnit s1 (ctxOf s c).deckle 2 with
          | none => none
          | some (a, s2) => some (a, tableWrite (ctxPut s2 (ctxOf s c).deckle a (zeros 8192)) (ctxOf s c).deckle
              ((ctxOf s c).dir + 8 * (f / 1024)) (a + 1))) = some p) : CanonicalForm p.2 := by
      split at hp
      · cases hp; exact h1
      · split at hp
        · cases hp
        · next a s2 h2 =>
          cases hp
          exact tableWrite_canonical _ _ _ _ (ctxPut_canonical _ _ _ _ (allocUnit_canonical _ _ _ _ _ h2 h1))
    split
    · exact h1
    · next leaf s2 h2 =>
      have h2' := hl _ h2
      split
      · next h3 => exact canonical_fst h3 (tableRead_canonical _ _ _ h2')
      · next s3 l h3 =>
        have h3' : CanonicalForm s3 := canonical_fst h3 (tableRead_canonical _ _ _ h2')
        split
        · exact h3'
        · split
          · exact h3'
          · next a s4 h4 =>
            exact setCtx_canonical _ _ _ (tableWrite_canonical _ _ _ _ (allocUnit_canonical _ _ _ _ _ h4 h3'))

theorem mapFolios_canonical (s : State) (c : Nat) (l : List Nat) (hc : CanonicalForm s) : CanonicalForm ((mapFolios s c l).1) := by
  induction l generalizing s with
  | nil => exact hc
  | cons f l ih =>
    unfold mapFolios
    try dsimp only
    repeat'
      first
        | with_reducible assumption
        | with_reducible apply ih
        | ((with_reducible apply canonical_fst); (· assumption); with_reducible apply mapFolio_canonical)
        | with_reducible apply mapFolio_canonical
        | (with_reducible refine canonical_foldl _ (fun _ _ _ => ?_) ?_)
        | with_reducible refine canonical_ite (fun _ => ?_) (fun _ => ?_)
        | split
        | refine canonical_upd ?_

theorem takeReady_canonical (s : State) (hc : CanonicalForm s) :
    CanonicalForm (takeReady s).2 := (takeReady_only ..).canonical (by decide) hc

theorem renewReady_canonical (s : State) (c : Nat) (hc : CanonicalForm s) :
    CanonicalForm (renewReady s c) := (renewReady_only ..).canonical (by decide) hc

theorem ctxIdle_canonical (s : State) (c : Nat) (hc : CanonicalForm s) :
    CanonicalForm (ctxIdle s c) := by
  unfold ctxIdle
  try dsimp only
  repeat'
    first
      | with_reducible assumption
      | with_reducible apply freeUnit_canonical
      | with_reducible apply setModel_canonical
      | with_reducible apply setCtx_canonical
      | (with_reducible refine canonical_foldl _ (fun _ _ _ => ?_) ?_)
      | with_reducible refine canonical_ite (fun _ => ?_) (fun _ => ?_)
      | split
      | refine canonical_upd ?_

theorem completeAll_canonical (s : State) (l : List (Nat × Nat)) (hc : CanonicalForm s) :
    CanonicalForm (completeAll s l) := by
  unfold completeAll
  try dsimp only
  repeat'
    first
      | with_reducible assumption
      | with_reducible apply complete_canonical
      | (with_reducible refine canonical_foldl _ (fun _ _ _ => ?_) ?_)
      | with_reducible refine canonical_ite (fun _ => ?_) (fun _ => ?_)
      | split
      | refine canonical_upd ?_

theorem ctxCancel_canonical (s : State) (c : Nat) (hc : CanonicalForm s) :
    CanonicalForm (ctxCancel s c) := by
  unfold ctxCancel
  try dsimp only
  repeat'
    first
      | with_reducible assumption
      | with_reducible apply completeAll_canonical
      | with_reducible apply setCtx_canonical
      | (with_reducible refine canonical_foldl _ (fun _ _ _ => ?_) ?_)
      | with_reducible refine canonical_ite (fun _ => ?_) (fun _ => ?_)
      | split
      | refine canonical_upd ?_

theorem ctxSettle_canonical (s : State) (c : Nat) (hc : CanonicalForm s) :
    CanonicalForm (ctxSettle s c) := by
  unfold ctxSettle
  try dsimp only
  repeat'
    first
      | with_reducible assumption
      | with_reducible apply completeAll_canonical
      | with_reducible apply ctxIdle_canonical
      | (with_reducible refine canonical_foldl _ (fun _ _ _ => ?_) ?_)
      | with_reducible refine canonical_ite (fun _ => ?_) (fun _ => ?_)
      | split
      | refine canonical_upd ?_

theorem ctxRecord_canonical (s : State) (c kind fault token : Nat) (ends : Bool) (hc : CanonicalForm s) :
    CanonicalForm (ctxRecord s c kind fault token ends) := by
  unfold ctxRecord
  try dsimp only
  repeat'
    first
      | with_reducible assumption
      | with_reducible apply cqUnreserved_canonical
      | (with_reducible refine canonical_foldl _ (fun _ _ _ => ?_) ?_)
      | with_reducible refine canonical_ite (fun _ => ?_) (fun _ => ?_)
      | split
      | refine canonical_upd ?_

theorem commitToken_canonical (s : State) (c : Nat) (hc : CanonicalForm s) :
    CanonicalForm (commitToken s c) := by
  unfold commitToken
  try dsimp only
  repeat'
    first
      | with_reducible assumption
      | with_reducible apply ctxRecord_canonical
      | with_reducible apply setCtx_canonical
      | ((with_reducible apply canonical_fst); (· assumption); with_reducible apply dkWrite_canonical)
      | with_reducible apply dkWrite_canonical
      | (with_reducible refine canonical_foldl _ (fun _ _ _ => ?_) ?_)
      | with_reducible refine canonical_ite (fun _ => ?_) (fun _ => ?_)
      | split
      | refine canonical_upd ?_

theorem closeEntry_canonical (commit : Bool) (stepno : Nat) (s : State) (e : StepEntry) (hc : CanonicalForm s) :
    CanonicalForm (closeEntry commit stepno s e) := by
  unfold closeEntry
  try dsimp only
  repeat'
    first
      | with_reducible assumption
      | with_reducible apply commitToken_canonical
      | with_reducible apply ctxSettle_canonical
      | with_reducible apply ctxCancel_canonical
      | with_reducible apply renewReady_canonical
      | with_reducible apply setCtx_canonical
      | with_reducible apply fset_canonical
      | (with_reducible refine canonical_foldl _ (fun _ _ _ => ?_) ?_)
      | with_reducible refine canonical_ite (fun _ => ?_) (fun _ => ?_)
      | split
      | refine canonical_upd ?_

theorem closeStep_canonical (s : State) (q st : Nat) (commit : Bool) (hc : CanonicalForm s) :
    CanonicalForm (closeStep s q st commit) := by
  unfold closeStep
  try dsimp only
  repeat'
    first
      | with_reducible assumption
      | with_reducible apply closeEntry_canonical
      | with_reducible apply ctxCancel_canonical
      | with_reducible apply setStream_canonical
      | with_reducible apply fset_canonical
      | (with_reducible refine canonical_foldl _ (fun _ _ _ => ?_) ?_)
      | with_reducible refine canonical_ite (fun _ => ?_) (fun _ => ?_)
      | split
      | refine canonical_upd ?_


/-! ### Random numbers -/

theorem setDrbg_canonical (s : State) (g : Nat) (x : Drbg) (hc : CanonicalForm s) :
    CanonicalForm (setDrbg s g x) := (setDrbg_only ..).canonical (by decide) hc

theorem askBlock_canonical (s : State) (g : Nat) (r : RngReq) (hc : CanonicalForm s) :
    CanonicalForm (askBlock s g r) := (askBlock_only ..).canonical (by decide) hc

theorem setSource_canonical (s : State) (i : Nat) (x : Source) (hc : CanonicalForm s) :
    CanonicalForm (setSource s i x) := (setSource_only ..).canonical (by decide) hc

theorem setGroup_canonical (s : State) (g : Nat) (x : Group) (hc : CanonicalForm s) :
    CanonicalForm (setGroup s g x) := (setGroup_only ..).canonical (by decide) hc

theorem combine_canonical (g k : Nat) (s : State) (hc : CanonicalForm s) : CanonicalForm (combine g k s) :=
  (combine_only ..).canonical (by decide) hc

theorem vouch_canonical (s : State) (i : Nat) (b : List Byte) (hc : CanonicalForm s) :
    CanonicalForm (vouch s i b) := (vouch_only ..).canonical (by decide) hc

theorem regroupOne_canonical (s : State) (g : Nat) (hc : CanonicalForm s) :
    CanonicalForm (regroupOne s g) := by
  unfold regroupOne
  try dsimp only
  repeat'
    first
      | with_reducible assumption
      | with_reducible apply setGroup_canonical
      | with_reducible apply raise_canonical
      | (with_reducible refine canonical_foldl _ (fun _ _ _ => ?_) ?_)
      | with_reducible refine canonical_ite (fun _ => ?_) (fun _ => ?_)
      | split
      | refine canonical_upd ?_

theorem reborrow_canonical (s : State) (hc : CanonicalForm s) :
    CanonicalForm (reborrow s) := by
  unfold reborrow
  try dsimp only
  repeat'
    first
      | with_reducible assumption
      | with_reducible apply setGroup_canonical
      | with_reducible apply raise_canonical
      | (with_reducible refine canonical_foldl _ (fun _ _ _ => ?_) ?_)
      | with_reducible refine canonical_ite (fun _ => ?_) (fun _ => ?_)
      | split
      | refine canonical_upd ?_

theorem regroup_canonical (s : State) (hc : CanonicalForm s) :
    CanonicalForm (regroup s) := by
  unfold regroup
  try dsimp only
  repeat'
    first
      | with_reducible assumption
      | with_reducible apply reborrow_canonical
      | with_reducible apply regroupOne_canonical
      | with_reducible apply combine_canonical
      | (with_reducible refine canonical_foldl _ (fun _ _ _ => ?_) ?_)
      | with_reducible refine canonical_ite (fun _ => ?_) (fun _ => ?_)
      | split
      | refine canonical_upd ?_

theorem sampleGap_canonical (s : State) (i : Nat) (hc : CanonicalForm s) :
    CanonicalForm (sampleGap s i) := by
  unfold sampleGap
  try dsimp only
  repeat'
    first
      | with_reducible assumption
      | with_reducible apply setSource_canonical
      | with_reducible apply fadd_canonical
      | (with_reducible refine canonical_foldl _ (fun _ _ _ => ?_) ?_)
      | with_reducible refine canonical_ite (fun _ => ?_) (fun _ => ?_)
      | split
      | refine canonical_upd ?_

theorem testFails_canonical (s : State) (i : Nat) (tests : List Nat) (hc : CanonicalForm s) :
    CanonicalForm (testFails s i tests) := by
  unfold testFails
  try dsimp only
  repeat'
    first
      | with_reducible assumption
      | with_reducible apply regroup_canonical
      | with_reducible apply setSource_canonical
      | with_reducible apply raise_canonical
      | with_reducible apply logRecord_canonical
      | with_reducible apply fadd_canonical
      | with_reducible apply fset_canonical
      | (with_reducible refine canonical_foldl _ (fun _ _ _ => ?_) ?_)
      | with_reducible refine canonical_ite (fun _ => ?_) (fun _ => ?_)
      | split
      | refine canonical_upd ?_

theorem sampleUsed_canonical (s : State) (i : Nat) (x : Source) (v : Nat) (hc : CanonicalForm s) :
    CanonicalForm (sampleUsed s i x v) := by
  unfold sampleUsed
  try dsimp only
  repeat'
    first
      | with_reducible assumption
      | with_reducible apply regroup_canonical
      | with_reducible apply vouch_canonical
      | with_reducible apply setSource_canonical
      | (with_reducible refine canonical_foldl _ (fun _ _ _ => ?_) ?_)
      | with_reducible refine canonical_ite (fun _ => ?_) (fun _ => ?_)
      | split
      | refine canonical_upd ?_

theorem takeSample_canonical (i v0 : Nat) (s : State) (hc : CanonicalForm s) :
    CanonicalForm (takeSample i v0 s) := by
  unfold takeSample
  try dsimp only
  repeat'
    first
      | with_reducible assumption
      | with_reducible apply sampleUsed_canonical
      | with_reducible apply testFails_canonical
      | (with_reducible refine canonical_foldl _ (fun _ _ _ => ?_) ?_)
      | with_reducible refine canonical_ite (fun _ => ?_) (fun _ => ?_)
      | split
      | refine canonical_upd ?_

theorem enterFailed_canonical (s : State) (hc : CanonicalForm s) :
    CanonicalForm (enterFailed s) := by
  unfold enterFailed
  try dsimp only
  repeat'
    first
      | with_reducible assumption
      | with_reducible apply raise_canonical
      | with_reducible apply fset_canonical
      | (with_reducible refine canonical_foldl _ (fun _ _ _ => ?_) ?_)
      | with_reducible refine canonical_ite (fun _ => ?_) (fun _ => ?_)
      | split
      | refine canonical_upd ?_


/-! ### Quires and streams -/

theorem spareLine_canonical (s0 : State) (p bank code : Nat) (hc : CanonicalForm s0) :
    CanonicalForm (spareLine s0 p bank code) := by
  unfold spareLine
  try dsimp only
  repeat'
    first
      | with_reducible assumption
      | with_reducible apply handlerUse_canonical
      | with_reducible apply qreError_canonical
      | with_reducible apply bucketFull_canonical
      | with_reducible apply setPhys_canonical
      | with_reducible apply fadd_canonical
      | with_reducible apply fset_canonical
      | (with_reducible refine canonical_foldl _ (fun _ _ _ => ?_) ?_)
      | with_reducible refine canonical_ite (fun _ => ?_) (fun _ => ?_)
      | split
      | refine canonical_upd ?_

theorem addUpsets_canonical (s : State) (q : Nat) (us : List StoreUpset) (ps : List PathUpset) (hc : CanonicalForm s) :
    CanonicalForm (addUpsets s q us ps) := (addUpsets_only ..).canonical (by decide) hc

theorem dropStrikes_canonical (s : State) (q : Nat) (p : UPath) (hc : CanonicalForm s) :
    CanonicalForm (dropStrikes s q p) := (dropStrikes_only ..).canonical (by decide) hc

theorem spareWord_canonical (s : State) (q p word code : Nat) (hc : CanonicalForm s) :
    CanonicalForm (spareWord s q p word code) := by
  unfold spareWord
  try dsimp only
  repeat'
    first
      | with_reducible assumption
      | with_reducible apply spareLine_canonical
      | with_reducible apply setQuire_canonical
      | (with_reducible refine canonical_foldl _ (fun _ _ _ => ?_) ?_)
      | with_reducible refine canonical_ite (fun _ => ?_) (fun _ => ?_)
      | split
      | refine canonical_upd ?_

theorem spadDecode_canonical (s : State) (q : Nat) (word : Nat) (hc : CanonicalForm s) :
    CanonicalForm (spadDecode s q word) := by
  unfold spadDecode
  try dsimp only
  repeat'
    first
      | with_reducible assumption
      | with_reducible apply spareWord_canonical
      | with_reducible apply qreError_canonical
      | with_reducible apply setQuire_canonical
      | (with_reducible refine canonical_foldl _ (fun _ _ _ => ?_) ?_)
      | with_reducible refine canonical_ite (fun _ => ?_) (fun _ => ?_)
      | split
      | refine canonical_upd ?_

theorem spadTouch_canonical (s : State) (q a n : Nat) (hc : CanonicalForm s) :
    CanonicalForm (spadTouch s q a n) := by
  unfold spadTouch
  try dsimp only
  repeat'
    first
      | with_reducible assumption
      | with_reducible apply spadDecode_canonical
      | (with_reducible refine canonical_foldl _ (fun _ _ _ => ?_) ?_)
      | with_reducible refine canonical_ite (fun _ => ?_) (fun _ => ?_)
      | split
      | refine canonical_upd ?_

theorem spadRead_canonical (s : State) (q a n : Nat) (hc : CanonicalForm s) :
    CanonicalForm (spadRead s q a n).1 := by
  unfold spadRead
  try dsimp only
  repeat'
    first
      | with_reducible assumption
      | with_reducible apply spadTouch_canonical
      | (with_reducible refine canonical_foldl _ (fun _ _ _ => ?_) ?_)
      | with_reducible refine canonical_ite (fun _ => ?_) (fun _ => ?_)
      | split
      | refine canonical_upd ?_

theorem spadWrite_canonical (s : State) (q a : Nat) (bs : List Byte) (hc : CanonicalForm s) :
    CanonicalForm (spadWrite s q a bs) := by
  unfold spadWrite
  try dsimp only
  repeat'
    first
      | with_reducible assumption
      | with_reducible apply spadTouch_canonical
      | with_reducible apply setQuire_canonical
      | (with_reducible refine canonical_foldl _ (fun _ _ _ => ?_) ?_)
      | with_reducible refine canonical_ite (fun _ => ?_) (fun _ => ?_)
      | split
      | refine canonical_upd ?_

theorem wrS_canonical (s : State) (q st i v : Nat) (hc : CanonicalForm s) :
    CanonicalForm (wrS s q st i v) := (wrS_only ..).canonical (by decide) hc

theorem wrV_canonical (s : State) (q st i : Nat) (v : VReg) (hc : CanonicalForm s) :
    CanonicalForm (wrV s q st i v) := (wrV_only ..).canonical (by decide) hc

theorem wrP_canonical (s : State) (q st i : Nat) (v : Pred) (hc : CanonicalForm s) :
    CanonicalForm (wrP s q st i v) := (wrP_only ..).canonical (by decide) hc

theorem freshPred_canonical (s : State) (q st i : Nat) (whole : Nat → Bool) (hc : CanonicalForm s) :
    CanonicalForm (freshPred s q st i whole) := (freshPred_only ..).canonical (by decide) hc

theorem btrLog_canonical (s : State) (p rep ecc pipe st vreg elem pred act : Nat) (hc : CanonicalForm s) :
    CanonicalForm (btrLog s p rep ecc pipe st vreg elem pred act) := by
  unfold btrLog
  try dsimp only
  repeat'
    first
      | with_reducible assumption
      | with_reducible apply logRecord_canonical
      | (with_reducible refine canonical_foldl _ (fun _ _ _ => ?_) ?_)
      | with_reducible refine canonical_ite (fun _ => ?_) (fun _ => ?_)
      | split
      | refine canonical_upd ?_

theorem readWords_canonical (q st pipe : Nat) (store : Store) (name reg per : Nat) (a : State × List (Nat × Nat))
    (hc : CanonicalForm a.1) : CanonicalForm (readWords q st pipe store name reg per a).1 := by
  unfold readWords
  dsimp only
  generalize hp : pOf a.1 q = p
  clear hp
  refine List.foldlRecOn (motive := fun c : State × List (Nat × Nat) => CanonicalForm c.1) _ _ hc ?_
  intro c hc w _
  try dsimp only
  split
  · exact hc
  · split
    · dsimp only
      exact qreError_canonical _ _ _ _ _ _ _ (btrLog_canonical _ _ _ _ _ _ _ _ _ _ (fadd_canonical _ _ _ _ _ _ _ (setQuire_canonical _ _ _ hc)))
    · dsimp only
      exact qreError_canonical _ _ _ _ _ _ _ (btrLog_canonical _ _ _ _ _ _ _ _ _ _ hc)

theorem readRegs_canonical (s : State) (q : Nat) (f : Flight) (pipe width : Nat) (hc : CanonicalForm s) :
    CanonicalForm (readRegs s q f pipe width).1 := by
  unfold readRegs
  split
  · exact hc
  · dsimp only
    have h : CanonicalForm (f.vRd.foldl (fun a r => readWords q f.stream pipe (.vreg f.stream r) r r (64 / width) a) (s, [])).1 :=
      List.foldlRecOn (motive := fun c : State × List (Nat × Nat) => CanonicalForm c.1) _ _ hc (fun c h r _ => readWords_canonical _ _ _ _ _ _ _ _ h)
    exact List.foldlRecOn (motive := fun c : State × List (Nat × Nat) => CanonicalForm c.1) _ _ h (fun c h r _ => readWords_canonical _ _ _ _ _ _ _ _ h)

theorem dropFlight_canonical (s : State) (q st seq : Nat) (hc : CanonicalForm s) :
    CanonicalForm (dropFlight s q st seq) := (dropFlight_only ..).canonical (by decide) hc

theorem putFlight_canonical (s : State) (q : Nat) (f : Flight) (hc : CanonicalForm s) :
    CanonicalForm (putFlight s q f) := (putFlight_only ..).canonical (by decide) hc

theorem withdrawDraws_canonical (s : State) (q st : Nat) (hc : CanonicalForm s) :
    CanonicalForm (withdrawDraws s q st) := (withdrawDraws_only ..).canonical (by decide) hc

theorem withdrawSend_canonical (s : State) (q : Nat) (f : Flight) (hc : CanonicalForm s) :
    CanonicalForm (withdrawSend s q f) := (withdrawSend_only ..).canonical (by decide) hc

theorem dropWait_canonical (s : State) (q st seq : Nat) (hc : CanonicalForm s) :
    CanonicalForm (dropWait s q st seq) := (dropWait_only ..).canonical (by decide) hc

theorem freeSession_canonical (s : State) (n : Nat) (hc : CanonicalForm s) :
    CanonicalForm (freeSession s n) := (freeSession_only ..).canonical (by decide) hc

theorem endDraw_canonical (s : State) (f : Flight) (hc : CanonicalForm s) :
    CanonicalForm (endDraw s f) := (endDraw_only ..).canonical (by decide) hc

theorem endWait_canonical (q : Nat) (s : State) (f : Flight) (hc : CanonicalForm s) :
    CanonicalForm (endWait q s f) := (endWait_only ..).canonical (by decide) hc

theorem endWaits_canonical (s : State) (q st : Nat) (hc : CanonicalForm s) :
    CanonicalForm (endWaits s q st) := (endWaits_only ..).canonical (by decide) hc

theorem streamFault_canonical (s : State) (q st : Nat) (r : FaultRec) (hc : CanonicalForm s) :
    CanonicalForm (streamFault s q st r) := by
  unfold streamFault
  try dsimp only
  repeat'
    first
      | with_reducible assumption
      | with_reducible apply endWaits_canonical
      | with_reducible apply closeStep_canonical
      | with_reducible apply setStream_canonical
      | (with_reducible refine canonical_foldl _ (fun _ _ _ => ?_) ?_)
      | with_reducible refine canonical_ite (fun _ => ?_) (fun _ => ?_)
      | split
      | refine canonical_upd ?_

theorem exFault_canonical (s : State) (q : Nat) (f : Flight) (code : Nat) (hc : CanonicalForm s) :
    CanonicalForm (exFault s q f code) := by
  unfold exFault
  try dsimp only
  repeat'
    first
      | with_reducible assumption
      | with_reducible apply streamFault_canonical
      | with_reducible apply dropFlight_canonical
      | (with_reducible refine canonical_foldl _ (fun _ _ _ => ?_) ?_)
      | with_reducible refine canonical_ite (fun _ => ?_) (fun _ => ?_)
      | split
      | refine canonical_upd ?_

theorem memFault_canonical (s : State) (q : Nat) (f : Flight) (code : Nat) (dpa : Option Nat) (hc : CanonicalForm s) :
    CanonicalForm (memFault s q f code dpa) := by
  unfold memFault
  try dsimp only
  repeat'
    first
      | with_reducible assumption
      | with_reducible apply exFault_canonical
      | with_reducible apply qrePoison_canonical
      | (with_reducible refine canonical_foldl _ (fun _ _ _ => ?_) ?_)
      | with_reducible refine canonical_ite (fun _ => ?_) (fun _ => ?_)
      | split
      | refine canonical_upd ?_

theorem beginLeave_canonical (s : State) (q st : Nat) (hc : CanonicalForm s) :
    CanonicalForm (beginLeave s q st) := (beginLeave_only ..).canonical (by decide) hc

theorem finishLeave_canonical (s : State) (q st : Nat) (hc : CanonicalForm s) :
    CanonicalForm (finishLeave s q st) := (finishLeave_only ..).canonical (by decide) hc

theorem settleStream_canonical (s : State) (q st : Nat) (hc : CanonicalForm s) :
    CanonicalForm (settleStream s q st) := by
  unfold settleStream
  try dsimp only
  repeat'
    first
      | with_reducible assumption
      | with_reducible apply finishLeave_canonical
      | with_reducible apply beginLeave_canonical
      | with_reducible apply closeStep_canonical
      | with_reducible apply complete_canonical
      | with_reducible apply setStream_canonical
      | (with_reducible refine canonical_foldl _ (fun _ _ _ => ?_) ?_)
      | with_reducible refine canonical_ite (fun _ => ?_) (fun _ => ?_)
      | split
      | refine canonical_upd ?_

theorem settleQuire_canonical (s : State) (q : Nat) (hc : CanonicalForm s) :
    CanonicalForm (settleQuire s q) := by
  unfold settleQuire
  try dsimp only
  repeat'
    first
      | with_reducible assumption
      | with_reducible apply settleStream_canonical
      | (with_reducible refine canonical_foldl _ (fun _ _ _ => ?_) ?_)
      | with_reducible refine canonical_ite (fun _ => ?_) (fun _ => ?_)
      | split
      | refine canonical_upd ?_


/-! ### Fetch and issue -/

theorem issueFault_canonical (s : State) (q st maj sub code : Nat) (hc : CanonicalForm s) :
    CanonicalForm (issueFault s q st maj sub code) := by
  unfold issueFault
  try dsimp only
  repeat'
    first
      | with_reducible assumption
      | with_reducible apply settleQuire_canonical
      | with_reducible apply streamFault_canonical
      | with_reducible apply setStream_canonical
      | (with_reducible refine canonical_foldl _ (fun _ _ _ => ?_) ?_)
      | with_reducible refine canonical_ite (fun _ => ?_) (fun _ => ?_)
      | split
      | refine canonical_upd ?_

theorem consumeLines_canonical (s : State) (q : Nat) (mem : List (Nat × Nat)) (hc : CanonicalForm s) :
    CanonicalForm (consumeLines s q mem) := (consumeLines_only ..).canonical (by decide) hc

theorem codeWord_canonical (s : State) (q : Nat) (g : Program) (pc : Nat) (hc : CanonicalForm s) :
    CanonicalForm (codeWord s q g pc).1 := by
  unfold codeWord
  try dsimp only
  repeat'
    first
      | with_reducible assumption
      | ((with_reducible apply canonical_fst); (· assumption); with_reducible apply fetch_canonical)
      | with_reducible apply fetch_canonical
      | with_reducible apply consumeLines_canonical
      | ((with_reducible apply canonical_fst); (· assumption); with_reducible apply dkRead_canonical)
      | with_reducible apply dkRead_canonical
      | with_reducible apply qrePoison_canonical
      | (with_reducible refine canonical_foldl _ (fun _ _ _ => ?_) ?_)
      | with_reducible refine canonical_ite (fun _ => ?_) (fun _ => ?_)
      | split
      | refine canonical_upd ?_

theorem fetch_canonical (s : State) (q st : Nat) (hc : CanonicalForm s) :
    CanonicalForm (fetch s q st).1 := by
  unfold fetch
  try dsimp only
  repeat'
    first
      | with_reducible assumption
      | ((with_reducible apply canonical_fst); (· assumption); with_reducible apply codeWord_canonical)
      | with_reducible apply codeWord_canonical
      | (with_reducible refine canonical_foldl _ (fun _ _ _ => ?_) ?_)
      | with_reducible refine canonical_ite (fun _ => ?_) (fun _ => ?_)
      | split
      | refine canonical_upd ?_

theorem advance_canonical (s0 : State) (q st : Nat) (w : IWord) (hc : CanonicalForm s0) :
    CanonicalForm (advance s0 q st w) := by
  unfold advance
  try dsimp only
  repeat'
    first
      | with_reducible assumption
      | with_reducible apply setStream_canonical
      | with_reducible apply fadd_canonical
      | (with_reducible refine canonical_foldl _ (fun _ _ _ => ?_) ?_)
      | with_reducible refine canonical_ite (fun _ => ?_) (fun _ => ?_)
      | split
      | refine canonical_upd ?_

theorem guardRead_canonical (s : State) (q : Nat) (f : Flight) (guard : Nat) (hc : CanonicalForm s) :
    CanonicalForm (guardRead s q f guard).1 := by
  unfold guardRead
  try dsimp only
  repeat'
    first
      | with_reducible assumption
      | ((with_reducible apply canonical_fst); (· assumption); with_reducible apply readRegs_canonical)
      | with_reducible apply readRegs_canonical
      | (with_reducible refine canonical_foldl _ (fun _ _ _ => ?_) ?_)
      | with_reducible refine canonical_ite (fun _ => ?_) (fun _ => ?_)
      | split
      | refine canonical_upd ?_

theorem guardPassed_canonical (s : State) (q st : Nat) (w : IWord) (o : Op) (hc : CanonicalForm s) :
    CanonicalForm (guardPassed s q st w o).1 := by
  unfold guardPassed
  try dsimp only
  repeat'
    first
      | with_reducible assumption
      | ((with_reducible apply canonical_fst); (· assumption); with_reducible apply guardRead_canonical)
      | with_reducible apply guardRead_canonical
      | (with_reducible refine canonical_foldl _ (fun _ _ _ => ?_) ?_)
      | with_reducible refine canonical_ite (fun _ => ?_) (fun _ => ?_)
      | split
      | refine canonical_upd ?_

theorem stall_canonical (s : State) (q : Nat) (hc : CanonicalForm s) :
    CanonicalForm (stall s q) := by
  unfold stall
  try dsimp only
  repeat'
    first
      | with_reducible assumption
      | ((with_reducible apply canonical_snd); (· assumption); with_reducible apply takeFree_canonical)
      | with_reducible apply takeFree_canonical
      | with_reducible apply fadd_canonical
      | (with_reducible refine canonical_foldl _ (fun _ _ _ => ?_) ?_)
      | with_reducible refine canonical_ite (fun _ => ?_) (fun _ => ?_)
      | split
      | refine canonical_upd ?_

/-- The machine right after reset is in canonical form. -/
theorem canonical_reset : CanonicalForm State.reset := ⟨by decide, by decide, by decide⟩

/-- An issue keeps the canonical form where the instruction's start does. -/
theorem issue_canonical (s : State) (q st : Nat) (w : IWord) (o : Op) (plan : State → Flight → Issue)
    (start : State → Flight → State) (hs : ∀ t f, CanonicalForm t → CanonicalForm (start t f)) (hc : CanonicalForm s) :
    CanonicalForm (issue s q st w o plan start) := by
  unfold issue
  refine canonical_ite (fun _ => hc) (fun _ => ?_)
  split
  · next s1 c h =>
    exact issueFault_canonical _ _ _ _ _ _ (takeFree_canonical _ (canonical_fst h (fetch_canonical _ _ _ hc)))
  · next s1 b e h =>
    have h1 : CanonicalForm s1 := canonical_fst h (fetch_canonical _ _ _ hc)
    have h2 := guardPassed_canonical s1 q st w o h1
    have hw := stall_canonical s q hc
    dsimp only
    generalize guardPassed s1 q st w o = r at h2 ⊢
    have ha := advance_canonical r.1 q st w h2
    have hf (maj sub code : Nat) := issueFault_canonical s1 q st maj sub code h1
    have hg (maj sub code : Nat) := issueFault_canonical r.1 q st maj sub code h2
    refine canonical_ite (fun _ => hf _ _ _) (fun _ => canonical_ite (fun _ => hc) (fun _ => canonical_ite (fun _ => hf _ _ _)
      (fun _ => canonical_ite (fun _ => hc) (fun _ => canonical_ite (fun _ => settleQuire_canonical _ _ (exFault_canonical _ _ _ _ ha))
      (fun _ => canonical_ite (fun _ => settleQuire_canonical _ _ ha) (fun _ => canonical_ite (fun _ => hc) (fun _ => canonical_ite (fun _ => hw)
      (fun _ => canonical_ite (fun _ => hg _ _ _) (fun _ => canonical_ite (fun _ => setStream_canonical _ _ _ _ hc)
      (fun _ => canonical_ite (fun _ => hw) (fun _ => canonical_ite (fun _ => ?_) (fun _ => ?_))))))))))))
    · exact settleQuire_canonical _ _ (putFlight_canonical _ _ _ ha)
    · exact settleQuire_canonical _ _ (hs _ _ (consumeLines_canonical _ _ _ ha))

end Sys2Proof.Laws
end

