-- ==== Sys2Proof/Laws/Exec.lean ====
section
/-! SUPPORT. What each command is, one equation a constructor, so that no proof unfolds the dispatch. -/

namespace Sys2Proof.Laws

open Sys2Proof.Machine

set_option Elab.async false

@[simp] theorem exec_powerApplied (s) : exec .powerApplied s = execPowerApplied s := rfl
@[simp] theorem exec_inputOutOfRange (s) : exec .inputOutOfRange s = execInputOutOfRange s := rfl
@[simp] theorem exec_inputSample (mv ma) (s) : exec (.inputSample mv ma) s = execInputSample mv ma s := rfl
@[simp] theorem exec_perstNAssert (s) : exec .perstNAssert s = execPerstNAssert s := rfl
@[simp] theorem exec_perstNRelease (b) (s) : exec (.perstNRelease b) s = execPerstNRelease b s := rfl
@[simp] theorem exec_gctReset (fn value b) (s) : exec (.gctReset fn value b) s = execGctReset fn value b s := rfl
@[simp] theorem exec_flr (f) (s) : exec (.flr f) s = execFlr f s := rfl
@[simp] theorem exec_configurationRequest (fn a) (s) : exec (.configurationRequest fn a) s = execConfigurationRequest fn a s := rfl
@[simp] theorem exec_quireReset (fn p) (s) : exec (.quireReset fn p) s = execQuireReset fn p s := rfl
@[simp] theorem exec_rawPinEdge (pin level) (s) : exec (.rawPinEdge pin level) s = execRawPinEdge pin level s := rfl
@[simp] theorem exec_filterOutputChange (pin) (s) : exec (.filterOutputChange pin) s = execFilterOutputChange pin s := rfl
@[simp] theorem exec_pinHeld (pin) (s) : exec (.pinHeld pin) s = execPinHeld pin s := rfl
@[simp] theorem exec_pwrbrkNAssert (s) : exec .pwrbrkNAssert s = execPwrbrkNAssert s := rfl
@[simp] theorem exec_pwrbrkNRelease (s) : exec .pwrbrkNRelease s = execPwrbrkNRelease s := rfl
@[simp] theorem exec_throtNAssert (s) : exec .throtNAssert s = execThrotNAssert s := rfl
@[simp] theorem exec_throtNRelease (s) : exec .throtNRelease s = execThrotNRelease s := rfl
@[simp] theorem exec_shutdnNAssert (s) : exec .shutdnNAssert s = execShutdnNAssert s := rfl
@[simp] theorem exec_shutdownRailsOff (s) : exec .shutdownRailsOff s = execShutdownRailsOff s := rfl
@[simp] theorem exec_shutdnNRelease (s) : exec .shutdnNRelease s = execShutdnNRelease s := rfl
@[simp] theorem exec_registerWrite (fn addr size value) (s) : exec (.registerWrite fn addr size value) s = execRegisterWrite fn addr size value s := rfl
@[simp] theorem exec_latchingRead (fn addr) (s) : exec (.latchingRead fn addr) s = execLatchingRead fn addr s := rfl
@[simp] theorem exec_logClear (fn addr size value) (s) : exec (.logClear fn addr size value) s = execLogClear fn addr size value s := rfl
@[simp] theorem exec_bar2Read (fn off len) (s) : exec (.bar2Read fn off len) s = execBar2Read fn off len s := rfl
@[simp] theorem exec_bar2Write (fn off data) (s) : exec (.bar2Write fn off data) s = execBar2Write fn off data s := rfl
@[simp] theorem exec_hostWindowRead (fn f inTime) (s) : exec (.hostWindowRead fn f inTime) s = execHostWindowRead fn f inTime s := rfl
@[simp] theorem exec_doorbell (fn ring value) (s) : exec (.doorbell fn ring value) s = execDoorbell fn ring value s := rfl
@[simp] theorem exec_completionDoorbell (fn ring value) (s) : exec (.completionDoorbell fn ring value) s = execCompletionDoorbell fn ring value s := rfl
@[simp] theorem exec_ringEnable (fn ring value) (s) : exec (.ringEnable fn ring value) s = execRingEnable fn ring value s := rfl
@[simp] theorem exec_ringDisable (fn ring value) (s) : exec (.ringDisable fn ring value) s = execRingDisable fn ring value s := rfl
@[simp] theorem exec_haltClear (fn f value) (s) : exec (.haltClear fn f value) s = execHaltClear fn f value s := rfl
@[simp] theorem exec_descriptorFetch (ring hostOk) (s) : exec (.descriptorFetch ring hostOk) s = execDescriptorFetch ring hostOk s := rfl
@[simp] theorem exec_descriptorStart (ring id) (s) : exec (.descriptorStart ring id) s = execDescriptorStart ring id s := rfl
@[simp] theorem exec_interruptTimer (ring) (s) : exec (.interruptTimer ring) s = execInterruptTimer ring s := rfl
@[simp] theorem exec_nop (ring id) (s) : exec (.nop ring id) s = execNop ring id s := rfl
@[simp] theorem exec_dispatch (ring id) (s) : exec (.dispatch ring id) s = execDispatch ring id s := rfl
@[simp] theorem exec_load (ring id h) (s) : exec (.load ring id h) s = execLoad ring id h s := rfl
@[simp] theorem exec_unload (ring id) (s) : exec (.unload ring id) s = execUnload ring id s := rfl
@[simp] theorem exec_dma (ring id h) (s) : exec (.dma ring id h) s = execDma ring id h s := rfl
@[simp] theorem exec_mload (ring id h) (s) : exec (.mload ring id h) s = execMload ring id h s := rfl
@[simp] theorem exec_submit (ring id h) (s) : exec (.submit ring id h) s = execSubmit ring id h s := rfl
@[simp] theorem exec_cancel (ring id) (s) : exec (.cancel ring id) s = execCancel ring id s := rfl
@[simp] theorem exec_detach (ring id) (s) : exec (.detach ring id) s = execDetach ring id s := rfl
@[simp] theorem exec_setparam (ring id) (s) : exec (.setparam ring id) s = execSetparam ring id s := rfl
@[simp] theorem exec_modelLoad (ring id) (s) : exec (.modelLoad ring id) s = execModelLoad ring id s := rfl
@[simp] theorem exec_modelLoaded (d m h) (s) : exec (.modelLoaded d m h) s = execModelLoaded d m h s := rfl
@[simp] theorem exec_modelUnload (ring id) (s) : exec (.modelUnload ring id) s = execModelUnload ring id s := rfl
@[simp] theorem exec_basisRegister (ring id) (s) : exec (.basisRegister ring id) s = execBasisRegister ring id s := rfl
@[simp] theorem exec_basisRelease (ring id) (s) : exec (.basisRelease ring id) s = execBasisRelease ring id s := rfl
@[simp] theorem exec_keyRegister (ring id) (s) : exec (.keyRegister ring id) s = execKeyRegister ring id s := rfl
@[simp] theorem exec_keyRelease (ring id) (s) : exec (.keyRelease ring id) s = execKeyRelease ring id s := rfl
@[simp] theorem exec_releaseDrainEnd (d n) (s) : exec (.releaseDrainEnd d n) s = execReleaseDrainEnd d n s := rfl
@[simp] theorem exec_aggAbandon (ring id) (s) : exec (.aggAbandon ring id) s = execAggAbandon ring id s := rfl
@[simp] theorem exec_sessionReleased (session) (s) : exec (.sessionReleased session) s = execSessionReleased session s := rfl
@[simp] theorem exec_xltMap (ring id) (s) : exec (.xltMap ring id) s = execXltMap ring id s := rfl
@[simp] theorem exec_xltUnmap (ring id) (s) : exec (.xltUnmap ring id) s = execXltUnmap ring id s := rfl
@[simp] theorem exec_getVersion (s) : exec .getVersion s = execGetVersion s := rfl
@[simp] theorem exec_getCapabilities (s) : exec .getCapabilities s = execGetCapabilities s := rfl
@[simp] theorem exec_negotiateAlgorithms (hash aead) (s) : exec (.negotiateAlgorithms hash aead) s = execNegotiateAlgorithms hash aead s := rfl
@[simp] theorem exec_pskExchange (hint context) (s) : exec (.pskExchange hint context) s = execPskExchange hint context s := rfl
@[simp] theorem exec_pskFinish (sess verified) (s) : exec (.pskFinish sess verified) s = execPskFinish sess verified s := rfl
@[simp] theorem exec_heartbeat (sess) (s) : exec (.heartbeat sess) s = execHeartbeat sess s := rfl
@[simp] theorem exec_keyUpdate (sess) (s) : exec (.keyUpdate sess) s = execKeyUpdate sess s := rfl
@[simp] theorem exec_endSession (sess) (s) : exec (.endSession sess) s = execEndSession sess s := rfl
@[simp] theorem exec_getMeasurements (sess index nonce) (s) : exec (.getMeasurements sess index nonce) s = execGetMeasurements sess index nonce s := rfl
@[simp] theorem exec_chunkSend (handle seq last data) (s) : exec (.chunkSend handle seq last data) s = execChunkSend handle seq last data s := rfl
@[simp] theorem exec_chunkGet (handle seq) (s) : exec (.chunkGet handle seq) s = execChunkGet handle seq s := rfl
@[simp] theorem exec_vendorDefinedRequest (sess payload) (s) : exec (.vendorDefinedRequest sess payload) s = execVendorDefinedRequest sess payload s := rfl
@[simp] theorem exec_unsupportedRequest (code) (s) : exec (.unsupportedRequest code) s = execUnsupportedRequest code s := rfl
@[simp] theorem exec_keyProg (sess stream keySet key) (s) : exec (.keyProg sess stream keySet key) s = execKeyProg sess stream keySet key s := rfl
@[simp] theorem exec_kSetGo (sess stream keySet) (s) : exec (.kSetGo sess stream keySet) s = execKSetGo sess stream keySet s := rfl
@[simp] theorem exec_kSetStop (sess stream keySet) (s) : exec (.kSetStop sess stream keySet) s = execKSetStop sess stream keySet s := rfl
@[simp] theorem exec_query (sess) (s) : exec (.query sess) s = execQuery sess s := rfl
@[simp] theorem exec_ideFail (stream) (s) : exec (.ideFail stream) s = execIdeFail stream s := rfl
@[simp] theorem exec_getTdispVersion (sess vf) (s) : exec (.getTdispVersion sess vf) s = execGetTdispVersion sess vf s := rfl
@[simp] theorem exec_getTdispCapabilities (sess vf) (s) : exec (.getTdispCapabilities sess vf) s = execGetTdispCapabilities sess vf s := rfl
@[simp] theorem exec_lockInterfaceRequest (sess vf) (s) : exec (.lockInterfaceRequest sess vf) s = execLockInterfaceRequest sess vf s := rfl
@[simp] theorem exec_getDeviceInterfaceReport (sess vf) (s) : exec (.getDeviceInterfaceReport sess vf) s = execGetDeviceInterfaceReport sess vf s := rfl
@[simp] theorem exec_getDeviceInterfaceState (sess vf) (s) : exec (.getDeviceInterfaceState sess vf) s = execGetDeviceInterfaceState sess vf s := rfl
@[simp] theorem exec_startInterfaceRequest (sess vf) (s) : exec (.startInterfaceRequest sess vf) s = execStartInterfaceRequest sess vf s := rfl
@[simp] theorem exec_stopInterfaceRequest (sess vf) (s) : exec (.stopInterfaceRequest sess vf) s = execStopInterfaceRequest sess vf s := rfl
@[simp] theorem exec_sAdd (q st w) (s) : exec (.sAdd q st w) s = execSAdd q st w s := rfl
@[simp] theorem exec_sSub (q st w) (s) : exec (.sSub q st w) s = execSSub q st w s := rfl
@[simp] theorem exec_sAnd (q st w) (s) : exec (.sAnd q st w) s = execSAnd q st w s := rfl
@[simp] theorem exec_sOr (q st w) (s) : exec (.sOr q st w) s = execSOr q st w s := rfl
@[simp] theorem exec_sXor (q st w) (s) : exec (.sXor q st w) s = execSXor q st w s := rfl
@[simp] theorem exec_sShl (q st w) (s) : exec (.sShl q st w) s = execSShl q st w s := rfl
@[simp] theorem exec_sShr (q st w) (s) : exec (.sShr q st w) s = execSShr q st w s := rfl
@[simp] theorem exec_sSra (q st w) (s) : exec (.sSra q st w) s = execSSra q st w s := rfl
@[simp] theorem exec_sSlt (q st w) (s) : exec (.sSlt q st w) s = execSSlt q st w s := rfl
@[simp] theorem exec_sSltu (q st w) (s) : exec (.sSltu q st w) s = execSSltu q st w s := rfl
@[simp] theorem exec_sAddImmediate (q st w) (s) : exec (.sAddImmediate q st w) s = execSAddImmediate q st w s := rfl
@[simp] theorem exec_sSubImmediate (q st w) (s) : exec (.sSubImmediate q st w) s = execSSubImmediate q st w s := rfl
@[simp] theorem exec_sAndImmediate (q st w) (s) : exec (.sAndImmediate q st w) s = execSAndImmediate q st w s := rfl
@[simp] theorem exec_sOrImmediate (q st w) (s) : exec (.sOrImmediate q st w) s = execSOrImmediate q st w s := rfl
@[simp] theorem exec_sXorImmediate (q st w) (s) : exec (.sXorImmediate q st w) s = execSXorImmediate q st w s := rfl
@[simp] theorem exec_sShlImmediate (q st w) (s) : exec (.sShlImmediate q st w) s = execSShlImmediate q st w s := rfl
@[simp] theorem exec_sShrImmediate (q st w) (s) : exec (.sShrImmediate q st w) s = execSShrImmediate q st w s := rfl
@[simp] theorem exec_sSraImmediate (q st w) (s) : exec (.sSraImmediate q st w) s = execSSraImmediate q st w s := rfl
@[simp] theorem exec_sSltImmediate (q st w) (s) : exec (.sSltImmediate q st w) s = execSSltImmediate q st w s := rfl
@[simp] theorem exec_sSltuImmediate (q st w) (s) : exec (.sSltuImmediate q st w) s = execSSltuImmediate q st w s := rfl
@[simp] theorem exec_sMul (q st w) (s) : exec (.sMul q st w) s = execSMul q st w s := rfl
@[simp] theorem exec_sMulhu (q st w) (s) : exec (.sMulhu q st w) s = execSMulhu q st w s := rfl
@[simp] theorem exec_sMulhs (q st w) (s) : exec (.sMulhs q st w) s = execSMulhs q st w s := rfl
@[simp] theorem exec_sDiv (q st w) (s) : exec (.sDiv q st w) s = execSDiv q st w s := rfl
@[simp] theorem exec_sDivu (q st w) (s) : exec (.sDivu q st w) s = execSDivu q st w s := rfl
@[simp] theorem exec_sRem (q st w) (s) : exec (.sRem q st w) s = execSRem q st w s := rfl
@[simp] theorem exec_sRemu (q st w) (s) : exec (.sRemu q st w) s = execSRemu q st w s := rfl
@[simp] theorem exec_sBeq (q st w) (s) : exec (.sBeq q st w) s = execSBeq q st w s := rfl
@[simp] theorem exec_sBne (q st w) (s) : exec (.sBne q st w) s = execSBne q st w s := rfl
@[simp] theorem exec_sBlt (q st w) (s) : exec (.sBlt q st w) s = execSBlt q st w s := rfl
@[simp] theorem exec_sBltu (q st w) (s) : exec (.sBltu q st w) s = execSBltu q st w s := rfl
@[simp] theorem exec_sJmp (q st w) (s) : exec (.sJmp q st w) s = execSJmp q st w s := rfl
@[simp] theorem exec_sJr (q st w) (s) : exec (.sJr q st w) s = execSJr q st w s := rfl
@[simp] theorem exec_sLd (q st w) (s) : exec (.sLd q st w) s = execSLd q st w s := rfl
@[simp] theorem exec_sSt (q st w) (s) : exec (.sSt q st w) s = execSSt q st w s := rfl
@[simp] theorem exec_sLi (q st w) (s) : exec (.sLi q st w) s = execSLi q st w s := rfl
@[simp] theorem exec_sLiu (q st w) (s) : exec (.sLiu q st w) s = execSLiu q st w s := rfl
@[simp] theorem exec_sPand (q st w) (s) : exec (.sPand q st w) s = execSPand q st w s := rfl
@[simp] theorem exec_sPor (q st w) (s) : exec (.sPor q st w) s = execSPor q st w s := rfl
@[simp] theorem exec_sPxor (q st w) (s) : exec (.sPxor q st w) s = execSPxor q st w s := rfl
@[simp] theorem exec_sPnot (q st w) (s) : exec (.sPnot q st w) s = execSPnot q st w s := rfl
@[simp] theorem exec_sPset (q st w) (s) : exec (.sPset q st w) s = execSPset q st w s := rfl
@[simp] theorem exec_vAdd (q st w) (s) : exec (.vAdd q st w) s = execVAdd q st w s := rfl
@[simp] theorem exec_vSub (q st w) (s) : exec (.vSub q st w) s = execVSub q st w s := rfl
@[simp] theorem exec_vMul (q st w) (s) : exec (.vMul q st w) s = execVMul q st w s := rfl
@[simp] theorem exec_vFma (q st w) (s) : exec (.vFma q st w) s = execVFma q st w s := rfl
@[simp] theorem exec_vMin (q st w) (s) : exec (.vMin q st w) s = execVMin q st w s := rfl
@[simp] theorem exec_vMax (q st w) (s) : exec (.vMax q st w) s = execVMax q st w s := rfl
@[simp] theorem exec_vCmp (q st w) (s) : exec (.vCmp q st w) s = execVCmp q st w s := rfl
@[simp] theorem exec_vCvt (q st w) (s) : exec (.vCvt q st w) s = execVCvt q st w s := rfl
@[simp] theorem exec_vIadd (q st w) (s) : exec (.vIadd q st w) s = execVIadd q st w s := rfl
@[simp] theorem exec_vIsub (q st w) (s) : exec (.vIsub q st w) s = execVIsub q st w s := rfl
@[simp] theorem exec_vImul (q st w) (s) : exec (.vImul q st w) s = execVImul q st w s := rfl
@[simp] theorem exec_vShl (q st w) (s) : exec (.vShl q st w) s = execVShl q st w s := rfl
@[simp] theorem exec_vShr (q st w) (s) : exec (.vShr q st w) s = execVShr q st w s := rfl
@[simp] theorem exec_vSra (q st w) (s) : exec (.vSra q st w) s = execVSra q st w s := rfl
@[simp] theorem exec_vAnd (q st w) (s) : exec (.vAnd q st w) s = execVAnd q st w s := rfl
@[simp] theorem exec_vOr (q st w) (s) : exec (.vOr q st w) s = execVOr q st w s := rfl
@[simp] theorem exec_vXor (q st w) (s) : exec (.vXor q st w) s = execVXor q st w s := rfl
@[simp] theorem exec_vImin (q st w) (s) : exec (.vImin q st w) s = execVImin q st w s := rfl
@[simp] theorem exec_vImax (q st w) (s) : exec (.vImax q st w) s = execVImax q st w s := rfl
@[simp] theorem exec_vExp2 (q st w) (s) : exec (.vExp2 q st w) s = execVExp2 q st w s := rfl
@[simp] theorem exec_vLog2 (q st w) (s) : exec (.vLog2 q st w) s = execVLog2 q st w s := rfl
@[simp] theorem exec_vRcp (q st w) (s) : exec (.vRcp q st w) s = execVRcp q st w s := rfl
@[simp] theorem exec_vRsqrt (q st w) (s) : exec (.vRsqrt q st w) s = execVRsqrt q st w s := rfl
@[simp] theorem exec_vSqrt (q st w) (s) : exec (.vSqrt q st w) s = execVSqrt q st w s := rfl
@[simp] theorem exec_vTanh (q st w) (s) : exec (.vTanh q st w) s = execVTanh q st w s := rfl
@[simp] theorem exec_vRsum (q st w) (s) : exec (.vRsum q st w) s = execVRsum q st w s := rfl
@[simp] theorem exec_vRmax (q st w) (s) : exec (.vRmax q st w) s = execVRmax q st w s := rfl
@[simp] theorem exec_vRmin (q st w) (s) : exec (.vRmin q st w) s = execVRmin q st w s := rfl
@[simp] theorem exec_vPerm (q st w) (s) : exec (.vPerm q st w) s = execVPerm q st w s := rfl
@[simp] theorem exec_vBitrev (q st w) (s) : exec (.vBitrev q st w) s = execVBitrev q st w s := rfl
@[simp] theorem exec_vLd (q st w) (s) : exec (.vLd q st w) s = execVLd q st w s := rfl
@[simp] theorem exec_vSt (q st w) (s) : exec (.vSt q st w) s = execVSt q st w s := rfl
@[simp] theorem exec_pipeStart (q pipe u) (s) : exec (.pipeStart q pipe u) s = execPipeStart q pipe u s := rfl
@[simp] theorem exec_mAdd (q st w) (s) : exec (.mAdd q st w) s = execMAdd q st w s := rfl
@[simp] theorem exec_mSub (q st w) (s) : exec (.mSub q st w) s = execMSub q st w s := rfl
@[simp] theorem exec_mNeg (q st w) (s) : exec (.mNeg q st w) s = execMNeg q st w s := rfl
@[simp] theorem exec_mMuls (q st w) (s) : exec (.mMuls q st w) s = execMMuls q st w s := rfl
@[simp] theorem exec_mMulg (q st w) (s) : exec (.mMulg q st w) s = execMMulg q st w s := rfl
@[simp] theorem exec_mTomont (q st w) (s) : exec (.mTomont q st w) s = execMTomont q st w s := rfl
@[simp] theorem exec_mFrommont (q st w) (s) : exec (.mFrommont q st w) s = execMFrommont q st w s := rfl
@[simp] theorem exec_mBfly (q st w) (s) : exec (.mBfly q st w) s = execMBfly q st w s := rfl
@[simp] theorem exec_mSetq (q st w) (s) : exec (.mSetq q st w) s = execMSetq q st w s := rfl
@[simp] theorem exec_tZero (q st w) (s) : exec (.tZero q st w) s = execTZero q st w s := rfl
@[simp] theorem exec_tPreload (q st w) (s) : exec (.tPreload q st w) s = execTPreload q st w s := rfl
@[simp] theorem exec_tMma (q st w) (s) : exec (.tMma q st w) s = execTMma q st w s := rfl
@[simp] theorem exec_pass (q sheet u) (s) : exec (.pass q sheet u) s = execPass q sheet u s := rfl
@[simp] theorem exec_tMerge (q st w) (s) : exec (.tMerge q st w) s = execTMerge q st w s := rfl
@[simp] theorem exec_tDrain (q st w) (s) : exec (.tDrain q st w) s = execTDrain q st w s := rfl
@[simp] theorem exec_tRmax (q st w) (s) : exec (.tRmax q st w) s = execTRmax q st w s := rfl
@[simp] theorem exec_tRmin (q st w) (s) : exec (.tRmin q st w) s = execTRmin q st w s := rfl
@[simp] theorem exec_orderingOperationStart (q sheet slot fmt) (s) : exec (.orderingOperationStart q sheet slot fmt) s = execOrderingOperationStart q sheet slot fmt s := rfl
@[simp] theorem exec_pNtt (q st w) (s) : exec (.pNtt q st w) s = execPNtt q st w s := rfl
@[simp] theorem exec_pIntt (q st w) (s) : exec (.pIntt q st w) s = execPIntt q st w s := rfl
@[simp] theorem exec_pAuto (q st w) (s) : exec (.pAuto q st w) s = execPAuto q st w s := rfl
@[simp] theorem exec_pKsw (q st w) (s) : exec (.pKsw q st w) s = execPKsw q st w s := rfl
@[simp] theorem exec_pRescale (q st w) (s) : exec (.pRescale q st w) s = execPRescale q st w s := rfl
@[simp] theorem exec_pBoot (q st w) (s) : exec (.pBoot q st w) s = execPBoot q st w s := rfl
@[simp] theorem exec_pGate (q st w) (s) : exec (.pGate q st w) s = execPGate q st w s := rfl
@[simp] theorem exec_pLut (q st w) (s) : exec (.pLut q st w) s = execPLut q st w s := rfl
@[simp] theorem exec_pAdd (q st w) (s) : exec (.pAdd q st w) s = execPAdd q st w s := rfl
@[simp] theorem exec_pSub (q st w) (s) : exec (.pSub q st w) s = execPSub q st w s := rfl
@[simp] theorem exec_pMulp (q st w) (s) : exec (.pMulp q st w) s = execPMulp q st w s := rfl
@[simp] theorem exec_pMulc (q st w) (s) : exec (.pMulc q st w) s = execPMulc q st w s := rfl
@[simp] theorem exec_aOpen (q st w) (s) : exec (.aOpen q st w) s = execAOpen q st w s := rfl
@[simp] theorem exec_aIngest (q st w) (s) : exec (.aIngest q st w) s = execAIngest q st w s := rfl
@[simp] theorem exec_aExpand (q st w) (s) : exec (.aExpand q st w) s = execAExpand q st w s := rfl
@[simp] theorem exec_aStage (q st w) (s) : exec (.aStage q st w) s = execAStage q st w s := rfl
@[simp] theorem exec_aCommit (q st w) (s) : exec (.aCommit q st w) s = execACommit q st w s := rfl
@[simp] theorem exec_aAbort (q st w) (s) : exec (.aAbort q st w) s = execAAbort q st w s := rfl
@[simp] theorem exec_aRetract (q st w) (s) : exec (.aRetract q st w) s = execARetract q st w s := rfl
@[simp] theorem exec_aFinal (q st w) (s) : exec (.aFinal q st w) s = execAFinal q st w s := rfl
@[simp] theorem exec_cAttach (q st w) (s) : exec (.cAttach q st w) s = execCAttach q st w s := rfl
@[simp] theorem exec_cStep (q st w) (s) : exec (.cStep q st w) s = execCStep q st w s := rfl
@[simp] theorem exec_cSample (q st w) (s) : exec (.cSample q st w) s = execCSample q st w s := rfl
@[simp] theorem exec_cSwap (q st w) (s) : exec (.cSwap q st w) s = execCSwap q st w s := rfl
@[simp] theorem exec_swapEnd (ctx) (s) : exec (.swapEnd ctx) s = execSwapEnd ctx s := rfl
@[simp] theorem exec_autoSwapOut (d) (s) : exec (.autoSwapOut d) s = execAutoSwapOut d s := rfl
@[simp] theorem exec_autoSwapIn (d) (s) : exec (.autoSwapIn d) s = execAutoSwapIn d s := rfl
@[simp] theorem exec_dCopy (q st w) (s) : exec (.dCopy q st w) s = execDCopy q st w s := rfl
@[simp] theorem exec_dPref (q st w) (s) : exec (.dPref q st w) s = execDPref q st w s := rfl
@[simp] theorem exec_dMload (q st w) (s) : exec (.dMload q st w) s = execDMload q st w s := rfl
@[simp] theorem exec_prefetchRequest (q hs) (s) : exec (.prefetchRequest q hs) s = execPrefetchRequest q hs s := rfl
@[simp] theorem exec_xFence (q st w) (s) : exec (.xFence q st w) s = execXFence q st w s := rfl
@[simp] theorem exec_fenceEnd (q st) (s) : exec (.fenceEnd q st) s = execFenceEnd q st s := rfl
@[simp] theorem exec_xWait (q st w) (s) : exec (.xWait q st w) s = execXWait q st w s := rfl
@[simp] theorem exec_xWaitEnd (q st) (s) : exec (.xWaitEnd q st) s = execXWaitEnd q st s := rfl
@[simp] theorem exec_xWaitTimeout (q st) (s) : exec (.xWaitTimeout q st) s = execXWaitTimeout q st s := rfl
@[simp] theorem exec_xSignal (q st w) (s) : exec (.xSignal q st w) s = execXSignal q st w s := rfl
@[simp] theorem exec_xBar (q st w) (s) : exec (.xBar q st w) s = execXBar q st w s := rfl
@[simp] theorem exec_xBarRelease (q st) (s) : exec (.xBarRelease q st) s = execXBarRelease q st s := rfl
@[simp] theorem exec_xSend (q st w) (s) : exec (.xSend q st w) s = execXSend q st w s := rfl
@[simp] theorem exec_xRecv (q st w) (s) : exec (.xRecv q st w) s = execXRecv q st w s := rfl
@[simp] theorem exec_xEnd (q st w) (s) : exec (.xEnd q st w) s = execXEnd q st w s := rfl
@[simp] theorem exec_kSha (q st w) (s) : exec (.kSha q st w) s = execKSha q st w s := rfl
@[simp] theorem exec_kAes (q st w) (s) : exec (.kAes q st w) s = execKAes q st w s := rfl
@[simp] theorem exec_kShake (q st w) (s) : exec (.kShake q st w) s = execKShake q st w s := rfl
@[simp] theorem exec_release (fn p value) (s) : exec (.release fn p value) s = execRelease fn p value s := rfl
@[simp] theorem exec_roleAssignment (fn p value) (s) : exec (.roleAssignment fn p value) s = execRoleAssignment fn p value s := rfl
@[simp] theorem exec_messageArrival (src dst) (s) : exec (.messageArrival src dst) s = execMessageArrival src dst s := rfl
@[simp] theorem exec_messageResend (src dst) (s) : exec (.messageResend src dst) s = execMessageResend src dst s := rfl
@[simp] theorem exec_returnArrival (q) (s) : exec (.returnArrival q) s = execReturnArrival q s := rfl
@[simp] theorem exec_controllerRequest (dpa r) (s) : exec (.controllerRequest dpa r) s = execControllerRequest dpa r s := rfl
@[simp] theorem exec_zeroFill (frame) (s) : exec (.zeroFill frame) s = execZeroFill frame s := rfl
@[simp] theorem exec_zeroRequestEnd (engine) (s) : exec (.zeroRequestEnd engine) s = execZeroRequestEnd engine s := rfl
@[simp] theorem exec_patrolScrubRead (c us) (s) : exec (.patrolScrubRead c us) s = execPatrolScrubRead c us s := rfl
@[simp] theorem exec_translationEnable (fn d value) (s) : exec (.translationEnable fn d value) s = execTranslationEnable fn d value s := rfl
@[simp] theorem exec_translationDisable (fn d value) (s) : exec (.translationDisable fn d value) s = execTranslationDisable fn d value s := rfl
@[simp] theorem exec_flipArm (fn c value) (s) : exec (.flipArm fn c value) s = execFlipArm fn c value s := rfl
@[simp] theorem exec_soft (fn c value) (s) : exec (.soft fn c value) s = execSoft fn c value s := rfl
@[simp] theorem exec_hard (fn c r) (s) : exec (.hard fn c r) s = execHard fn c r s := rfl
@[simp] theorem exec_softRepairEnd (c spare) (s) : exec (.softRepairEnd c spare) s = execSoftRepairEnd c spare s := rfl
@[simp] theorem exec_poolEnable (fn d value) (s) : exec (.poolEnable fn d value) s = execPoolEnable fn d value s := rfl
@[simp] theorem exec_poolDisable (fn d value) (s) : exec (.poolDisable fn d value) s = execPoolDisable fn d value s := rfl
@[simp] theorem exec_portEnable (fn p value) (s) : exec (.portEnable fn p value) s = execPortEnable fn p value s := rfl
@[simp] theorem exec_portDisable (fn p value) (s) : exec (.portDisable fn p value) s = execPortDisable fn p value s := rfl
@[simp] theorem exec_trainingComplete (p lanes) (s) : exec (.trainingComplete p lanes) s = execTrainingComplete p lanes s := rfl
@[simp] theorem exec_linkLoss (p lanes) (s) : exec (.linkLoss p lanes) s = execLinkLoss p lanes s := rfl
@[simp] theorem exec_linkHoldExpired (p) (s) : exec (.linkHoldExpired p) s = execLinkHoldExpired p s := rfl
@[simp] theorem exec_helloTransmit (p) (s) : exec (.helloTransmit p) s = execHelloTransmit p s := rfl
@[simp] theorem exec_izkaiHello (p) (s) : exec (.izkaiHello p) s = execIzkaiHello p s := rfl
@[simp] theorem exec_negotiateFail (p) (s) : exec (.negotiateFail p) s = execNegotiateFail p s := rfl
@[simp] theorem exec_pfcFrame (p classes quanta) (s) : exec (.pfcFrame p classes quanta) s = execPfcFrame p classes quanta s := rfl
@[simp] theorem exec_xoff (p) (s) : exec (.xoff p) s = execXoff p s := rfl
@[simp] theorem exec_xon (p) (s) : exec (.xon p) s = execXon p s := rfl
@[simp] theorem exec_pfcStorm (p prio) (s) : exec (.pfcStorm p prio) s = execPfcStorm p prio s := rfl
@[simp] theorem exec_frameReceive (p frame) (s) : exec (.frameReceive p frame) s = execFrameReceive p frame s := rfl
@[simp] theorem exec_write (p) (s) : exec (.write p) s = execWrite p s := rfl
@[simp] theorem exec_writeImm (p) (s) : exec (.writeImm p) s = execWriteImm p s := rfl
@[simp] theorem exec_send (p) (s) : exec (.send p) s = execSend p s := rfl
@[simp] theorem exec_readReq (p) (s) : exec (.readReq p) s = execReadReq p s := rfl
@[simp] theorem exec_readResp (p) (s) : exec (.readResp p) s = execReadResp p s := rfl
@[simp] theorem exec_ack (p) (s) : exec (.ack p) s = execAck p s := rfl
@[simp] theorem exec_nak (p) (s) : exec (.nak p) s = execNak p s := rfl
@[simp] theorem exec_credit (p) (s) : exec (.credit p) s = execCredit p s := rfl
@[simp] theorem exec_creditReq (p) (s) : exec (.creditReq p) s = execCreditReq p s := rfl
@[simp] theorem exec_terminate (p) (s) : exec (.terminate p) s = execTerminate p s := rfl
@[simp] theorem exec_ackTimer (qp path) (s) : exec (.ackTimer qp path) s = execAckTimer qp path s := rfl
@[simp] theorem exec_rtoExpiry (qp path) (s) : exec (.rtoExpiry qp path) s = execRtoExpiry qp path s := rfl
@[simp] theorem exec_rnrDelayExpiry (qp path) (s) : exec (.rnrDelayExpiry qp path) s = execRnrDelayExpiry qp path s := rfl
@[simp] theorem exec_creditTimeout (qp) (s) : exec (.creditTimeout qp) s = execCreditTimeout qp s := rfl
@[simp] theorem exec_msgTmoExpiry (qp msn) (s) : exec (.msgTmoExpiry qp msn) s = execMsgTmoExpiry qp msn s := rfl
@[simp] theorem exec_qpDoorbell (qp recv) (s) : exec (.qpDoorbell qp recv) s = execQpDoorbell qp recv s := rfl
@[simp] theorem exec_sendEntryStart (qp) (s) : exec (.sendEntryStart qp) s = execSendEntryStart qp s := rfl
@[simp] theorem exec_triggeredStart (qp) (s) : exec (.triggeredStart qp) s = execTriggeredStart qp s := rfl
@[simp] theorem exec_qpCreate (fn d value) (s) : exec (.qpCreate fn d value) s = execQpCreate fn d value s := rfl
@[simp] theorem exec_qpModify (fn d value) (s) : exec (.qpModify fn d value) s = execQpModify fn d value s := rfl
@[simp] theorem exec_qpDestroy (fn d value) (s) : exec (.qpDestroy fn d value) s = execQpDestroy fn d value s := rfl
@[simp] theorem exec_cqCreate (fn d value) (s) : exec (.cqCreate fn d value) s = execCqCreate fn d value s := rfl
@[simp] theorem exec_cqDestroy (fn d value) (s) : exec (.cqDestroy fn d value) s = execCqDestroy fn d value s := rfl
@[simp] theorem exec_mrReg (fn d value) (s) : exec (.mrReg fn d value) s = execMrReg fn d value s := rfl
@[simp] theorem exec_mrDereg (fn d value) (s) : exec (.mrDereg fn d value) s = execMrDereg fn d value s := rfl
@[simp] theorem exec_revocationDrainEnd (d) (s) : exec (.revocationDrainEnd d) s = execRevocationDrainEnd d s := rfl
@[simp] theorem exec_primaryUnlock (dom) (s) : exec (.primaryUnlock dom) s = execPrimaryUnlock dom s := rfl
@[simp] theorem exec_standbyUnlock (dom) (s) : exec (.standbyUnlock dom) s = execStandbyUnlock dom s := rfl
@[simp] theorem exec_pllDualLost (dom) (s) : exec (.pllDualLost dom) s = execPllDualLost dom s := rfl
@[simp] theorem exec_refLost (r) (s) : exec (.refLost r) s = execRefLost r s := rfl
@[simp] theorem exec_refPresent (r) (s) : exec (.refPresent r) s = execRefPresent r s := rfl
@[simp] theorem exec_primaryRelock (dom) (s) : exec (.primaryRelock dom) s = execPrimaryRelock dom s := rfl
@[simp] theorem exec_switchBack (fn value) (s) : exec (.switchBack fn value) s = execSwitchBack fn value s := rfl
@[simp] theorem exec_aclkStep (s) : exec .aclkStep s = execAclkStep s := rfl
@[simp] theorem exec_cdcPtrMismatch (cls inst packets) (s) : exec (.cdcPtrMismatch cls inst packets) s = execCdcPtrMismatch cls inst packets s := rfl
@[simp] theorem exec_eventRecordEntry (s) : exec .eventRecordEntry s = execEventRecordEntry s := rfl
@[simp] theorem exec_eventDelivery (dest) (s) : exec (.eventDelivery dest) s = execEventDelivery dest s := rfl
@[simp] theorem exec_eventRingEnable (fn f value) (s) : exec (.eventRingEnable fn f value) s = execEventRingEnable fn f value s := rfl
@[simp] theorem exec_eventRingDisable (fn f value) (s) : exec (.eventRingDisable fn f value) s = execEventRingDisable fn f value s := rfl
@[simp] theorem exec_eventHead (fn f value) (s) : exec (.eventHead fn f value) s = execEventHead fn f value s := rfl
@[simp] theorem exec_fatalClear (fn size value) (s) : exec (.fatalClear fn size value) s = execFatalClear fn size value s := rfl
@[simp] theorem exec_sample (src v) (s) : exec (.sample src v) s = execSample src v s := rfl
@[simp] theorem exec_instantiate (g) (s) : exec (.instantiate g) s = execInstantiate g s := rfl
@[simp] theorem exec_generate (g) (s) : exec (.generate g) s = execGenerate g s := rfl
@[simp] theorem exec_reseed (g) (s) : exec (.reseed g) s = execReseed g s := rfl
@[simp] theorem exec_htInjArm (fn value) (s) : exec (.htInjArm fn value) s = execHtInjArm fn value s := rfl
@[simp] theorem exec_seal (fn value) (s) : exec (.seal fn value) s = execSeal fn value s := rfl
@[simp] theorem exec_loadKey (fn d value) (s) : exec (.loadKey fn d value) s = execLoadKey fn d value s := rfl
@[simp] theorem exec_destroy (fn d value) (s) : exec (.destroy fn d value) s = execDestroy fn d value s := rfl
@[simp] theorem exec_create (src cmd cmd2) (s) : exec (.create src cmd cmd2) s = execCreate src cmd cmd2 s := rfl
@[simp] theorem exec_grant (src cmd cmd2) (s) : exec (.grant src cmd cmd2) s = execGrant src cmd cmd2 s := rfl
@[simp] theorem exec_reclaim (src cmd cmd2) (s) : exec (.reclaim src cmd cmd2) s = execReclaim src cmd cmd2 s := rfl
@[simp] theorem exec_reset (src cmd cmd2) (s) : exec (.reset src cmd cmd2) s = execReset src cmd cmd2 s := rfl
@[simp] theorem exec_remove (src cmd cmd2) (s) : exec (.remove src cmd cmd2) s = execRemove src cmd cmd2 s := rfl
@[simp] theorem exec_drainClose (d) (s) : exec (.drainClose d) s = execDrainClose d s := rfl
@[simp] theorem exec_keyDestruction (d) (s) : exec (.keyDestruction d) s = execKeyDestruction d s := rfl
@[simp] theorem exec_scrubEnd (d) (s) : exec (.scrubEnd d) s = execScrubEnd d s := rfl
@[simp] theorem exec_eraseEnd (d) (s) : exec (.eraseEnd d) s = execEraseEnd d s := rfl
@[simp] theorem exec_liveActivation (s) : exec .liveActivation s = execLiveActivation s := rfl
@[simp] theorem exec_reportSigned (s) : exec .reportSigned s = execReportSigned s := rfl
@[simp] theorem exec_retire (fn p) (s) : exec (.retire fn p) s = execRetire fn p s := rfl
@[simp] theorem exec_errAck (fn p) (s) : exec (.errAck fn p) s = execErrAck fn p s := rfl
@[simp] theorem exec_windowExpiry (p) (s) : exec (.windowExpiry p) s = execWindowExpiry p s := rfl
@[simp] theorem exec_retirement (failed) (s) : exec (.retirement failed) s = execRetirement failed s := rfl
@[simp] theorem exec_quireBucketLeak (p) (s) : exec (.quireBucketLeak p) s = execQuireBucketLeak p s := rfl
@[simp] theorem exec_frameBucketLeak (c) (s) : exec (.frameBucketLeak c) s = execFrameBucketLeak c s := rfl
@[simp] theorem exec_shtInjArm (fn p value) (s) : exec (.shtInjArm fn p value) s = execShtInjArm fn p value s := rfl
@[simp] theorem exec_btrInjArm (fn p value) (s) : exec (.btrInjArm fn p value) s = execBtrInjArm fn p value s := rfl
@[simp] theorem exec_laneFailure (lanes) (s) : exec (.laneFailure lanes) s = execLaneFailure lanes s := rfl
@[simp] theorem exec_tick (s) : exec .tick s = execTick s := rfl
@[simp] theorem exec_excursion (s) : exec .excursion s = execExcursion s := rfl
@[simp] theorem exec_peak (s) : exec .peak s = execPeak s := rfl
@[simp] theorem exec_droop (p) (s) : exec (.droop p) s = execDroop p s := rfl
@[simp] theorem exec_sensorRead (x) (s) : exec (.sensorRead x) s = execSensorRead x s := rfl
@[simp] theorem exec_caldrop (s) : exec .caldrop s = execCaldrop s := rfl
@[simp] theorem exec_idleWindow (tableMax) (s) : exec (.idleWindow tableMax) s = execIdleWindow tableMax s := rfl
@[simp] theorem exec_hello (slot) (s) : exec (.hello slot) s = execHello slot s := rfl
@[simp] theorem exec_bye (slot) (s) : exec (.bye slot) s = execBye slot s := rfl
@[simp] theorem exec_identity (slot) (s) : exec (.identity slot) s = execIdentity slot s := rfl
@[simp] theorem exec_telemetry (slot) (s) : exec (.telemetry slot) s = execTelemetry slot s := rfl
@[simp] theorem exec_report (slot) (s) : exec (.report slot) s = execReport slot s := rfl
@[simp] theorem exec_power (slot) (s) : exec (.power slot) s = execPower slot s := rfl
@[simp] theorem exec_pliacReset (slot b) (s) : exec (.pliacReset slot b) s = execPliacReset slot b s := rfl
@[simp] theorem exec_pliacRetire (slot failed) (s) : exec (.pliacRetire slot failed) s = execPliacRetire slot failed s := rfl
@[simp] theorem exec_partition (slot) (s) : exec (.partition slot) s = execPartition slot s := rfl
@[simp] theorem exec_partitionStatus (slot) (s) : exec (.partitionStatus slot) s = execPartitionStatus slot s := rfl
@[simp] theorem exec_lcSet (slot b) (s) : exec (.lcSet slot b) s = execLcSet slot b s := rfl
@[simp] theorem exec_mode (slot) (s) : exec (.mode slot) s = execMode slot s := rfl
@[simp] theorem exec_arbAdvance (slot) (s) : exec (.arbAdvance slot) s = execArbAdvance slot s := rfl
@[simp] theorem exec_imgBegin (slot) (s) : exec (.imgBegin slot) s = execImgBegin slot s := rfl
@[simp] theorem exec_eraseDone (s) : exec .eraseDone s = execEraseDone s := rfl
@[simp] theorem exec_imgWrite (slot) (s) : exec (.imgWrite slot) s = execImgWrite slot s := rfl
@[simp] theorem exec_imgCommit (slot sigOk) (s) : exec (.imgCommit slot sigOk) s = execImgCommit slot sigOk s := rfl
@[simp] theorem exec_imgStatus (slot) (s) : exec (.imgStatus slot) s = execImgStatus slot s := rfl
@[simp] theorem exec_stagingTimeout (s) : exec .stagingTimeout s = execStagingTimeout s := rfl
@[simp] theorem exec_linkKey (slot) (s) : exec (.linkKey slot) s = execLinkKey slot s := rfl
@[simp] theorem exec_credInstall (slot) (s) : exec (.credInstall slot) s = execCredInstall slot s := rfl
@[simp] theorem exec_credRemove (slot) (s) : exec (.credRemove slot) s = execCredRemove slot s := rfl
@[simp] theorem exec_eventSub (slot) (s) : exec (.eventSub slot) s = execEventSub slot s := rfl
@[simp] theorem exec_eventAck (slot) (s) : exec (.eventAck slot) s = execEventAck slot s := rfl
@[simp] theorem exec_event (slot) (s) : exec (.event slot) s = execEvent slot s := rfl
@[simp] theorem exec_eventResend (slot) (s) : exec (.eventResend slot) s = execEventResend slot s := rfl
@[simp] theorem exec_sessionTimeout (slot) (s) : exec (.sessionTimeout slot) s = execSessionTimeout slot s := rfl
@[simp] theorem exec_datagramReceive (d) (s) : exec (.datagramReceive d) s = execDatagramReceive d s := rfl
@[simp] theorem exec_neighborSolicitation (e src target) (s) : exec (.neighborSolicitation e src target) s = execNeighborSolicitation e src target s := rfl
@[simp] theorem exec_echoRequest (e src dst data) (s) : exec (.echoRequest e src dst data) s = execEchoRequest e src dst data s := rfl
@[simp] theorem exec_smbusIdentityRead (s) : exec .smbusIdentityRead s = execSmbusIdentityRead s := rfl
@[simp] theorem exec_smbusDieTemperature (s) : exec .smbusDieTemperature s = execSmbusDieTemperature s := rfl
@[simp] theorem exec_smbusMemoryTemperature (s) : exec .smbusMemoryTemperature s = execSmbusMemoryTemperature s := rfl
@[simp] theorem exec_smbusImageSeq (s) : exec .smbusImageSeq s = execSmbusImageSeq s := rfl
@[simp] theorem exec_smbusFaultStatus (s) : exec .smbusFaultStatus s = execSmbusFaultStatus s := rfl
@[simp] theorem exec_smbusWrite (command) (s) : exec (.smbusWrite command) s = execSmbusWrite command s := rfl
@[simp] theorem exec_standbyRelock (dom) (s) : exec (.standbyRelock dom) s = execStandbyRelock dom s := rfl
@[simp] theorem exec_tapAccess (a) (s) : exec (.tapAccess a) s = execTapAccess a s := rfl
@[simp] theorem exec_jtagLifeCycleRequest (target b) (s) : exec (.jtagLifeCycleRequest target b) s = execJtagLifeCycleRequest target b s := rfl
@[simp] theorem exec_hostLinkReenable (s) : exec .hostLinkReenable s = execHostLinkReenable s := rfl
@[simp] theorem exec_pauseExpiry (p prio) (s) : exec (.pauseExpiry p prio) s = execPauseExpiry p prio s := rfl
@[simp] theorem exec_droopRecovery (p) (s) : exec (.droopRecovery p) s = execDroopRecovery p s := rfl
@[simp] theorem exec_managementLinkChange (up) (s) : exec (.managementLinkChange up) s = execManagementLinkChange up s := rfl

end Sys2Proof.Laws
end

