-- ==== Sys2Proof/Laws/Issue.lean ====
section
/-! SUPPORT. What the issue of a Zidal instruction does, said once. -/

namespace Sys2Proof.Laws

open Sys2Proof.Machine Sys2Proof.Safety

set_option Elab.async false

theorem bits_eq (x hi lo : Nat) : bits x hi lo = x / 2 ^ lo % 2 ^ (hi + 1 - lo) := by
  simp [bits, Nat.shiftRight_eq_div_pow]

theorem baseWord_maj (maj sub : Nat) (w : IWord) (hm : maj < 64) (hs : sub < 32) : bits (baseWord maj sub w) 63 58 = maj := by
  have h1 := w.ord.isLt; have h2 := w.pg.isLt; have h3 := w.f1.isLt; have h4 := w.f2.isLt; have h5 := w.low.isLt
  have h6 : b2n w.long ≤ 1 := by unfold b2n; split <;> omega
  rw [bits_eq]; unfold baseWord; omega

theorem baseWord_sub (maj sub : Nat) (w : IWord) (hs : sub < 32) : bits (baseWord maj sub w) 51 47 = sub := by
  have h1 := w.ord.isLt; have h2 := w.pg.isLt; have h3 := w.f1.isLt; have h4 := w.f2.isLt; have h5 := w.low.isLt
  have h6 : b2n w.long ≤ 1 := by unfold b2n; split <;> omega
  rw [bits_eq]; unfold baseWord; omega

theorem assigned_lt (maj sub : Nat) (h : assigned maj sub = true) : maj < 64 ∧ sub < 32 := by
  unfold assigned at h
  split at h <;> simp at h <;> omega

/-- An instruction that a stream takes, and that neither faults, nor waits for a place, nor is held, starts. -/
theorem issue_starts {s : State} {q st : Nat} {o : Op} {w : IWord} {s1 : State} (h : Takes s q st o w s1)
    (ha : assigned o.maj o.sub = true) (plan : State → Flight → Issue) (start : State → Flight → State)
    (hf : (plan s1 (newFlight s1 q st w o)).fault = 0) (hfull : (plan s1 (newFlight s1 q st w o)).full = false)
    (haw : (plan s1 (newFlight s1 q st w o)).await = [])
    (hb : o.maj = 0x14 ∨ ((plan s1 (newFlight s1 q st w o)).wait = false
      ∧ blocked (quire s1 q) (plan s1 (newFlight s1 q st w o)).f = false)) :
    issue s q st w o plan start
      = settleQuire (start (consumeLines (advance s1 q st w) q (plan s1 (newFlight s1 q st w o)).f.mem)
          (plan s1 (newFlight s1 q st w o)).f) q := by
  obtain ⟨hm, ⟨s0, ⟨e, hft, he⟩, hd, hg, hp, hgo⟩, hk, hz, hw⟩ := h
  obtain ⟨h1, h2⟩ := assigned_lt _ _ ha
  have hi : isWord o.maj o.sub w (baseWord o.maj o.sub w) e = true := by
    unfold isWord
    cases hl : w.long
    · simp
    · simp [he hl]
  have hgd : (w.pg.toNat != 0 && (flightsOf (quire s0 q) st).any (fun g => g.pWr.contains w.pg.toNat)) = false := by
    rcases hp with hp | hp
    · simp [hp]
    · simp only [hp, Bool.and_false]
  have hmk : (!o.masks && !((stream s1 q st).p w.pg.toNat).getLsbD 0) = false := by
    rcases hk with hk | hk <;> simp [hk]
  unfold scalarReads at hz
  have hbl : (o.maj != 0x14 && ((plan s1 (newFlight s1 q st w o)).wait
      || blocked (quire s1 q) (plan s1 (newFlight s1 q st w o)).f)) = false := by
    rcases hb with hb | ⟨hb, hb'⟩
    · simp [hb]
    · simp [hb, hb']
  unfold issue
  simp only [hm, Bool.not_true, Bool.false_eq_true, if_false, hft, baseWord_maj _ _ w h1 h2, baseWord_sub _ _ w h2, ha, hi, hd, hg,
    Bool.and_self, hgd, hgo, hmk, hz, hw, hf, hfull, hbl, haw, List.isEmpty_nil, bne_self_eq_false]

@[simp] theorem consumeLines_nil (s : State) (q : Nat) : consumeLines s q [] = s := by simp [consumeLines]

/-- Nothing reserves what an instruction that writes no scratchpad would write (R46). -/
theorem reservedFrom_nil (x : Quire) (f : Flight) (h : f.spWr = []) : reservedFrom x f = false := by
  simp [reservedFrom, rangesMeet, h]

/-- An instruction with no ranges and no ordered effect, and no tagged P. instruction, is held by nothing. -/
theorem blocked_newFlight (x : Quire) (s : State) (q st : Nat) (w : IWord) (o : Op) (h : o.effect = false) (ht : o.maj ≠ 0x18) :
    blocked x (newFlight s q st w o) = false := by
  have hr := reservedFrom_nil x (newFlight s q st w o) rfl
  simp only [blocked, hr]
  simp [taggedBefore, isTagged, newFlight, h, ht, rangesMeet]

/-- An instruction with no checks of its own that a stream takes acts at once on the state past it. -/
theorem issue_plain {s : State} {q st : Nat} {o : Op} {w : IWord} {s1 : State} (h : Takes s q st o w s1)
    (ha : assigned o.maj o.sub = true) (he : o.effect = false) (ht : o.maj ≠ 0x18) (start : State → Flight → State) :
    issue s q st w o planNone start = settleQuire (start (advance s1 q st w) (newFlight s1 q st w o)) q := by
  rw [issue_starts h ha planNone start rfl rfl rfl (Or.inr ⟨rfl, blocked_newFlight _ _ _ _ _ _ he ht⟩)]
  show settleQuire (start (consumeLines _ q []) _) q = _
  rw [consumeLines_nil]; rfl

@[simp] theorem newFlight_val0 (s : State) (q st : Nat) (w : IWord) (o : Op) :
    (newFlight s q st w o).val 0 = (stream s q st).s w.f1.toNat := rfl
@[simp] theorem newFlight_val1 (s : State) (q st : Nat) (w : IWord) (o : Op) :
    (newFlight s q st w o).val 1 = (stream s q st).s w.f2.toNat := rfl
@[simp] theorem newFlight_val2 (s : State) (q st : Nat) (w : IWord) (o : Op) :
    (newFlight s q st w o).val 2 = (stream s q st).s (f3Of w) := rfl
@[simp] theorem newFlight_val3 (s : State) (q st : Nat) (w : IWord) (o : Op) :
    (newFlight s q st w o).val 3 = (stream s q st).s (f4Of w) := rfl
@[simp] theorem newFlight_pc (s : State) (q st : Nat) (w : IWord) (o : Op) :
    (newFlight s q st w o).pc = (stream s q st).pc := rfl

end Sys2Proof.Laws
end

