-- ==== Sys2Proof/Laws/State.lean ====
section
/-! SUPPORT. What the setters of the state change and leave, so that no proof unfolds a record update. -/

namespace Sys2Proof.Laws

open Sys2Proof.Machine

set_option Elab.async false

/-! ### Reading what was stored -/

@[simp] theorem quire_setQuire (s : State) (q : Nat) (x : Quire) : quire (setQuire s q x) q = x := tget_tset_same _ _ _ _
theorem quire_setQuire_ne (s : State) (q p : Nat) (x : Quire) (h : p ≠ q) : quire (setQuire s q x) p = quire s p :=
  tget_tset_ne _ _ _ _ _ h
@[simp] theorem stream_setStream (x : Quire) (st : Nat) (v : Stream) : (x.setStream st v).stream st = v := tget_tset_same _ _ _ _
theorem stream_setStream_ne (x : Quire) (st r : Nat) (v : Stream) (h : r ≠ st) : (x.setStream st v).stream r = x.stream r :=
  tget_tset_ne _ _ _ _ _ h
@[simp] theorem phys_setPhys (s : State) (p : Nat) (x : Phys) : phys (setPhys s p x) p = x := tget_tset_same _ _ _ _
@[simp] theorem deckle_setDeckle (s : State) (d : Nat) (x : Deckle) : deckle (setDeckle s d x) d = x := tget_tset_same _ _ _ _
theorem deckle_setDeckle_ne (s : State) (d e : Nat) (x : Deckle) (h : e ≠ d) : deckle (setDeckle s d x) e = deckle s e :=
  tget_tset_ne _ _ _ _ _ h
@[simp] theorem ring_setRing (s : State) (r : Nat) (x : Ring) : ring (setRing s r x) r = x := tget_tset_same _ _ _ _
theorem ring_setRing_ne (s : State) (r p : Nat) (x : Ring) (h : p ≠ r) : ring (setRing s r x) p = ring s p :=
  tget_tset_ne _ _ _ _ _ h
@[simp] theorem func_setFunc (s : State) (f : Nat) (x : Function) : func (setFunc s f x) f = x := tget_tset_same _ _ _ _
@[simp] theorem polyOf_setPoly (s : State) (d : Nat) (x : Poly) : polyOf (setPoly s d x) d = x := tget_tset_same _ _ _ _
@[simp] theorem ctl_setCtl (s : State) (c : Nat) (x : Controller) : ctl (setCtl s c x) c = x := tget_tset_same _ _ _ _
@[simp] theorem port_setPort (s : State) (p : Nat) (x : Port) : port (setPort s p x) p = x := tget_tset_same _ _ _ _
@[simp] theorem pin_setPin (s : State) (i : Nat) (x : Pin) : pin (setPin s i x) i = x := tget_tset_same _ _ _ _
@[simp] theorem rget_rset (s : State) (r : Reg) (v k j : Nat) : rget (rset s r v k j) r k j = v := tget_tset_same _ _ _ _
/-- Registers at different addresses do not disturb each other. -/
theorem rget_rset_ne (s : State) (r p : Reg) (v k j a b : Nat) (h : regAddr p a b ≠ regAddr r k j) :
    rget (rset s r v k j) p a b = rget s p a b := tget_tset_ne' _ _ _ _ _ _ h

/-! ### What each setter leaves -/

section
variable (s : State)

section
variable (q : Nat) (x : Quire)
@[simp] theorem setQuire_pending : (setQuire s q x).pending = s.pending := rfl
@[simp] theorem setQuire_now : (setQuire s q x).now = s.now := rfl
@[simp] theorem setQuire_tsc : (setQuire s q x).tsc = s.tsc := rfl
@[simp] theorem setQuire_regs : (setQuire s q x).regs = s.regs := rfl
@[simp] theorem setQuire_halfClears : (setQuire s q x).halfClears = s.halfClears := rfl
@[simp] theorem setQuire_latches : (setQuire s q x).latches = s.latches := rfl
@[simp] theorem setQuire_out : (setQuire s q x).out = s.out := rfl
@[simp] theorem setQuire_freeCount : (setQuire s q x).freeCount = s.freeCount := rfl
@[simp] theorem setQuire_sealed : (setQuire s q x).sealed = s.sealed := rfl
@[simp] theorem setQuire_fe : (setQuire s q x).fe = s.fe := rfl
@[simp] theorem setQuire_fuses : (setQuire s q x).fuses = s.fuses := rfl
@[simp] theorem setQuire_banks : (setQuire s q x).banks = s.banks := rfl
@[simp] theorem setQuire_boot : (setQuire s q x).boot = s.boot := rfl
@[simp] theorem setQuire_power : (setQuire s q x).power = s.power := rfl
@[simp] theorem setQuire_pins : (setQuire s q x).pins = s.pins := rfl
@[simp] theorem setQuire_clk : (setQuire s q x).clk = s.clk := rfl
@[simp] theorem setQuire_phys : (setQuire s q x).phys = s.phys := rfl
@[simp] theorem setQuire_retireQueue : (setQuire s q x).retireQueue = s.retireQueue := rfl
@[simp] theorem setQuire_mesh : (setQuire s q x).mesh = s.mesh := rfl
@[simp] theorem setQuire_waits : (setQuire s q x).waits = s.waits := rfl
@[simp] theorem setQuire_dram : (setQuire s q x).dram = s.dram := rfl
@[simp] theorem setQuire_ctls : (setQuire s q x).ctls = s.ctls := rfl
@[simp] theorem setQuire_zeros : (setQuire s q x).zeros = s.zeros := rfl
@[simp] theorem setQuire_host : (setQuire s q x).host = s.host := rfl
@[simp] theorem setQuire_spdm : (setQuire s q x).spdm = s.spdm := rfl
@[simp] theorem setQuire_reports : (setQuire s q x).reports = s.reports := rfl
@[simp] theorem setQuire_deckles : (setQuire s q x).deckles = s.deckles := rfl
@[simp] theorem setQuire_serving : (setQuire s q x).serving = s.serving := rfl
@[simp] theorem setQuire_poly : (setQuire s q x).poly = s.poly := rfl
@[simp] theorem setQuire_tagSerial : (setQuire s q x).tagSerial = s.tagSerial := rfl
@[simp] theorem setQuire_sessions : (setQuire s q x).sessions = s.sessions := rfl
@[simp] theorem setQuire_rng : (setQuire s q x).rng = s.rng := rfl
@[simp] theorem setQuire_ev : (setQuire s q x).ev = s.ev := rfl
@[simp] theorem setQuire_izk : (setQuire s q x).izk = s.izk := rfl
@[simp] theorem setQuire_mgt : (setQuire s q x).mgt = s.mgt := rfl
end

section
variable (p : Nat) (x : Phys)
@[simp] theorem setPhys_pending : (setPhys s p x).pending = s.pending := rfl
@[simp] theorem setPhys_now : (setPhys s p x).now = s.now := rfl
@[simp] theorem setPhys_tsc : (setPhys s p x).tsc = s.tsc := rfl
@[simp] theorem setPhys_regs : (setPhys s p x).regs = s.regs := rfl
@[simp] theorem setPhys_halfClears : (setPhys s p x).halfClears = s.halfClears := rfl
@[simp] theorem setPhys_latches : (setPhys s p x).latches = s.latches := rfl
@[simp] theorem setPhys_out : (setPhys s p x).out = s.out := rfl
@[simp] theorem setPhys_freeCount : (setPhys s p x).freeCount = s.freeCount := rfl
@[simp] theorem setPhys_sealed : (setPhys s p x).sealed = s.sealed := rfl
@[simp] theorem setPhys_fe : (setPhys s p x).fe = s.fe := rfl
@[simp] theorem setPhys_fuses : (setPhys s p x).fuses = s.fuses := rfl
@[simp] theorem setPhys_banks : (setPhys s p x).banks = s.banks := rfl
@[simp] theorem setPhys_boot : (setPhys s p x).boot = s.boot := rfl
@[simp] theorem setPhys_power : (setPhys s p x).power = s.power := rfl
@[simp] theorem setPhys_pins : (setPhys s p x).pins = s.pins := rfl
@[simp] theorem setPhys_clk : (setPhys s p x).clk = s.clk := rfl
@[simp] theorem setPhys_quires : (setPhys s p x).quires = s.quires := rfl
@[simp] theorem setPhys_retireQueue : (setPhys s p x).retireQueue = s.retireQueue := rfl
@[simp] theorem setPhys_mesh : (setPhys s p x).mesh = s.mesh := rfl
@[simp] theorem setPhys_waits : (setPhys s p x).waits = s.waits := rfl
@[simp] theorem setPhys_dram : (setPhys s p x).dram = s.dram := rfl
@[simp] theorem setPhys_ctls : (setPhys s p x).ctls = s.ctls := rfl
@[simp] theorem setPhys_zeros : (setPhys s p x).zeros = s.zeros := rfl
@[simp] theorem setPhys_host : (setPhys s p x).host = s.host := rfl
@[simp] theorem setPhys_spdm : (setPhys s p x).spdm = s.spdm := rfl
@[simp] theorem setPhys_reports : (setPhys s p x).reports = s.reports := rfl
@[simp] theorem setPhys_deckles : (setPhys s p x).deckles = s.deckles := rfl
@[simp] theorem setPhys_serving : (setPhys s p x).serving = s.serving := rfl
@[simp] theorem setPhys_poly : (setPhys s p x).poly = s.poly := rfl
@[simp] theorem setPhys_tagSerial : (setPhys s p x).tagSerial = s.tagSerial := rfl
@[simp] theorem setPhys_sessions : (setPhys s p x).sessions = s.sessions := rfl
@[simp] theorem setPhys_rng : (setPhys s p x).rng = s.rng := rfl
@[simp] theorem setPhys_ev : (setPhys s p x).ev = s.ev := rfl
@[simp] theorem setPhys_izk : (setPhys s p x).izk = s.izk := rfl
@[simp] theorem setPhys_mgt : (setPhys s p x).mgt = s.mgt := rfl
end

section
variable (d : Nat) (x : Deckle)
@[simp] theorem setDeckle_pending : (setDeckle s d x).pending = s.pending := rfl
@[simp] theorem setDeckle_now : (setDeckle s d x).now = s.now := rfl
@[simp] theorem setDeckle_tsc : (setDeckle s d x).tsc = s.tsc := rfl
@[simp] theorem setDeckle_regs : (setDeckle s d x).regs = s.regs := rfl
@[simp] theorem setDeckle_halfClears : (setDeckle s d x).halfClears = s.halfClears := rfl
@[simp] theorem setDeckle_latches : (setDeckle s d x).latches = s.latches := rfl
@[simp] theorem setDeckle_out : (setDeckle s d x).out = s.out := rfl
@[simp] theorem setDeckle_freeCount : (setDeckle s d x).freeCount = s.freeCount := rfl
@[simp] theorem setDeckle_sealed : (setDeckle s d x).sealed = s.sealed := rfl
@[simp] theorem setDeckle_fe : (setDeckle s d x).fe = s.fe := rfl
@[simp] theorem setDeckle_fuses : (setDeckle s d x).fuses = s.fuses := rfl
@[simp] theorem setDeckle_banks : (setDeckle s d x).banks = s.banks := rfl
@[simp] theorem setDeckle_boot : (setDeckle s d x).boot = s.boot := rfl
@[simp] theorem setDeckle_power : (setDeckle s d x).power = s.power := rfl
@[simp] theorem setDeckle_pins : (setDeckle s d x).pins = s.pins := rfl
@[simp] theorem setDeckle_clk : (setDeckle s d x).clk = s.clk := rfl
@[simp] theorem setDeckle_quires : (setDeckle s d x).quires = s.quires := rfl
@[simp] theorem setDeckle_phys : (setDeckle s d x).phys = s.phys := rfl
@[simp] theorem setDeckle_retireQueue : (setDeckle s d x).retireQueue = s.retireQueue := rfl
@[simp] theorem setDeckle_mesh : (setDeckle s d x).mesh = s.mesh := rfl
@[simp] theorem setDeckle_waits : (setDeckle s d x).waits = s.waits := rfl
@[simp] theorem setDeckle_dram : (setDeckle s d x).dram = s.dram := rfl
@[simp] theorem setDeckle_ctls : (setDeckle s d x).ctls = s.ctls := rfl
@[simp] theorem setDeckle_zeros : (setDeckle s d x).zeros = s.zeros := rfl
@[simp] theorem setDeckle_host : (setDeckle s d x).host = s.host := rfl
@[simp] theorem setDeckle_spdm : (setDeckle s d x).spdm = s.spdm := rfl
@[simp] theorem setDeckle_reports : (setDeckle s d x).reports = s.reports := rfl
@[simp] theorem setDeckle_serving : (setDeckle s d x).serving = s.serving := rfl
@[simp] theorem setDeckle_poly : (setDeckle s d x).poly = s.poly := rfl
@[simp] theorem setDeckle_tagSerial : (setDeckle s d x).tagSerial = s.tagSerial := rfl
@[simp] theorem setDeckle_sessions : (setDeckle s d x).sessions = s.sessions := rfl
@[simp] theorem setDeckle_rng : (setDeckle s d x).rng = s.rng := rfl
@[simp] theorem setDeckle_ev : (setDeckle s d x).ev = s.ev := rfl
@[simp] theorem setDeckle_izk : (setDeckle s d x).izk = s.izk := rfl
@[simp] theorem setDeckle_mgt : (setDeckle s d x).mgt = s.mgt := rfl
end

section
variable (r : Nat) (x : Ring)
@[simp] theorem setRing_pending : (setRing s r x).pending = s.pending := rfl
@[simp] theorem setRing_now : (setRing s r x).now = s.now := rfl
@[simp] theorem setRing_tsc : (setRing s r x).tsc = s.tsc := rfl
@[simp] theorem setRing_regs : (setRing s r x).regs = s.regs := rfl
@[simp] theorem setRing_halfClears : (setRing s r x).halfClears = s.halfClears := rfl
@[simp] theorem setRing_latches : (setRing s r x).latches = s.latches := rfl
@[simp] theorem setRing_out : (setRing s r x).out = s.out := rfl
@[simp] theorem setRing_freeCount : (setRing s r x).freeCount = s.freeCount := rfl
@[simp] theorem setRing_sealed : (setRing s r x).sealed = s.sealed := rfl
@[simp] theorem setRing_fe : (setRing s r x).fe = s.fe := rfl
@[simp] theorem setRing_fuses : (setRing s r x).fuses = s.fuses := rfl
@[simp] theorem setRing_banks : (setRing s r x).banks = s.banks := rfl
@[simp] theorem setRing_boot : (setRing s r x).boot = s.boot := rfl
@[simp] theorem setRing_power : (setRing s r x).power = s.power := rfl
@[simp] theorem setRing_pins : (setRing s r x).pins = s.pins := rfl
@[simp] theorem setRing_clk : (setRing s r x).clk = s.clk := rfl
@[simp] theorem setRing_quires : (setRing s r x).quires = s.quires := rfl
@[simp] theorem setRing_phys : (setRing s r x).phys = s.phys := rfl
@[simp] theorem setRing_retireQueue : (setRing s r x).retireQueue = s.retireQueue := rfl
@[simp] theorem setRing_mesh : (setRing s r x).mesh = s.mesh := rfl
@[simp] theorem setRing_waits : (setRing s r x).waits = s.waits := rfl
@[simp] theorem setRing_dram : (setRing s r x).dram = s.dram := rfl
@[simp] theorem setRing_ctls : (setRing s r x).ctls = s.ctls := rfl
@[simp] theorem setRing_zeros : (setRing s r x).zeros = s.zeros := rfl
@[simp] theorem setRing_spdm : (setRing s r x).spdm = s.spdm := rfl
@[simp] theorem setRing_reports : (setRing s r x).reports = s.reports := rfl
@[simp] theorem setRing_deckles : (setRing s r x).deckles = s.deckles := rfl
@[simp] theorem setRing_serving : (setRing s r x).serving = s.serving := rfl
@[simp] theorem setRing_poly : (setRing s r x).poly = s.poly := rfl
@[simp] theorem setRing_tagSerial : (setRing s r x).tagSerial = s.tagSerial := rfl
@[simp] theorem setRing_sessions : (setRing s r x).sessions = s.sessions := rfl
@[simp] theorem setRing_rng : (setRing s r x).rng = s.rng := rfl
@[simp] theorem setRing_ev : (setRing s r x).ev = s.ev := rfl
@[simp] theorem setRing_izk : (setRing s r x).izk = s.izk := rfl
@[simp] theorem setRing_mgt : (setRing s r x).mgt = s.mgt := rfl
@[simp] theorem setRing_host_recQueue : (setRing s r x).host.recQueue = s.host.recQueue := rfl
@[simp] theorem setRing_host_fns : (setRing s r x).host.fns = s.host.fns := rfl
@[simp] theorem setRing_host_vfOn : (setRing s r x).host.vfOn = s.host.vfOn := rfl
@[simp] theorem setRing_host_nextId : (setRing s r x).host.nextId = s.host.nextId := rfl
@[simp] theorem setRing_host_starts : (setRing s r x).host.starts = s.host.starts := rfl
@[simp] theorem setRing_host_turn : (setRing s r x).host.turn = s.host.turn := rfl
@[simp] theorem setRing_host_mem : (setRing s r x).host.mem = s.host.mem := rfl
@[simp] theorem setRing_host_measured : (setRing s r x).host.measured = s.host.measured := rfl
end

section
variable (f : Nat) (x : Function)
@[simp] theorem setFunc_pending : (setFunc s f x).pending = s.pending := rfl
@[simp] theorem setFunc_now : (setFunc s f x).now = s.now := rfl
@[simp] theorem setFunc_tsc : (setFunc s f x).tsc = s.tsc := rfl
@[simp] theorem setFunc_regs : (setFunc s f x).regs = s.regs := rfl
@[simp] theorem setFunc_halfClears : (setFunc s f x).halfClears = s.halfClears := rfl
@[simp] theorem setFunc_latches : (setFunc s f x).latches = s.latches := rfl
@[simp] theorem setFunc_out : (setFunc s f x).out = s.out := rfl
@[simp] theorem setFunc_freeCount : (setFunc s f x).freeCount = s.freeCount := rfl
@[simp] theorem setFunc_sealed : (setFunc s f x).sealed = s.sealed := rfl
@[simp] theorem setFunc_fe : (setFunc s f x).fe = s.fe := rfl
@[simp] theorem setFunc_fuses : (setFunc s f x).fuses = s.fuses := rfl
@[simp] theorem setFunc_banks : (setFunc s f x).banks = s.banks := rfl
@[simp] theorem setFunc_boot : (setFunc s f x).boot = s.boot := rfl
@[simp] theorem setFunc_power : (setFunc s f x).power = s.power := rfl
@[simp] theorem setFunc_pins : (setFunc s f x).pins = s.pins := rfl
@[simp] theorem setFunc_clk : (setFunc s f x).clk = s.clk := rfl
@[simp] theorem setFunc_quires : (setFunc s f x).quires = s.quires := rfl
@[simp] theorem setFunc_phys : (setFunc s f x).phys = s.phys := rfl
@[simp] theorem setFunc_retireQueue : (setFunc s f x).retireQueue = s.retireQueue := rfl
@[simp] theorem setFunc_mesh : (setFunc s f x).mesh = s.mesh := rfl
@[simp] theorem setFunc_waits : (setFunc s f x).waits = s.waits := rfl
@[simp] theorem setFunc_dram : (setFunc s f x).dram = s.dram := rfl
@[simp] theorem setFunc_ctls : (setFunc s f x).ctls = s.ctls := rfl
@[simp] theorem setFunc_zeros : (setFunc s f x).zeros = s.zeros := rfl
@[simp] theorem setFunc_spdm : (setFunc s f x).spdm = s.spdm := rfl
@[simp] theorem setFunc_reports : (setFunc s f x).reports = s.reports := rfl
@[simp] theorem setFunc_deckles : (setFunc s f x).deckles = s.deckles := rfl
@[simp] theorem setFunc_serving : (setFunc s f x).serving = s.serving := rfl
@[simp] theorem setFunc_poly : (setFunc s f x).poly = s.poly := rfl
@[simp] theorem setFunc_tagSerial : (setFunc s f x).tagSerial = s.tagSerial := rfl
@[simp] theorem setFunc_sessions : (setFunc s f x).sessions = s.sessions := rfl
@[simp] theorem setFunc_rng : (setFunc s f x).rng = s.rng := rfl
@[simp] theorem setFunc_ev : (setFunc s f x).ev = s.ev := rfl
@[simp] theorem setFunc_izk : (setFunc s f x).izk = s.izk := rfl
@[simp] theorem setFunc_mgt : (setFunc s f x).mgt = s.mgt := rfl
@[simp] theorem setFunc_host_rings : (setFunc s f x).host.rings = s.host.rings := rfl
@[simp] theorem setFunc_host_recQueue : (setFunc s f x).host.recQueue = s.host.recQueue := rfl
@[simp] theorem setFunc_host_vfOn : (setFunc s f x).host.vfOn = s.host.vfOn := rfl
@[simp] theorem setFunc_host_nextId : (setFunc s f x).host.nextId = s.host.nextId := rfl
@[simp] theorem setFunc_host_starts : (setFunc s f x).host.starts = s.host.starts := rfl
@[simp] theorem setFunc_host_turn : (setFunc s f x).host.turn = s.host.turn := rfl
@[simp] theorem setFunc_host_mem : (setFunc s f x).host.mem = s.host.mem := rfl
@[simp] theorem setFunc_host_measured : (setFunc s f x).host.measured = s.host.measured := rfl
end

section
variable (d : Nat) (x : Poly)
@[simp] theorem setPoly_pending : (setPoly s d x).pending = s.pending := rfl
@[simp] theorem setPoly_now : (setPoly s d x).now = s.now := rfl
@[simp] theorem setPoly_tsc : (setPoly s d x).tsc = s.tsc := rfl
@[simp] theorem setPoly_regs : (setPoly s d x).regs = s.regs := rfl
@[simp] theorem setPoly_halfClears : (setPoly s d x).halfClears = s.halfClears := rfl
@[simp] theorem setPoly_latches : (setPoly s d x).latches = s.latches := rfl
@[simp] theorem setPoly_out : (setPoly s d x).out = s.out := rfl
@[simp] theorem setPoly_freeCount : (setPoly s d x).freeCount = s.freeCount := rfl
@[simp] theorem setPoly_sealed : (setPoly s d x).sealed = s.sealed := rfl
@[simp] theorem setPoly_fe : (setPoly s d x).fe = s.fe := rfl
@[simp] theorem setPoly_fuses : (setPoly s d x).fuses = s.fuses := rfl
@[simp] theorem setPoly_banks : (setPoly s d x).banks = s.banks := rfl
@[simp] theorem setPoly_boot : (setPoly s d x).boot = s.boot := rfl
@[simp] theorem setPoly_power : (setPoly s d x).power = s.power := rfl
@[simp] theorem setPoly_pins : (setPoly s d x).pins = s.pins := rfl
@[simp] theorem setPoly_clk : (setPoly s d x).clk = s.clk := rfl
@[simp] theorem setPoly_quires : (setPoly s d x).quires = s.quires := rfl
@[simp] theorem setPoly_phys : (setPoly s d x).phys = s.phys := rfl
@[simp] theorem setPoly_retireQueue : (setPoly s d x).retireQueue = s.retireQueue := rfl
@[simp] theorem setPoly_mesh : (setPoly s d x).mesh = s.mesh := rfl
@[simp] theorem setPoly_waits : (setPoly s d x).waits = s.waits := rfl
@[simp] theorem setPoly_dram : (setPoly s d x).dram = s.dram := rfl
@[simp] theorem setPoly_ctls : (setPoly s d x).ctls = s.ctls := rfl
@[simp] theorem setPoly_zeros : (setPoly s d x).zeros = s.zeros := rfl
@[simp] theorem setPoly_host : (setPoly s d x).host = s.host := rfl
@[simp] theorem setPoly_spdm : (setPoly s d x).spdm = s.spdm := rfl
@[simp] theorem setPoly_reports : (setPoly s d x).reports = s.reports := rfl
@[simp] theorem setPoly_deckles : (setPoly s d x).deckles = s.deckles := rfl
@[simp] theorem setPoly_serving : (setPoly s d x).serving = s.serving := rfl
@[simp] theorem setPoly_tagSerial : (setPoly s d x).tagSerial = s.tagSerial := rfl
@[simp] theorem setPoly_sessions : (setPoly s d x).sessions = s.sessions := rfl
@[simp] theorem setPoly_rng : (setPoly s d x).rng = s.rng := rfl
@[simp] theorem setPoly_ev : (setPoly s d x).ev = s.ev := rfl
@[simp] theorem setPoly_izk : (setPoly s d x).izk = s.izk := rfl
@[simp] theorem setPoly_mgt : (setPoly s d x).mgt = s.mgt := rfl
end

section
variable (c : Nat) (x : Controller)
@[simp] theorem setCtl_pending : (setCtl s c x).pending = s.pending := rfl
@[simp] theorem setCtl_now : (setCtl s c x).now = s.now := rfl
@[simp] theorem setCtl_tsc : (setCtl s c x).tsc = s.tsc := rfl
@[simp] theorem setCtl_regs : (setCtl s c x).regs = s.regs := rfl
@[simp] theorem setCtl_halfClears : (setCtl s c x).halfClears = s.halfClears := rfl
@[simp] theorem setCtl_latches : (setCtl s c x).latches = s.latches := rfl
@[simp] theorem setCtl_out : (setCtl s c x).out = s.out := rfl
@[simp] theorem setCtl_freeCount : (setCtl s c x).freeCount = s.freeCount := rfl
@[simp] theorem setCtl_sealed : (setCtl s c x).sealed = s.sealed := rfl
@[simp] theorem setCtl_fe : (setCtl s c x).fe = s.fe := rfl
@[simp] theorem setCtl_fuses : (setCtl s c x).fuses = s.fuses := rfl
@[simp] theorem setCtl_banks : (setCtl s c x).banks = s.banks := rfl
@[simp] theorem setCtl_boot : (setCtl s c x).boot = s.boot := rfl
@[simp] theorem setCtl_power : (setCtl s c x).power = s.power := rfl
@[simp] theorem setCtl_pins : (setCtl s c x).pins = s.pins := rfl
@[simp] theorem setCtl_clk : (setCtl s c x).clk = s.clk := rfl
@[simp] theorem setCtl_quires : (setCtl s c x).quires = s.quires := rfl
@[simp] theorem setCtl_phys : (setCtl s c x).phys = s.phys := rfl
@[simp] theorem setCtl_retireQueue : (setCtl s c x).retireQueue = s.retireQueue := rfl
@[simp] theorem setCtl_mesh : (setCtl s c x).mesh = s.mesh := rfl
@[simp] theorem setCtl_waits : (setCtl s c x).waits = s.waits := rfl
@[simp] theorem setCtl_dram : (setCtl s c x).dram = s.dram := rfl
@[simp] theorem setCtl_zeros : (setCtl s c x).zeros = s.zeros := rfl
@[simp] theorem setCtl_host : (setCtl s c x).host = s.host := rfl
@[simp] theorem setCtl_spdm : (setCtl s c x).spdm = s.spdm := rfl
@[simp] theorem setCtl_reports : (setCtl s c x).reports = s.reports := rfl
@[simp] theorem setCtl_deckles : (setCtl s c x).deckles = s.deckles := rfl
@[simp] theorem setCtl_serving : (setCtl s c x).serving = s.serving := rfl
@[simp] theorem setCtl_poly : (setCtl s c x).poly = s.poly := rfl
@[simp] theorem setCtl_tagSerial : (setCtl s c x).tagSerial = s.tagSerial := rfl
@[simp] theorem setCtl_sessions : (setCtl s c x).sessions = s.sessions := rfl
@[simp] theorem setCtl_rng : (setCtl s c x).rng = s.rng := rfl
@[simp] theorem setCtl_ev : (setCtl s c x).ev = s.ev := rfl
@[simp] theorem setCtl_izk : (setCtl s c x).izk = s.izk := rfl
@[simp] theorem setCtl_mgt : (setCtl s c x).mgt = s.mgt := rfl
end

section
variable (p : Nat) (x : Port)
@[simp] theorem setPort_pending : (setPort s p x).pending = s.pending := rfl
@[simp] theorem setPort_now : (setPort s p x).now = s.now := rfl
@[simp] theorem setPort_tsc : (setPort s p x).tsc = s.tsc := rfl
@[simp] theorem setPort_regs : (setPort s p x).regs = s.regs := rfl
@[simp] theorem setPort_halfClears : (setPort s p x).halfClears = s.halfClears := rfl
@[simp] theorem setPort_latches : (setPort s p x).latches = s.latches := rfl
@[simp] theorem setPort_out : (setPort s p x).out = s.out := rfl
@[simp] theorem setPort_freeCount : (setPort s p x).freeCount = s.freeCount := rfl
@[simp] theorem setPort_sealed : (setPort s p x).sealed = s.sealed := rfl
@[simp] theorem setPort_fe : (setPort s p x).fe = s.fe := rfl
@[simp] theorem setPort_fuses : (setPort s p x).fuses = s.fuses := rfl
@[simp] theorem setPort_banks : (setPort s p x).banks = s.banks := rfl
@[simp] theorem setPort_boot : (setPort s p x).boot = s.boot := rfl
@[simp] theorem setPort_power : (setPort s p x).power = s.power := rfl
@[simp] theorem setPort_pins : (setPort s p x).pins = s.pins := rfl
@[simp] theorem setPort_clk : (setPort s p x).clk = s.clk := rfl
@[simp] theorem setPort_quires : (setPort s p x).quires = s.quires := rfl
@[simp] theorem setPort_phys : (setPort s p x).phys = s.phys := rfl
@[simp] theorem setPort_retireQueue : (setPort s p x).retireQueue = s.retireQueue := rfl
@[simp] theorem setPort_mesh : (setPort s p x).mesh = s.mesh := rfl
@[simp] theorem setPort_waits : (setPort s p x).waits = s.waits := rfl
@[simp] theorem setPort_dram : (setPort s p x).dram = s.dram := rfl
@[simp] theorem setPort_ctls : (setPort s p x).ctls = s.ctls := rfl
@[simp] theorem setPort_zeros : (setPort s p x).zeros = s.zeros := rfl
@[simp] theorem setPort_host : (setPort s p x).host = s.host := rfl
@[simp] theorem setPort_spdm : (setPort s p x).spdm = s.spdm := rfl
@[simp] theorem setPort_reports : (setPort s p x).reports = s.reports := rfl
@[simp] theorem setPort_deckles : (setPort s p x).deckles = s.deckles := rfl
@[simp] theorem setPort_serving : (setPort s p x).serving = s.serving := rfl
@[simp] theorem setPort_poly : (setPort s p x).poly = s.poly := rfl
@[simp] theorem setPort_tagSerial : (setPort s p x).tagSerial = s.tagSerial := rfl
@[simp] theorem setPort_sessions : (setPort s p x).sessions = s.sessions := rfl
@[simp] theorem setPort_rng : (setPort s p x).rng = s.rng := rfl
@[simp] theorem setPort_ev : (setPort s p x).ev = s.ev := rfl
@[simp] theorem setPort_mgt : (setPort s p x).mgt = s.mgt := rfl
end

section
variable (i : Nat) (x : Pin)
@[simp] theorem setPin_pending : (setPin s i x).pending = s.pending := rfl
@[simp] theorem setPin_now : (setPin s i x).now = s.now := rfl
@[simp] theorem setPin_tsc : (setPin s i x).tsc = s.tsc := rfl
@[simp] theorem setPin_regs : (setPin s i x).regs = s.regs := rfl
@[simp] theorem setPin_halfClears : (setPin s i x).halfClears = s.halfClears := rfl
@[simp] theorem setPin_latches : (setPin s i x).latches = s.latches := rfl
@[simp] theorem setPin_out : (setPin s i x).out = s.out := rfl
@[simp] theorem setPin_freeCount : (setPin s i x).freeCount = s.freeCount := rfl
@[simp] theorem setPin_sealed : (setPin s i x).sealed = s.sealed := rfl
@[simp] theorem setPin_fe : (setPin s i x).fe = s.fe := rfl
@[simp] theorem setPin_fuses : (setPin s i x).fuses = s.fuses := rfl
@[simp] theorem setPin_banks : (setPin s i x).banks = s.banks := rfl
@[simp] theorem setPin_boot : (setPin s i x).boot = s.boot := rfl
@[simp] theorem setPin_power : (setPin s i x).power = s.power := rfl
@[simp] theorem setPin_clk : (setPin s i x).clk = s.clk := rfl
@[simp] theorem setPin_quires : (setPin s i x).quires = s.quires := rfl
@[simp] theorem setPin_phys : (setPin s i x).phys = s.phys := rfl
@[simp] theorem setPin_retireQueue : (setPin s i x).retireQueue = s.retireQueue := rfl
@[simp] theorem setPin_mesh : (setPin s i x).mesh = s.mesh := rfl
@[simp] theorem setPin_waits : (setPin s i x).waits = s.waits := rfl
@[simp] theorem setPin_dram : (setPin s i x).dram = s.dram := rfl
@[simp] theorem setPin_ctls : (setPin s i x).ctls = s.ctls := rfl
@[simp] theorem setPin_zeros : (setPin s i x).zeros = s.zeros := rfl
@[simp] theorem setPin_host : (setPin s i x).host = s.host := rfl
@[simp] theorem setPin_spdm : (setPin s i x).spdm = s.spdm := rfl
@[simp] theorem setPin_reports : (setPin s i x).reports = s.reports := rfl
@[simp] theorem setPin_deckles : (setPin s i x).deckles = s.deckles := rfl
@[simp] theorem setPin_serving : (setPin s i x).serving = s.serving := rfl
@[simp] theorem setPin_poly : (setPin s i x).poly = s.poly := rfl
@[simp] theorem setPin_tagSerial : (setPin s i x).tagSerial = s.tagSerial := rfl
@[simp] theorem setPin_sessions : (setPin s i x).sessions = s.sessions := rfl
@[simp] theorem setPin_rng : (setPin s i x).rng = s.rng := rfl
@[simp] theorem setPin_ev : (setPin s i x).ev = s.ev := rfl
@[simp] theorem setPin_izk : (setPin s i x).izk = s.izk := rfl
@[simp] theorem setPin_mgt : (setPin s i x).mgt = s.mgt := rfl
end

section
variable (r : Reg) (v k j : Nat)
@[simp] theorem rset_pending : (rset s r v k j).pending = s.pending := rfl
@[simp] theorem rset_now : (rset s r v k j).now = s.now := rfl
@[simp] theorem rset_tsc : (rset s r v k j).tsc = s.tsc := rfl
@[simp] theorem rset_halfClears : (rset s r v k j).halfClears = s.halfClears := rfl
@[simp] theorem rset_latches : (rset s r v k j).latches = s.latches := rfl
@[simp] theorem rset_out : (rset s r v k j).out = s.out := rfl
@[simp] theorem rset_freeCount : (rset s r v k j).freeCount = s.freeCount := rfl
@[simp] theorem rset_sealed : (rset s r v k j).sealed = s.sealed := rfl
@[simp] theorem rset_fe : (rset s r v k j).fe = s.fe := rfl
@[simp] theorem rset_fuses : (rset s r v k j).fuses = s.fuses := rfl
@[simp] theorem rset_banks : (rset s r v k j).banks = s.banks := rfl
@[simp] theorem rset_boot : (rset s r v k j).boot = s.boot := rfl
@[simp] theorem rset_power : (rset s r v k j).power = s.power := rfl
@[simp] theorem rset_pins : (rset s r v k j).pins = s.pins := rfl
@[simp] theorem rset_clk : (rset s r v k j).clk = s.clk := rfl
@[simp] theorem rset_quires : (rset s r v k j).quires = s.quires := rfl
@[simp] theorem rset_phys : (rset s r v k j).phys = s.phys := rfl
@[simp] theorem rset_retireQueue : (rset s r v k j).retireQueue = s.retireQueue := rfl
@[simp] theorem rset_mesh : (rset s r v k j).mesh = s.mesh := rfl
@[simp] theorem rset_waits : (rset s r v k j).waits = s.waits := rfl
@[simp] theorem rset_dram : (rset s r v k j).dram = s.dram := rfl
@[simp] theorem rset_ctls : (rset s r v k j).ctls = s.ctls := rfl
@[simp] theorem rset_zeros : (rset s r v k j).zeros = s.zeros := rfl
@[simp] theorem rset_host : (rset s r v k j).host = s.host := rfl
@[simp] theorem rset_spdm : (rset s r v k j).spdm = s.spdm := rfl
@[simp] theorem rset_reports : (rset s r v k j).reports = s.reports := rfl
@[simp] theorem rset_deckles : (rset s r v k j).deckles = s.deckles := rfl
@[simp] theorem rset_serving : (rset s r v k j).serving = s.serving := rfl
@[simp] theorem rset_poly : (rset s r v k j).poly = s.poly := rfl
@[simp] theorem rset_tagSerial : (rset s r v k j).tagSerial = s.tagSerial := rfl
@[simp] theorem rset_sessions : (rset s r v k j).sessions = s.sessions := rfl
@[simp] theorem rset_rng : (rset s r v k j).rng = s.rng := rfl
@[simp] theorem rset_ev : (rset s r v k j).ev = s.ev := rfl
@[simp] theorem rset_izk : (rset s r v k j).izk = s.izk := rfl
@[simp] theorem rset_mgt : (rset s r v k j).mgt = s.mgt := rfl
end

section
variable (a : Nat) (bs : List Byte)
@[simp] theorem hostWrite_pending : (hostWrite s a bs).pending = s.pending := rfl
@[simp] theorem hostWrite_now : (hostWrite s a bs).now = s.now := rfl
@[simp] theorem hostWrite_tsc : (hostWrite s a bs).tsc = s.tsc := rfl
@[simp] theorem hostWrite_regs : (hostWrite s a bs).regs = s.regs := rfl
@[simp] theorem hostWrite_halfClears : (hostWrite s a bs).halfClears = s.halfClears := rfl
@[simp] theorem hostWrite_latches : (hostWrite s a bs).latches = s.latches := rfl
@[simp] theorem hostWrite_out : (hostWrite s a bs).out = s.out := rfl
@[simp] theorem hostWrite_freeCount : (hostWrite s a bs).freeCount = s.freeCount := rfl
@[simp] theorem hostWrite_sealed : (hostWrite s a bs).sealed = s.sealed := rfl
@[simp] theorem hostWrite_fe : (hostWrite s a bs).fe = s.fe := rfl
@[simp] theorem hostWrite_fuses : (hostWrite s a bs).fuses = s.fuses := rfl
@[simp] theorem hostWrite_banks : (hostWrite s a bs).banks = s.banks := rfl
@[simp] theorem hostWrite_boot : (hostWrite s a bs).boot = s.boot := rfl
@[simp] theorem hostWrite_power : (hostWrite s a bs).power = s.power := rfl
@[simp] theorem hostWrite_pins : (hostWrite s a bs).pins = s.pins := rfl
@[simp] theorem hostWrite_clk : (hostWrite s a bs).clk = s.clk := rfl
@[simp] theorem hostWrite_quires : (hostWrite s a bs).quires = s.quires := rfl
@[simp] theorem hostWrite_phys : (hostWrite s a bs).phys = s.phys := rfl
@[simp] theorem hostWrite_retireQueue : (hostWrite s a bs).retireQueue = s.retireQueue := rfl
@[simp] theorem hostWrite_mesh : (hostWrite s a bs).mesh = s.mesh := rfl
@[simp] theorem hostWrite_waits : (hostWrite s a bs).waits = s.waits := rfl
@[simp] theorem hostWrite_dram : (hostWrite s a bs).dram = s.dram := rfl
@[simp] theorem hostWrite_ctls : (hostWrite s a bs).ctls = s.ctls := rfl
@[simp] theorem hostWrite_zeros : (hostWrite s a bs).zeros = s.zeros := rfl
@[simp] theorem hostWrite_spdm : (hostWrite s a bs).spdm = s.spdm := rfl
@[simp] theorem hostWrite_reports : (hostWrite s a bs).reports = s.reports := rfl
@[simp] theorem hostWrite_deckles : (hostWrite s a bs).deckles = s.deckles := rfl
@[simp] theorem hostWrite_serving : (hostWrite s a bs).serving = s.serving := rfl
@[simp] theorem hostWrite_poly : (hostWrite s a bs).poly = s.poly := rfl
@[simp] theorem hostWrite_tagSerial : (hostWrite s a bs).tagSerial = s.tagSerial := rfl
@[simp] theorem hostWrite_sessions : (hostWrite s a bs).sessions = s.sessions := rfl
@[simp] theorem hostWrite_rng : (hostWrite s a bs).rng = s.rng := rfl
@[simp] theorem hostWrite_ev : (hostWrite s a bs).ev = s.ev := rfl
@[simp] theorem hostWrite_izk : (hostWrite s a bs).izk = s.izk := rfl
@[simp] theorem hostWrite_mgt : (hostWrite s a bs).mgt = s.mgt := rfl
@[simp] theorem hostWrite_host_rings : (hostWrite s a bs).host.rings = s.host.rings := rfl
@[simp] theorem hostWrite_host_recQueue : (hostWrite s a bs).host.recQueue = s.host.recQueue := rfl
@[simp] theorem hostWrite_host_fns : (hostWrite s a bs).host.fns = s.host.fns := rfl
@[simp] theorem hostWrite_host_vfOn : (hostWrite s a bs).host.vfOn = s.host.vfOn := rfl
@[simp] theorem hostWrite_host_nextId : (hostWrite s a bs).host.nextId = s.host.nextId := rfl
@[simp] theorem hostWrite_host_starts : (hostWrite s a bs).host.starts = s.host.starts := rfl
@[simp] theorem hostWrite_host_turn : (hostWrite s a bs).host.turn = s.host.turn := rfl
@[simp] theorem hostWrite_host_measured : (hostWrite s a bs).host.measured = s.host.measured := rfl
end

section
variable (o : Output)
@[simp] theorem emit_pending : (emit s o).pending = s.pending := rfl
@[simp] theorem emit_now : (emit s o).now = s.now := rfl
@[simp] theorem emit_tsc : (emit s o).tsc = s.tsc := rfl
@[simp] theorem emit_regs : (emit s o).regs = s.regs := rfl
@[simp] theorem emit_halfClears : (emit s o).halfClears = s.halfClears := rfl
@[simp] theorem emit_latches : (emit s o).latches = s.latches := rfl
@[simp] theorem emit_freeCount : (emit s o).freeCount = s.freeCount := rfl
@[simp] theorem emit_sealed : (emit s o).sealed = s.sealed := rfl
@[simp] theorem emit_fe : (emit s o).fe = s.fe := rfl
@[simp] theorem emit_fuses : (emit s o).fuses = s.fuses := rfl
@[simp] theorem emit_banks : (emit s o).banks = s.banks := rfl
@[simp] theorem emit_boot : (emit s o).boot = s.boot := rfl
@[simp] theorem emit_power : (emit s o).power = s.power := rfl
@[simp] theorem emit_pins : (emit s o).pins = s.pins := rfl
@[simp] theorem emit_clk : (emit s o).clk = s.clk := rfl
@[simp] theorem emit_quires : (emit s o).quires = s.quires := rfl
@[simp] theorem emit_phys : (emit s o).phys = s.phys := rfl
@[simp] theorem emit_retireQueue : (emit s o).retireQueue = s.retireQueue := rfl
@[simp] theorem emit_mesh : (emit s o).mesh = s.mesh := rfl
@[simp] theorem emit_waits : (emit s o).waits = s.waits := rfl
@[simp] theorem emit_dram : (emit s o).dram = s.dram := rfl
@[simp] theorem emit_ctls : (emit s o).ctls = s.ctls := rfl
@[simp] theorem emit_zeros : (emit s o).zeros = s.zeros := rfl
@[simp] theorem emit_host : (emit s o).host = s.host := rfl
@[simp] theorem emit_spdm : (emit s o).spdm = s.spdm := rfl
@[simp] theorem emit_reports : (emit s o).reports = s.reports := rfl
@[simp] theorem emit_deckles : (emit s o).deckles = s.deckles := rfl
@[simp] theorem emit_serving : (emit s o).serving = s.serving := rfl
@[simp] theorem emit_poly : (emit s o).poly = s.poly := rfl
@[simp] theorem emit_tagSerial : (emit s o).tagSerial = s.tagSerial := rfl
@[simp] theorem emit_sessions : (emit s o).sessions = s.sessions := rfl
@[simp] theorem emit_rng : (emit s o).rng = s.rng := rfl
@[simp] theorem emit_ev : (emit s o).ev = s.ev := rfl
@[simp] theorem emit_izk : (emit s o).izk = s.izk := rfl
@[simp] theorem emit_mgt : (emit s o).mgt = s.mgt := rfl
end

end

end Sys2Proof.Laws
end

