-- ==== Sys2Proof/WellFormed.lean ====
section
/-! DEFINITION. When the operands of a command are ones that the outside world can send: every index names something that exists and
every list has the length of its table.  `exec` is total all the same: a command that names nothing changes nothing. -/

namespace Sys2Proof

/-! ### One check an operand -/

/-- A PCIe function: 0 the PF, n VF n (R347). -/
def fnOk (f : Nat) : Bool := decide (f ≤ 16)
/-- A virtual function (R347). -/
def vfOk (f : Nat) : Bool := decide (1 ≤ f) && decide (f ≤ 16)
/-- A destination of the collector: 0 the PF, n VF n (R498). -/
def destOk (f : Nat) : Bool := decide (f ≤ 16)
/-- A logical quire (R23). -/
def quireOk (q : Nat) : Bool := decide (q < 64)
/-- A physical quire (R23). -/
def physOk (p : Nat) : Bool := decide (p < 68)
/-- A stream of a quire (R101). -/
def streamOk (st : Nat) : Bool := decide (st < 8)
/-- A sheet of a quire (R65). -/
def sheetOk (n : Nat) : Bool := decide (n < 32)
/-- A vat format (Table 03.1). -/
def tileFmtOk (n : Nat) : Bool := decide (n < 3)
/-- A Beater pipe (R100). -/
def pipeOk (n : Nat) : Bool := decide (n < 4)
/-- A Headbox stream (R326). -/
def headboxOk (n : Nat) : Bool := decide (n < 16)
/-- A work ring (R354). -/
def ringOk (r : Nat) : Bool := decide (r < 256)
/-- A deckle (R28). -/
def deckleOk (d : Nat) : Bool := decide (d < 16)
/-- An Izkai port (R378). -/
def portOk (p : Nat) : Bool := decide (p < 4)
/-- A priority of a port (R380). -/
def prioOk (n : Nat) : Bool := decide (n < 8)
/-- A queue pair (R389). -/
def qpOk (n : Nat) : Bool := decide (n < 8192)
/-- A path of a queue pair (R401). -/
def pathOk (n : Nat) : Bool := decide (n < 8)
/-- A message sequence number (Table 13.3). -/
def msnOk (n : Nat) : Bool := decide (n < 4294967296)
/-- A filtered input: PERST_N, PWRBRK_N, THROT_N, SHUTDN_N, MGMT_EN, JTAG_EN (R580). -/
def pinOk (n : Nat) : Bool := decide (n < 6)
/-- An input whose assertion is timed: PWRBRK_N or THROT_N (R585). -/
def heldPinOk (n : Nat) : Bool := n == 1 || n == 2
/-- A Pliac credential slot, 12 the transport key (R547). -/
def slotOk (n : Nat) : Bool := decide (n ≤ 12)
/-- An SPDM session (R369). -/
def spdmOk (n : Nat) : Bool := decide (n < 4)
/-- An IDE stream (R371). -/
def ideOk (n : Nat) : Bool := decide (n ≤ 16)
/-- A key set of an IDE stream (R371). -/
def keySetOk (n : Nat) : Bool := decide (n < 2)
/-- A memory controller (R310). -/
def ctlOk (n : Nat) : Bool := decide (n < 24)
/-- A zero engine (R320). -/
def engineOk (n : Nat) : Bool := decide (n < 8)
/-- A serving context (R200). -/
def ctxOk (n : Nat) : Bool := decide (n < 4096)
/-- An aggregation session (R279). -/
def sessionOk (n : Nat) : Bool := decide (n < 64)
/-- A model of a deckle (R223). -/
def modelOk (n : Nat) : Bool := decide (n < 16)
/-- A DRBG instance (R436). -/
def instOk (n : Nat) : Bool := decide (n < 4)
/-- A noise source (Table 15.1). -/
def sourceOk (n : Nat) : Bool := decide (n < 16)
/-- A main clock domain (R412). -/
def domainOk (n : Nat) : Bool := decide (n < 12)
/-- A clock reference (R413). -/
def refOk (n : Nat) : Bool := decide (n < 4)
/-- A class of dual-clock queues (Table 14.3). -/
def cdcOk (n : Nat) : Bool := decide (n < 8)
/-- A life-cycle state (R451). -/
def lcOk (n : Nat) : Bool := decide (n ≤ 4)
/-- An ACLK step (R417). -/
def stepOk (n : Nat) : Bool := decide (n ≤ 36)

/-- A device physical address (R307). -/
def dpaOk (a : Nat) : Bool := decide (a < 0x4800000000) || (decide (0x8000000000 ≤ a) && decide (a < 0xFC00000000))
/-- A frame of device memory (R309). -/
def frameOk (n : Nat) : Bool := dpaOk (n * 65536)
/-- A BAR0 access of 1 to 8 bytes within 64 MiB, of any alignment (R5, R6, R349). -/
def accessOk (addr size : Nat) : Bool := decide (0 < size) && decide (size ≤ 8) && decide (addr + size ≤ 0x4000000)
/-- A BAR2 access of at least one byte within 64 GiB (R349). -/
def bar2Ok (off len : Nat) : Bool := decide (0 < len) && decide (off + len ≤ 0x1000000000)
/-- A raw word of an instruction carries an extension word only where LONG is 1 (Table 05.5). -/
def wordOk (w : IWord) : Bool := w.long || w.ext == 0
/-- Distinct physical quires. -/
def physListOk (l : List Nat) : Bool := l.all physOk && decide l.Nodup
/-- What a boot meets names controllers, quires and a step that exist (R564). -/
def bootOk (b : BootIn) : Bool := b.untrained.all ctlOk && stepOk b.tableMax && physListOk b.unfit && b.requests.all fnOk
/-- A deckle command comes from a function or from Pliac (R475). -/
def sourceOfOk : CmdSource → Bool
  | .function fn => fnOk fn
  | .pliac => true
/-- An upset strikes 1 to 72 bits of a word of a store that exists (Table 17.2). -/
def upsetOk (u : StoreUpset) : Bool :=
  decide (1 ≤ u.bits) && decide (u.bits ≤ 72) && (match u.store with
    | .spad => true
    | .vat sheet _ fmt => sheetOk sheet && tileFmtOk fmt
    | .header sheet _ fmt => sheetOk sheet && tileFmtOk fmt
    | .vreg stream v => streamOk stream && decide (v < 32)
    | .pred stream p => streamOk stream && decide (p < 8))
/-- Upset cells strike a cell array that exists, 1 to 72 bits of one word (R493). -/
def cellOk (u : CellUpset) : Bool :=
  decide (1 ≤ u.bits) && decide (u.bits ≤ 72) && (match u.cell with
    | .slice dk base | .tag _ dk base => decide (dk ≤ 16) && dpaOk base
    | .l1 p base => physOk p && dpaOk base
    | .check c _ => ctlOk c && decide (8 ≤ c)
    | .flit q => quireOk q
    | .handler (.spareMap p) => physOk p
    | .handler (.rowBuffer c) | .handler (.scrubEngine c) => ctlOk c
    | .handler (.zeroEngine e) => engineOk e
    | .handler _ => true)
/-- An upset of a path: the Calender reads a tile that a sheet can hold (R493). -/
def pathUpsetOk (u : PathUpset) : Bool :=
  match u.path with
  | .calender sheet _ fmt => sheetOk sheet && tileFmtOk fmt
  | .stage | .dual | .add => true
/-- A pass sum: half, row, column and bit (R56). -/
def sumBitOk (x : Nat × Nat × Nat × Nat) : Bool := decide (x.1 < 2) && decide (x.2.1 < 16) && decide (x.2.2.1 < 16)
/-- Upsets of a pass: each sum at most once. -/
def passUpsetOk (u : PassUpset) : Bool :=
  let once (l : List (Nat × Nat × Nat × Nat)) : Bool := l.all sumBitOk && decide (l.map (fun x => (x.1, x.2.1, x.2.2.1))).Nodup
  once u.first && once u.again && u.stores.all upsetOk && u.paths.all pathUpsetOk
/-- Upsets of a Beater instruction: elements of a register, each at most once (R101). -/
def laneUpsetOk (u : LaneUpset) : Bool :=
  let once (l : List (Nat × Nat)) : Bool := l.all (fun e => decide (e.1 < 1024)) && decide (l.map (·.1)).Nodup
  once u.first && once u.again && u.stores.all upsetOk && u.paths.all pathUpsetOk
/-- A request for a code word writes at most 128 bytes of it (R332). -/
def ctlReqOk : CtlReq → Bool
  | .read => true
  | .writeWhole b => b.length == 64 || b.length == 128
  | .writePart off b => decide (0 < b.length) && decide (off + b.length ≤ 128)
/-- An MSI-X vector of a function (Table 12.1). -/
def configOk : ConfigAccess → Bool
  | .readBar _ i | .writeBar _ i _ => decide (i < 6)
  | .msixMask v _ => decide (v < 32)
  | _ => true
/-- A byte list has `n` bytes. -/
def lenOk (n : Nat) (b : List Byte) : Bool := b.length == n
/-- The 136 temperature sensors, 12 bits each (R537). -/
def tempsOk (l : List Nat) : Bool := l.length == 136 && l.all (fun t => decide (t < 4096))
/-- What the eight rails measure: mV and 0.1 A, 16 bits each (Table 18.6). -/
def railsOk (l : List (Nat × Nat)) : Bool := l.length == 8 && l.all (fun x => decide (x.1 < 65536) && decide (x.2 < 65536))
/-- The pause quanta of the eight priorities (R380). -/
def quantaOk (l : List Nat) : Bool := l.length == 8 && l.all (fun t => decide (t < 65536))
/-- A MAC address. -/
def macOk (m : Nat) : Bool := decide (m < 2 ^ 48)
/-- An IPv6 address. -/
def ipOk (a : Nat) : Bool := decide (a < 2 ^ 128)
/-- The addresses and UDP ports of a datagram (R543). -/
def datagramOk (d : Datagram) : Bool :=
  macOk d.srcMac && macOk d.dstMac && ipOk d.srcIp && ipOk d.dstIp && decide (d.srcPort < 65536) && decide (d.dstPort < 65536)
/-- A TAP write of an injection register is a BAR0 access (R458). -/
def tapOk : TapOp → Bool
  | .writeInjection addr _ => accessOk addr 4
  | _ => true

/-! ### Commands -/

/-- The operands of a command are well formed. -/
def Instr.wf : Instr → Bool
  | .powerApplied => true
  | .inputOutOfRange => true
  | .inputSample _ _ => true
  | .perstNAssert => true
  | .perstNRelease b => bootOk b
  | .gctReset fn _ b => fnOk fn && bootOk b
  | .flr f => fnOk f
  | .configurationRequest fn a => fnOk fn && configOk a
  | .quireReset fn p => fnOk fn && physOk p
  | .rawPinEdge pin _ => pinOk pin
  | .filterOutputChange pin => pinOk pin
  | .pinHeld pin => heldPinOk pin
  | .pwrbrkNAssert => true
  | .pwrbrkNRelease => true
  | .throtNAssert => true
  | .throtNRelease => true
  | .shutdnNAssert => true
  | .shutdownRailsOff => true
  | .shutdnNRelease => true
  | .registerWrite fn addr size _ => fnOk fn && accessOk addr size
  | .latchingRead fn addr => fnOk fn && accessOk addr 4
  | .logClear fn addr size _ => fnOk fn && accessOk addr size
  | .bar2Read fn off len => fnOk fn && bar2Ok off len
  | .bar2Write fn off data => fnOk fn && bar2Ok off data.length
  | .hostWindowRead fn f _ => fnOk fn && fnOk f
  | .doorbell fn ring _ => fnOk fn && ringOk ring
  | .completionDoorbell fn ring _ => fnOk fn && ringOk ring
  | .ringEnable fn ring _ => fnOk fn && ringOk ring
  | .ringDisable fn ring _ => fnOk fn && ringOk ring
  | .haltClear fn f _ => fnOk fn && fnOk f
  | .descriptorFetch ring _ => ringOk ring
  | .descriptorStart ring _ => ringOk ring
  | .interruptTimer ring => ringOk ring
  | .nop ring _ => ringOk ring
  | .dispatch ring _ => ringOk ring
  | .load ring _ _ => ringOk ring
  | .unload ring _ => ringOk ring
  | .dma ring _ _ => ringOk ring
  | .mload ring _ _ => ringOk ring
  | .submit ring _ _ => ringOk ring
  | .cancel ring _ => ringOk ring
  | .detach ring _ => ringOk ring
  | .setparam ring _ => ringOk ring
  | .modelLoad ring _ => ringOk ring
  | .modelLoaded d m _ => deckleOk d && modelOk m
  | .modelUnload ring _ => ringOk ring
  | .basisRegister ring _ => ringOk ring
  | .basisRelease ring _ => ringOk ring
  | .keyRegister ring _ => ringOk ring
  | .keyRelease ring _ => ringOk ring
  | .releaseDrainEnd d _ => deckleOk d
  | .aggAbandon ring _ => ringOk ring
  | .sessionReleased session => sessionOk session
  | .xltMap ring _ => ringOk ring
  | .xltUnmap ring _ => ringOk ring
  | .getVersion => true
  | .getCapabilities => true
  | .negotiateAlgorithms _ _ => true
  | .pskExchange _ _ => true
  | .pskFinish sess _ => spdmOk sess
  | .heartbeat sess => spdmOk sess
  | .keyUpdate sess => spdmOk sess
  | .endSession sess => spdmOk sess
  | .getMeasurements sess _ nonce => (sess.map spdmOk).getD true && lenOk 32 nonce
  | .chunkSend _ _ _ _ => true
  | .chunkGet _ _ => true
  | .vendorDefinedRequest sess _ => (sess.map spdmOk).getD true
  | .unsupportedRequest _ => true
  | .keyProg sess stream keySet key => spdmOk sess && ideOk stream && keySetOk keySet && lenOk 32 key
  | .kSetGo sess stream keySet => spdmOk sess && ideOk stream && keySetOk keySet
  | .kSetStop sess stream keySet => spdmOk sess && ideOk stream && keySetOk keySet
  | .query sess => spdmOk sess
  | .ideFail stream => ideOk stream
  | .getTdispVersion sess vf => spdmOk sess && vfOk vf
  | .getTdispCapabilities sess vf => spdmOk sess && vfOk vf
  | .lockInterfaceRequest sess vf => spdmOk sess && vfOk vf
  | .getDeviceInterfaceReport sess vf => spdmOk sess && vfOk vf
  | .getDeviceInterfaceState sess vf => spdmOk sess && vfOk vf
  | .startInterfaceRequest sess vf => spdmOk sess && vfOk vf
  | .stopInterfaceRequest sess vf => spdmOk sess && vfOk vf
  | .sAdd q st w => quireOk q && streamOk st && wordOk w
  | .sSub q st w => quireOk q && streamOk st && wordOk w
  | .sAnd q st w => quireOk q && streamOk st && wordOk w
  | .sOr q st w => quireOk q && streamOk st && wordOk w
  | .sXor q st w => quireOk q && streamOk st && wordOk w
  | .sShl q st w => quireOk q && streamOk st && wordOk w
  | .sShr q st w => quireOk q && streamOk st && wordOk w
  | .sSra q st w => quireOk q && streamOk st && wordOk w
  | .sSlt q st w => quireOk q && streamOk st && wordOk w
  | .sSltu q st w => quireOk q && streamOk st && wordOk w
  | .sAddImmediate q st w => quireOk q && streamOk st && wordOk w
  | .sSubImmediate q st w => quireOk q && streamOk st && wordOk w
  | .sAndImmediate q st w => quireOk q && streamOk st && wordOk w
  | .sOrImmediate q st w => quireOk q && streamOk st && wordOk w
  | .sXorImmediate q st w => quireOk q && streamOk st && wordOk w
  | .sShlImmediate q st w => quireOk q && streamOk st && wordOk w
  | .sShrImmediate q st w => quireOk q && streamOk st && wordOk w
  | .sSraImmediate q st w => quireOk q && streamOk st && wordOk w
  | .sSltImmediate q st w => quireOk q && streamOk st && wordOk w
  | .sSltuImmediate q st w => quireOk q && streamOk st && wordOk w
  | .sMul q st w => quireOk q && streamOk st && wordOk w
  | .sMulhu q st w => quireOk q && streamOk st && wordOk w
  | .sMulhs q st w => quireOk q && streamOk st && wordOk w
  | .sDiv q st w => quireOk q && streamOk st && wordOk w
  | .sDivu q st w => quireOk q && streamOk st && wordOk w
  | .sRem q st w => quireOk q && streamOk st && wordOk w
  | .sRemu q st w => quireOk q && streamOk st && wordOk w
  | .sBeq q st w => quireOk q && streamOk st && wordOk w
  | .sBne q st w => quireOk q && streamOk st && wordOk w
  | .sBlt q st w => quireOk q && streamOk st && wordOk w
  | .sBltu q st w => quireOk q && streamOk st && wordOk w
  | .sJmp q st w => quireOk q && streamOk st && wordOk w
  | .sJr q st w => quireOk q && streamOk st && wordOk w
  | .sLd q st w => quireOk q && streamOk st && wordOk w
  | .sSt q st w => quireOk q && streamOk st && wordOk w
  | .sLi q st w => quireOk q && streamOk st && wordOk w
  | .sLiu q st w => quireOk q && streamOk st && wordOk w
  | .sPand q st w => quireOk q && streamOk st && wordOk w
  | .sPor q st w => quireOk q && streamOk st && wordOk w
  | .sPxor q st w => quireOk q && streamOk st && wordOk w
  | .sPnot q st w => quireOk q && streamOk st && wordOk w
  | .sPset q st w => quireOk q && streamOk st && wordOk w
  | .vAdd q st w => quireOk q && streamOk st && wordOk w
  | .vSub q st w => quireOk q && streamOk st && wordOk w
  | .vMul q st w => quireOk q && streamOk st && wordOk w
  | .vFma q st w => quireOk q && streamOk st && wordOk w
  | .vMin q st w => quireOk q && streamOk st && wordOk w
  | .vMax q st w => quireOk q && streamOk st && wordOk w
  | .vCmp q st w => quireOk q && streamOk st && wordOk w
  | .vCvt q st w => quireOk q && streamOk st && wordOk w
  | .vIadd q st w => quireOk q && streamOk st && wordOk w
  | .vIsub q st w => quireOk q && streamOk st && wordOk w
  | .vImul q st w => quireOk q && streamOk st && wordOk w
  | .vShl q st w => quireOk q && streamOk st && wordOk w
  | .vShr q st w => quireOk q && streamOk st && wordOk w
  | .vSra q st w => quireOk q && streamOk st && wordOk w
  | .vAnd q st w => quireOk q && streamOk st && wordOk w
  | .vOr q st w => quireOk q && streamOk st && wordOk w
  | .vXor q st w => quireOk q && streamOk st && wordOk w
  | .vImin q st w => quireOk q && streamOk st && wordOk w
  | .vImax q st w => quireOk q && streamOk st && wordOk w
  | .vExp2 q st w => quireOk q && streamOk st && wordOk w
  | .vLog2 q st w => quireOk q && streamOk st && wordOk w
  | .vRcp q st w => quireOk q && streamOk st && wordOk w
  | .vRsqrt q st w => quireOk q && streamOk st && wordOk w
  | .vSqrt q st w => quireOk q && streamOk st && wordOk w
  | .vTanh q st w => quireOk q && streamOk st && wordOk w
  | .vRsum q st w => quireOk q && streamOk st && wordOk w
  | .vRmax q st w => quireOk q && streamOk st && wordOk w
  | .vRmin q st w => quireOk q && streamOk st && wordOk w
  | .vPerm q st w => quireOk q && streamOk st && wordOk w
  | .vBitrev q st w => quireOk q && streamOk st && wordOk w
  | .vLd q st w => quireOk q && streamOk st && wordOk w
  | .vSt q st w => quireOk q && streamOk st && wordOk w
  | .pipeStart q pipe u => quireOk q && pipeOk pipe && laneUpsetOk u
  | .mAdd q st w => quireOk q && streamOk st && wordOk w
  | .mSub q st w => quireOk q && streamOk st && wordOk w
  | .mNeg q st w => quireOk q && streamOk st && wordOk w
  | .mMuls q st w => quireOk q && streamOk st && wordOk w
  | .mMulg q st w => quireOk q && streamOk st && wordOk w
  | .mTomont q st w => quireOk q && streamOk st && wordOk w
  | .mFrommont q st w => quireOk q && streamOk st && wordOk w
  | .mBfly q st w => quireOk q && streamOk st && wordOk w
  | .mSetq q st w => quireOk q && streamOk st && wordOk w
  | .tZero q st w => quireOk q && streamOk st && wordOk w
  | .tPreload q st w => quireOk q && streamOk st && wordOk w
  | .tMma q st w => quireOk q && streamOk st && wordOk w
  | .pass q sheet u => quireOk q && sheetOk sheet && passUpsetOk u
  | .tMerge q st w => quireOk q && streamOk st && wordOk w
  | .tDrain q st w => quireOk q && streamOk st && wordOk w
  | .tRmax q st w => quireOk q && streamOk st && wordOk w
  | .tRmin q st w => quireOk q && streamOk st && wordOk w
  | .orderingOperationStart q sheet slot fmt => quireOk q && sheetOk sheet && decide (slot < 32) && tileFmtOk fmt
  | .pNtt q st w => quireOk q && streamOk st && wordOk w
  | .pIntt q st w => quireOk q && streamOk st && wordOk w
  | .pAuto q st w => quireOk q && streamOk st && wordOk w
  | .pKsw q st w => quireOk q && streamOk st && wordOk w
  | .pRescale q st w => quireOk q && streamOk st && wordOk w
  | .pBoot q st w => quireOk q && streamOk st && wordOk w
  | .pGate q st w => quireOk q && streamOk st && wordOk w
  | .pLut q st w => quireOk q && streamOk st && wordOk w
  | .pAdd q st w => quireOk q && streamOk st && wordOk w
  | .pSub q st w => quireOk q && streamOk st && wordOk w
  | .pMulp q st w => quireOk q && streamOk st && wordOk w
  | .pMulc q st w => quireOk q && streamOk st && wordOk w
  | .aOpen q st w => quireOk q && streamOk st && wordOk w
  | .aIngest q st w => quireOk q && streamOk st && wordOk w
  | .aExpand q st w => quireOk q && streamOk st && wordOk w
  | .aStage q st w => quireOk q && streamOk st && wordOk w
  | .aCommit q st w => quireOk q && streamOk st && wordOk w
  | .aAbort q st w => quireOk q && streamOk st && wordOk w
  | .aRetract q st w => quireOk q && streamOk st && wordOk w
  | .aFinal q st w => quireOk q && streamOk st && wordOk w
  | .cAttach q st w => quireOk q && streamOk st && wordOk w
  | .cStep q st w => quireOk q && streamOk st && wordOk w
  | .cSample q st w => quireOk q && streamOk st && wordOk w
  | .cSwap q st w => quireOk q && streamOk st && wordOk w
  | .swapEnd ctx => ctxOk ctx
  | .autoSwapOut d => deckleOk d
  | .autoSwapIn d => deckleOk d
  | .dCopy q st w => quireOk q && streamOk st && wordOk w
  | .dPref q st w => quireOk q && streamOk st && wordOk w
  | .dMload q st w => quireOk q && streamOk st && wordOk w
  | .prefetchRequest q hs => quireOk q && headboxOk hs
  | .xFence q st w => quireOk q && streamOk st && wordOk w
  | .fenceEnd q st => quireOk q && streamOk st
  | .xWait q st w => quireOk q && streamOk st && wordOk w
  | .xWaitEnd q st => quireOk q && streamOk st
  | .xWaitTimeout q st => quireOk q && streamOk st
  | .xSignal q st w => quireOk q && streamOk st && wordOk w
  | .xBar q st w => quireOk q && streamOk st && wordOk w
  | .xBarRelease q st => quireOk q && streamOk st
  | .xSend q st w => quireOk q && streamOk st && wordOk w
  | .xRecv q st w => quireOk q && streamOk st && wordOk w
  | .xEnd q st w => quireOk q && streamOk st && wordOk w
  | .kSha q st w => quireOk q && streamOk st && wordOk w
  | .kAes q st w => quireOk q && streamOk st && wordOk w
  | .kShake q st w => quireOk q && streamOk st && wordOk w
  | .release fn p _ => fnOk fn && physOk p
  | .roleAssignment fn p _ => fnOk fn && physOk p
  | .messageArrival src dst => quireOk src && quireOk dst
  | .messageResend src dst => quireOk src && quireOk dst
  | .returnArrival q => quireOk q
  | .controllerRequest dpa r => dpaOk dpa && ctlReqOk r
  | .zeroFill frame => frameOk frame
  | .zeroRequestEnd engine => engineOk engine
  | .patrolScrubRead c us => ctlOk c && us.all cellOk
  | .translationEnable fn d _ => fnOk fn && deckleOk d
  | .translationDisable fn d _ => fnOk fn && deckleOk d
  | .flipArm fn c _ => fnOk fn && ctlOk c
  | .soft fn c _ => fnOk fn && ctlOk c
  | .hard fn c _ => fnOk fn && ctlOk c
  | .softRepairEnd c _ => ctlOk c
  | .poolEnable fn d _ => fnOk fn && deckleOk d
  | .poolDisable fn d _ => fnOk fn && deckleOk d
  | .portEnable fn p _ => fnOk fn && portOk p
  | .portDisable fn p _ => fnOk fn && portOk p
  | .trainingComplete p _ => portOk p
  | .linkLoss p _ => portOk p
  | .linkHoldExpired p => portOk p
  | .helloTransmit p => portOk p
  | .izkaiHello p => portOk p
  | .negotiateFail p => portOk p
  | .pfcFrame p _ quanta => portOk p && quantaOk quanta
  | .xoff p => portOk p
  | .xon p => portOk p
  | .pfcStorm p prio => portOk p && prioOk prio
  | .frameReceive p _ => portOk p
  | .write p => portOk p
  | .writeImm p => portOk p
  | .send p => portOk p
  | .readReq p => portOk p
  | .readResp p => portOk p
  | .ack p => portOk p
  | .nak p => portOk p
  | .credit p => portOk p
  | .creditReq p => portOk p
  | .terminate p => portOk p
  | .ackTimer qp path => qpOk qp && pathOk path
  | .rtoExpiry qp path => qpOk qp && pathOk path
  | .rnrDelayExpiry qp path => qpOk qp && pathOk path
  | .creditTimeout qp => qpOk qp
  | .msgTmoExpiry qp msn => qpOk qp && msnOk msn
  | .qpDoorbell qp _ => qpOk qp
  | .sendEntryStart qp => qpOk qp
  | .triggeredStart qp => qpOk qp
  | .qpCreate fn d _ => fnOk fn && deckleOk d
  | .qpModify fn d _ => fnOk fn && deckleOk d
  | .qpDestroy fn d _ => fnOk fn && deckleOk d
  | .cqCreate fn d _ => fnOk fn && deckleOk d
  | .cqDestroy fn d _ => fnOk fn && deckleOk d
  | .mrReg fn d _ => fnOk fn && deckleOk d
  | .mrDereg fn d _ => fnOk fn && deckleOk d
  | .revocationDrainEnd d => deckleOk d
  | .primaryUnlock dom => domainOk dom
  | .standbyUnlock dom => domainOk dom
  | .pllDualLost dom => domainOk dom
  | .refLost r => refOk r
  | .refPresent r => refOk r
  | .primaryRelock dom => domainOk dom
  | .switchBack fn _ => fnOk fn
  | .aclkStep => true
  | .cdcPtrMismatch cls _ _ => cdcOk cls
  | .eventRecordEntry => true
  | .eventDelivery dest => destOk dest
  | .eventRingEnable fn f _ => fnOk fn && fnOk f
  | .eventRingDisable fn f _ => fnOk fn && fnOk f
  | .eventHead fn f _ => fnOk fn && fnOk f
  | .fatalClear fn size _ => fnOk fn && (size == 4 || size == 8)
  | .sample src _ => sourceOk src
  | .instantiate g => instOk g
  | .generate g => instOk g
  | .reseed g => instOk g
  | .htInjArm fn _ => fnOk fn
  | .seal fn _ => fnOk fn
  | .loadKey fn d _ => fnOk fn && deckleOk d
  | .destroy fn d _ => fnOk fn && deckleOk d
  | .create src _ _ => sourceOfOk src
  | .grant src _ _ => sourceOfOk src
  | .reclaim src _ _ => sourceOfOk src
  | .reset src _ _ => sourceOfOk src
  | .remove src _ _ => sourceOfOk src
  | .drainClose d => deckleOk d
  | .keyDestruction d => deckleOk d
  | .scrubEnd d => deckleOk d
  | .eraseEnd d => deckleOk d
  | .liveActivation => true
  | .reportSigned => true
  | .retire fn p => fnOk fn && physOk p
  | .errAck fn p => fnOk fn && physOk p
  | .windowExpiry p => physOk p
  | .retirement failed => physListOk failed
  | .quireBucketLeak p => physOk p
  | .frameBucketLeak c => ctlOk c
  | .shtInjArm fn p _ => fnOk fn && physOk p
  | .btrInjArm fn p _ => fnOk fn && physOk p
  | .laneFailure _ => true
  | .tick => true
  | .excursion => true
  | .peak => true
  | .droop p => physOk p
  | .sensorRead x => tempsOk x.temps && railsOk x.rails
  | .caldrop => true
  | .idleWindow tableMax => stepOk tableMax
  | .hello slot => slotOk slot
  | .bye slot => slotOk slot
  | .identity slot => slotOk slot
  | .telemetry slot => slotOk slot
  | .report slot => slotOk slot
  | .power slot => slotOk slot
  | .pliacReset slot b => slotOk slot && bootOk b
  | .pliacRetire slot failed => slotOk slot && physListOk failed
  | .partition slot => slotOk slot
  | .partitionStatus slot => slotOk slot
  | .lcSet slot b => slotOk slot && bootOk b
  | .mode slot => slotOk slot
  | .arbAdvance slot => slotOk slot
  | .imgBegin slot => slotOk slot
  | .eraseDone => true
  | .imgWrite slot => slotOk slot
  | .imgCommit slot _ => slotOk slot
  | .imgStatus slot => slotOk slot
  | .stagingTimeout => true
  | .linkKey slot => slotOk slot
  | .credInstall slot => slotOk slot
  | .credRemove slot => slotOk slot
  | .eventSub slot => slotOk slot
  | .eventAck slot => slotOk slot
  | .event slot => slotOk slot
  | .eventResend slot => slotOk slot
  | .sessionTimeout slot => slotOk slot
  | .datagramReceive d => datagramOk d
  | .neighborSolicitation e src target => macOk e.src && macOk e.dst && ipOk src && ipOk target
  | .echoRequest e src dst _ => macOk e.src && macOk e.dst && ipOk src && ipOk dst
  | .smbusIdentityRead => true
  | .smbusDieTemperature => true
  | .smbusMemoryTemperature => true
  | .smbusImageSeq => true
  | .smbusFaultStatus => true
  | .smbusWrite _ => true
  | .standbyRelock dom => domainOk dom
  | .tapAccess a => tapOk a
  | .jtagLifeCycleRequest target b => lcOk target && bootOk b
  | .hostLinkReenable => true
  | .pauseExpiry p prio => portOk p && prioOk prio
  | .droopRecovery p => physOk p
  | .managementLinkChange _ => true

end Sys2Proof
end

