-- ==== Sys2Proof/Tests/Slice0.lean ====
section
/-! SUPPORT. Tests: each check of well-formedness refuses an ill-formed command, states that meet the hypotheses of the statements, and
worked values of the manual. -/

namespace Sys2Proof.Tests

open Sys2Proof.Machine Sys2Proof.Safety

set_option Elab.async false

/-! ### Small states -/

/-- The translation tables of `bare`: the level-1 table at 65,536 and a level-2 table at 69,632, whose entries map 2 MiB pages. -/
def tables : Tab Byte :=
  [(65536, 0x01#8), (65537, 0x10#8), (65538, 0x01#8), (69632, 0x07#8), (69634, 0x20#8), (69640, 0x07#8), (69642, 0x40#8), (69648, 0x07#8),
    (69650, 0x60#8), (69656, 0x07#8), (69658, 0x80#8), (69664, 0x07#8), (69666, 0xa0#8), (69672, 0x07#8), (69674, 0xc0#8), (69680, 0x07#8),
    (69682, 0xe0#8), (69688, 0x07#8), (69692, 0x80#8)]

/-- A device ready for work: deckle 0 holds the group of logical quires 0–3, which sit on physical quires 0–3; its addresses below
14 MiB map to DPA 2 MiB and up, the next 2 MiB to LPDDR5X, its translation area is at DPA 64 KiB and program 0 at address 0. -/
def bare : State :=
  { power.rails := true
    boot := { held := false, ready := true, pcieUp := true, fusesRead := true }
    fuses := factoryFuses
    phys := [(0, { logical := some 0 }), (1, { logical := some 1 }), (2, { logical := some 2 }), (3, { logical := some 3 })]
    quires := [(0, { role := 1, streams := [(0, { state := .running })] })]
    deckles := [(0, { phase := .active, groups := 1, programs := [(0, { gen := 0, live := true, base := 0, size := 4096, codeSize := 64, features := 65535, vminor := 1, streams := 8, spadBytes := 2097152, entries := [0] })] })]
    dram := { data := tables, owner := [(0, 1)] } }

/-- The device of `bare` with translation on. -/
def ready : State := { bare with regs := [(1474560, 65536), (1474568, 1), (1474576, 1)] }
theorem ready_eq : ready = rset (rset (rset bare .memXltBase 65536) .memXltSize 1) .memDctl 1 := by decide +kernel

/-- `ready` with an instruction at the PC of stream 0 of quire 0. -/
def at0 (o : Op) (w : IWord) : State :=
  { ready with dram.data := tputs 0#8 ready.dram.data 2097152 (leBytes 8 (baseWord o.maj o.sub w) ++ leBytes 8 w.ext.toNat) }

/-- `Takes` as a computation. -/
def takesB (s : State) (q st : Nat) (o : Op) (w : IWord) : Bool :=
  mayIssue s q st && (match (fetch s q st).2 with
      | .word b e => b == baseWord o.maj o.sub w && (!w.long || e == w.ext.toNat)
      | _ => false)
    && decodes o w && gatesOk o (programOf (fetch s q st).1 q st) && (quire (fetch s q st).1 q).upsets.isEmpty
    && (w.pg == 0 || !(flightsOf (quire (fetch s q st).1 q) st).any (fun g => g.pWr.contains w.pg.toNat))
    && (o.masks || ((stream (fetch s q st).1 q st).p w.pg.toNat).getLsbD 0)
    && !hazard (quire (fetch s q st).1 q) (newFlight (fetch s q st).1 q st w o) (scalarReads o w)
    && !windowFull (quire (fetch s q st).1 q) st

/-- A guard read without upsets lets the instruction go on and leaves the state. -/
theorem guardPassed_clean {s : State} {q : Nat} (h : (quire s q).upsets = []) (st : Nat) (w : IWord) (o : Op) :
    guardPassed s q st w o = (s, true) := by simp [guardPassed, guardRead, upsetOf, h]

/-- The computation decides it. -/
theorem takes_of {s : State} {q st : Nat} {o : Op} {w : IWord} (h : takesB s q st o w = true) : Takes s q st o w (fetch s q st).1 := by
  simp only [takesB, Bool.and_eq_true, Bool.or_eq_true, beq_iff_eq, Bool.not_eq_true', List.isEmpty_iff] at h
  obtain ⟨⟨⟨⟨⟨⟨⟨⟨h1, h2⟩, h3⟩, h4⟩, h0⟩, h5⟩, h6⟩, h7⟩, h8⟩ := h
  refine ⟨h1, ⟨(fetch s q st).1, ?_, h3, h4, h5, guardPassed_clean h0 st w o⟩, h6, h7, h8⟩
  split at h2
  · rename_i b e he
    simp only [Bool.and_eq_true, Bool.or_eq_true, beq_iff_eq, Bool.not_eq_true'] at h2
    refine ⟨e, Prod.ext rfl (by rw [he, h2.1]), fun hl => ?_⟩
    rcases h2.2 with h | h
    · simp [hl] at h
    · exact h
  · simp at h2

/-- A step of a P. or an A. instruction ends without a stop. -/
def okIn {ε α : Type} (m : ExceptT ε (StateM State) α) (u : State) : Bool := match (m.run u).1 with
  | .ok _ => true
  | .error _ => false
/-- What it gives. -/
def got {ε α : Type} [Inhabited α] (m : ExceptT ε (StateM State) α) (u : State) : α := match (m.run u).1 with
  | .ok a => a
  | .error _ => default
/-- The state it leaves. -/
def after {ε α : Type} (m : ExceptT ε (StateM State) α) (u : State) : State := (m.run u).2
/-- The three together. -/
theorem does_of {ε α : Type} [Inhabited α] {m : ExceptT ε (StateM State) α} {u : State} (h : okIn m u = true) :
    m.run u = (.ok (got m u), after m u) := by
  unfold okIn at h
  unfold got after
  split at h
  · rename_i a ha
    exact Prod.ext ha rfl
  · simp at h

/-! ### Premises of the scalar statements -/

/-- The stream of `ready` takes the word of the operation at its PC. -/
abbrev Runs (o : Op) (w : IWord) : Prop := takesB (at0 o w) 0 0 o w = true

theorem test_takes_scalar_register : Runs (sReg 1 0) { f1 := 1, f2 := 2, low := 3 * 2 ^ 29 } := by decide +kernel
theorem test_takes_scalar_immediate : Runs (sImm 9) { f1 := 63, f2 := 2, low := 0x7FFFFFFFF } := by decide +kernel
theorem test_takes_scalar_division : Runs (sReg 3 6) { f2 := 63, low := 63 * 2 ^ 29 } := by decide +kernel
theorem test_takes_branch : Runs (sBr 3) { f2 := 1, low := 2 * 2 ^ 29 + 2 ^ 29 - 1 } := by decide +kernel
theorem test_takes_jump : Runs { maj := 4, sub := 4, opt := maskOf 28 0 } { low := 2 ^ 29 - 1 } := by decide +kernel
theorem test_takes_jump_register : Runs { maj := 4, sub := 5, f2 := .s } { f2 := 63 } := by decide +kernel
theorem test_takes_load_immediate : Runs { maj := 6, sub := 0, f1 := .sw, opt := maskOf 34 0 } { f1 := 1, low := 2 ^ 35 - 1 } := by decide +kernel
theorem test_takes_load_upper : Runs { maj := 6, sub := 1, f1 := .sx, opt := maskOf 28 0 } { f1 := 1, low := 2 ^ 29 - 1 } := by decide +kernel
theorem test_takes_predicate : Runs (sPred 3 .p .none 0 true) { f1 := 1, f2 := 7 } := by decide +kernel
theorem test_takes_predicate_pair : Runs (sPred 0 .p .p 0 true) { f1 := 1, f2 := 7, low := 2 * 2 ^ 29 } := by decide +kernel
theorem test_takes_predicate_count : Runs (sPred 4 .none .none (maskOf 10 0) (decide (bits 1024 10 0 ≤ 1024))) { f1 := 7, low := 1024 } := by
  decide +kernel

/-- S.LD of address 8, ordered, passes its checks and reads. -/
theorem test_load_premises :
    let w : IWord := { ord := 2, f1 := 1, low := 8 }
    let s := at0 (sMem 0 .sw) w
    let s1 := (fetch s 0 0).1
    let f := { newFlight s1 0 0 w (sMem 0 .sw) with mem := [(8, 8)] }
    let u := consumeLines (advance s1 0 0 w) 0 [(8, 8)]
    takesB s 0 0 (sMem 0 .sw) w = true ∧ blocked (quire s1 0) f = false ∧ fenceHolds u 0 f 3 = true
      ∧ (dkRead u (dkOf u 0) (.l1 (pOf u 0)) 8 8).2 = .ok (leBytes 8 0) := by decide +kernel
/-- S.ST to address 16 passes its checks and writes. -/
theorem test_store_premises :
    let w : IWord := { f1 := 1, low := 4096 }
    let s := at0 (sMem 1 .s) w
    let s1 := (fetch s 0 0).1
    let f := { newFlight s1 0 0 w (sMem 1 .s) with mem := [(4096, 8)] }
    let u := consumeLines (advance s1 0 0 w) 0 [(4096, 8)]
    takesB s 0 0 (sMem 1 .s) w = true ∧ blocked (quire s1 0) f = false
      ∧ (dkWrite u (dkOf u 0) (.l1 (pOf u 0)) 4096 (leBytes 8 5)).2 = none := by decide +kernel

/-! ### Premises of the vector and modular statements -/

/-- The stream takes the word, and its pipes are free. -/
abbrev RunsOn (m : Nat) (o : Op) (w : IWord) : Prop :=
  takesB (at0 o w) 0 0 o w = true ∧ PipesFree (advance (fetch (at0 o w) 0 0).1 0 0 w) 0 m

theorem test_takes_vector_integer : RunsOn 1 (vInt 5 { f2 := 2, low := 3 * 2 ^ 29 }) { f1 := 1, f2 := 2, low := 3 * 2 ^ 29 } := by decide +kernel
theorem test_takes_vector_integer_scalar :
    RunsOn 1 (vInt 5 { low := 63 * 2 ^ 29 + 2 ^ 16 }) { f1 := 31, f2 := 2, low := 63 * 2 ^ 29 + 2 ^ 16 } := by decide +kernel
theorem test_takes_vector_float : RunsOn 1 (vFp 4 { low := 3 * 2 ^ 29 }) { f1 := 1, f2 := 2, low := 3 * 2 ^ 29 } := by decide +kernel
theorem test_takes_vector_fma :
    RunsOn 1 { vFp 3 { low := 3 * 2 ^ 29 + 4 * 2 ^ 23 + 2 ^ 22 } with f4 := .v } { f1 := 1, f2 := 2, low := 3 * 2 ^ 29 + 4 * 2 ^ 23 + 2 ^ 22 } := by
  decide +kernel
theorem test_takes_vector_transcendental : RunsOn 4 (vTrn 5) { f1 := 1, f2 := 2 } := by decide +kernel
theorem test_takes_vector_compare :
    let w : IWord := { f1 := 1, f2 := 2, low := 3 * 2 ^ 29 + 5 * 2 ^ 19 }
    RunsOn 1 { vFp 6 w with f1 := .pw, opt := maskOf 22 19 + maskOf 16 16, codes := decide (optF w 21 19 < 6) } w := by decide +kernel
theorem test_takes_vector_convert :
    let w : IWord := { f1 := 1, f2 := 2, low := 2 ^ 20 }
    RunsOn 1 { maj := 8, sub := 7, f1 := .vw, f2 := .v, opt := maskOf 21 17, masks := true,
               codes := optF w 21 20 != 3 && optF w 19 18 != 3 } w := by decide +kernel
theorem test_takes_vector_permute :
    RunsOn 8 { maj := 0x0B, sub := 0, f1 := .vw, f2 := .v, f3 := .v, opt := maskOf 22 22, masks := true }
      { f1 := 1, f2 := 2, low := 3 * 2 ^ 29 + 2 ^ 22 } := by decide +kernel
theorem test_takes_vector_bit_reverse :
    let w : IWord := { f1 := 1, f2 := 2, low := 9 * 2 ^ 18 }
    RunsOn 8 { maj := 0x0B, sub := 1, f1 := .vw, f2 := .v, opt := maskOf 22 18, masks := true,
               codes := decide (1 ≤ optF w 21 18) && decide (optF w 21 18 ≤ 9 - optF w 22 22) } w := by decide +kernel
theorem test_takes_vector_reduction : RunsOn 4 (vRed 8 { f2 := 24, low := 3 * 2 ^ 20 }) { f1 := 1, f2 := 24, low := 3 * 2 ^ 20 } := by decide +kernel
theorem test_takes_segmented_reduction : RunsOn 4 (vRed 9 { low := 10 * 2 ^ 16 + 2 ^ 22 }) { f1 := 1, low := 10 * 2 ^ 16 + 2 ^ 22 } := by
  decide +kernel
theorem test_vector_load_premises :
    let o : Op := { maj := 0x0C, sub := 0, f1 := .vw, f2 := .s, masks := true, effect := true }
    let w : IWord := { f1 := 1 }
    let s1 := (fetch (at0 o w) 0 0).1
    takesB (at0 o w) 0 0 o w = true ∧ (stream s1 0 0).s 0 = 0 ∧ (quire (advance s1 0 0 w) 0).upsets = []
      ∧ blocked (quire s1 0) { newFlight s1 0 0 w o with spRd := [(0, 2048)] } = false ∧ spadBad s1 0 0 2048 = false := by decide +kernel
theorem test_vector_store_premises :
    let o : Op := { maj := 0x0C, sub := 1, f1 := .v, f2 := .s, masks := true, effect := true }
    let w : IWord := { f1 := 1 }
    let s1 := (fetch (at0 o w) 0 0).1
    takesB (at0 o w) 0 0 o w = true ∧ blocked (quire s1 0) { newFlight s1 0 0 w o with spWr := [(0, 2048)] } = false
      ∧ (stream s1 0 0).p 0 = BitVec.allOnes 1024 := by decide +kernel

/-- `at0` with a slot q0 of modulus `m` and s1 = `v`. -/
def modAt (m v : Nat) (o : Op) (w : IWord) : State :=
  { at0 o w with quires := [(0, { role := 1, streams := [(0, { state := .running, sregs := [(1, BitVec.ofNat 64 v)], mslots := [(0, makeSlot m)] })] })] }

/-- The stream takes a modular instruction on a slot that is valid. -/
abbrev RunsMod (m mask : Nat) (o : Op) (w : IWord) : Prop :=
  let s1 := (fetch (modAt m 5 o w) 0 0).1
  takesB (modAt m 5 o w) 0 0 o w = true ∧ PipesFree (advance s1 0 0 w) 0 mask ∧ slotBusy (quire s1 0) (newFlight s1 0 0 w o) = false
    ∧ (slotNamed s1 0 0 w).kind ≠ .invalid

theorem test_takes_modular_shift :
    let w : IWord := { f1 := 1, f2 := 2, low := 3 * 2 ^ 29 + 4 * 2 ^ 23 }
    RunsMod (2 ^ 60 - 2 ^ 17 + 1) 2 (mOp 3 w true true true) w ∧ (makeSlot (2 ^ 60 - 2 ^ 17 + 1)).kind = .shift := by decide +kernel
theorem test_takes_modular_general :
    let w : IWord := { f1 := 1, f2 := 2, low := 1 * 2 ^ 29 + 32 * 2 ^ 23 + 2 ^ 19 }
    RunsMod 97 2 (mOp 4 w true true true) w := by decide +kernel
theorem test_takes_modular_negate : RunsMod 97 2 (mOp 2 { f1 := 1, f2 := 2 } false false false) { f1 := 1, f2 := 2 } := by decide +kernel
theorem test_takes_butterfly_inside :
    let w : IWord := { f1 := 1, f2 := 2, low := 4 * 2 ^ 23 + 7 * 2 ^ 16 + 2 ^ 15 }
    RunsMod 97 10 (mBflyOp w) w ∧ optF w 19 16 = 7 := by decide +kernel
theorem test_takes_butterfly_across :
    let w : IWord := { f2 := 2, low := 3 * 2 ^ 29 + 4 * 2 ^ 23 + 8 * 2 ^ 16 }
    RunsMod 97 10 (mBflyOp w) w ∧ optF w 19 16 = 8 ∧ w.f2.toNat ≠ f3Of w := by decide +kernel
theorem test_set_modulus_premises :
    let o : Op := { maj := 0x10, sub := 8, f1 := .s, opt := maskOf 22 20 }
    let w : IWord := { f1 := 1, low := 7 * 2 ^ 20 }
    let s := modAt 97 (2 ^ 60 - 1) o w
    let s1 := (fetch s 0 0).1
    takesB s 0 0 o w = true ∧ PipesFree (advance s1 0 0 w) 0 2 ∧ slotBusy (quire s1 0) (newFlight s1 0 0 w o) = false
      ∧ (stream s1 0 0).s 1 = 2 ^ 60 - 1 := by decide +kernel
theorem test_montgomery_premises : ∃ q x y z : Nat, q % 2 = 1 ∧ 3 ≤ q ∧ q < 2 ^ 60 ∧ x < q ∧ y < q ∧ z < q := ⟨3, 2, 1, 0, by decide⟩
theorem test_montgomery_shift_premises :
    ∃ a b x y z : Nat, 30 ≤ a ∧ a ≤ 60 ∧ 17 ≤ b ∧ b < a ∧ x < 2 ^ a - 2 ^ b + 1 ∧ y < 2 ^ a - 2 ^ b + 1 ∧ z < 2 ^ a - 2 ^ b + 1 :=
  ⟨30, 29, 1, 2, 3, by decide⟩

/-- A multiplication that waits for the MOD pipe. -/
def waiting : Flight :=
  let w : IWord := { f1 := 1, f2 := 2 }
  { newFlight ready 0 0 w (mOp 2 w false false false) with phase := .queued, part := pipesPart 2 }
/-- `ready` with that flight in quire 0. -/
def waitingState : State :=
  { ready with quires := [(0, { streams := [(0, { state := .running, nextSeq := 1, mslots := [(0, makeSlot 97)] })], flights := [waiting], pipeBusy := 2 })] }
theorem test_pipe_start_premises :
    let x := quire waitingState 0
    waitingState.boot.ready = true ∧ waitingState.fe = false ∧ (pipeWaits x (2 ^ 1)).head? = some waiting
      ∧ (pipeWaits x (partPipes waiting.part)).head? = some waiting
      ∧ (quire (setQuire waitingState 0 { x with pipeBusy := x.pipeBusy - (x.pipeBusy &&& 2 ^ 1) }) 0).pipeBusy &&& partPipes waiting.part = 0
      ∧ pipeWaits x (2 ^ 3) = [] := by decide +kernel

/-! ### Premises of the tile statements -/

/-- An open square tile of zeros on sheet 0, slot 0, format Vat-N, owned by stream 0. -/
def someTile : Tile := { sheet := 0, slot := 0, fmt := 0, shape := 0, owner := 0, shared := false, elems := List.replicate 256 0 }

/-- `at0` with that tile under handle t1, scalar registers, and flights. -/
def tileAt0 (regs : Tab Word) (fl : List Flight) (o : Op) (w : IWord) : State :=
  { at0 o w with quires := [(0, { role := 1, handles := [(1, ⟨0, 0, 0, 0⟩)], tiles := [someTile], flights := fl
                                  streams := [(0, { state := .running, sregs := regs })] })] }

theorem test_zero_tile_premises :
    let w : IWord := { f1 := 31, low := 31 * 2 ^ 18 + 2 ^ 8 }
    let s := at0 (openOp 0 w) w
    let s1 := (fetch s 0 0).1
    takesB s 0 0 (openOp 0 w) w = true ∧ openingCheck (quire s1 0) (openingOf w) 0 = (0, []) ∧ SheetFree s1 0 (openingOf w).key
      ∧ (quire s1 0).flights.any acquiring = false := by decide +kernel
theorem test_preload_premises :
    let w : IWord := { f1 := 1, f2 := 2, low := 2 * 2 ^ 6 + 2 ^ 5 + 7 * 2 }
    let s := at0 (openOp 1 w) w
    let s1 := (fetch s 0 0).1
    let o := openingOf w
    takesB s 0 0 (openOp 1 w) w = true ∧ openingCheck (quire s1 0) o 0 = (0, []) ∧ SheetFree s1 0 o.key
      ∧ (quire s1 0).flights.any acquiring = false ∧ o.sfmt < 8 ∧ ¬ (o.key.2.2 = 2 ∧ o.sfmt < 4) ∧ SpadOperand 0 (preloadBytes o)
      ∧ blocked (quire s1 0) { newFlight s1 0 0 w (openOp 1 w) with spRd := [(0, preloadBytes o)] } = false ∧ (quire s1 0).upsets = [] ∧ (quire s1 0).strikes = []
      ∧ spadBad s1 0 0 (preloadBytes o) = false := by decide +kernel
/-- T.DRAIN of format `c` with the last bits `low` of its options. -/
abbrev DrainPremises (c low : Nat) : Prop :=
  let w : IWord := { f1 := 1, f2 := 2, low := BitVec.ofNat 35 (5 * 2 ^ 29 + c * 2 ^ 19 + low) }
  let o : Op := { maj := 0x14, sub := 4, f1 := .t, f2 := .s, f3 := .sw, opt := maskOf 22 6, codes := decide (optF w 22 19 ≤ 8)
                  effect := true, gates := (if optF w 22 19 = 8 then [8] else []) ++ (if optF w 18 18 = 1 then [9] else []) }
  let s := tileAt0 [] [] o w
  let s1 := (fetch s 0 0).1
  let len := if c = 8 then 64 + elemsOf 0 * (vatBits 0 / 8) else elemsOf 0 * (calWidth c / 8)
  takesB s 0 0 o w = true ∧ optF w 22 19 = c ∧ optF w 18 18 = 0 ∧ OwnTile s1 0 0 1 someTile ∧ SheetFree s1 0 someTile.key
    ∧ (quire s1 0).upsets = [] ∧ (quire s1 0).strikes = [] ∧ resSum someTile.elems = someTile.res ∧ SpadOperand 0 len
    ∧ blocked (quire s1 0) { newFlight s1 0 0 w o with spWr := [(0, len)] } = false
theorem test_drain_premises : DrainPremises 0 (2 ^ 6) := by decide +kernel
theorem test_drain_last_format_premises : DrainPremises 7 (2 ^ 7) := by decide +kernel
theorem test_drain_raw_premises : DrainPremises 8 0 := by decide +kernel
theorem test_tile_reduction_premises :
    let w : IWord := { f1 := 1, f2 := 2, low := 3 * 2 ^ 29 + 4 * 2 ^ 23 + 2 ^ 8 + 3 * 2 ^ 5 }
    let o := redOp 6 w
    let s := tileAt0 [(3, 8192)] [] o w
    let s1 := (fetch s 0 0).1
    let len := 16 * 4 * 4
    takesB s 0 0 o w = true ∧ optF w 18 18 = 0 ∧ OwnTile s1 0 0 1 someTile ∧ SheetFree s1 0 someTile.key ∧ (quire s1 0).upsets = [] ∧ (quire s1 0).strikes = []
      ∧ resSum someTile.elems = someTile.res ∧ SpadOperand 0 len ∧ SpadOperand 8192 (2 * (16 * 4))
      ∧ overlaps (0, len) (8192, 2 * (16 * 4)) = false
      ∧ blocked (quire s1 0) { newFlight s1 0 0 w o with spWr := [(0, len), (8192, 2 * (16 * 4))] } = false := by decide +kernel

/-- The operation of T.MMA. -/
def mmaOp (w : IWord) : Op :=
  let fa := optF w 22 19
  let fb := optF w 18 15
  { maj := 0x14, sub := 2, f1 := .t, f2 := .s, f3 := .s, f4 := .s, opt := maskOf 22 15, effect := true
    long := elGroup fa == 4 && elGroup fb == 4 && decide (fa < 10) && decide (fb < 10)
    codes := decide (fa < 10) && decide (fb < 10)
    gates := (if (7 ≤ fa && fa < 10) || (7 ≤ fb && fb < 10) then [0] else []) ++ (if elGroup fa = 2 || elGroup fb = 2 then [1] else []) }
/-- T.MMA of BF16 panels at 0 and 64 KiB, of depth 65,536. -/
def mmaWord : IWord := { f1 := 1, f2 := 2, low := 3 * 2 ^ 29 + 4 * 2 ^ 23 }
theorem test_mma_premises :
    let w := mmaWord
    let o := mmaOp w
    let s := tileAt0 [(3, 65536), (4, 1024)] [] o w
    let s1 := (fetch s 0 0).1
    let fa := optF w 22 19
    takesB s 0 0 o w = true ∧ elGroup fa = elGroup (optF w 18 15) ∧ passDepth (elGroup fa) ≤ 1024 ∧ 1024 % passDepth (elGroup fa) = 0
      ∧ OwnTile s1 0 0 1 someTile ∧ vatAccepts (elGroup fa) 0 = true ∧ SheetFree s1 0 someTile.key
      ∧ ∀ r ∈ mmaPanels (newFlight s1 0 0 w o) 0, SpadOperand r.1 r.2 := by decide +kernel
/-- That T.MMA in its sheet's queue. -/
def mmaFlight : Flight :=
  { newFlight (tileAt0 [(3, 65536), (4, 1024)] [] (mmaOp mmaWord) mmaWord) 0 0 mmaWord (mmaOp mmaWord) with
    part := .sheet 0, tile := some (0, 0, 0), phase := .mma 0 }
theorem test_pass_premises :
    let s := tileAt0 [] [mmaFlight] (mmaOp mmaWord) mmaWord
    let x := quire s 0
    let fa := optF mmaWord 22 19
    s.boot.ready = true ∧ s.fe = false ∧ nextMma x 0 = some (mmaFlight, 0) ∧ mmaFlight.tile = some someTile.key
      ∧ tileAt x someTile.key = some someTile ∧ someTile.elems.length = elemsOf 0 ∧ elGroup fa ≠ 4
      ∧ (∀ g ∈ x.flights, g.tile = some someTile.key → g.sub ≠ 3) ∧ x.upsets = [] ∧ fget s .qreShtInj 8 8 (pOf s 0) = 0
      ∧ spadBad s 0 (mmaFlight.val 1) 256 = false ∧ spadBad s 0 (mmaFlight.val 2) 256 = false
      ∧ panelElem s 0 (mmaFlight.val 1) fa (passDepth (elGroup fa) * 16) 0 = .fin 0 := by decide +kernel
theorem test_merge_premises :
    let w : IWord := { f1 := 1, f2 := 2 }
    let o : Op := { maj := 0x14, sub := 3, f1 := .t, f2 := .s, gates := [8], effect := true }
    let s := tileAt0 [] [] o w
    let s1 := (fetch s 0 0).1
    let len := 64 + 256 * (vatBits 0 / 8)
    let h := spadNum s1 0 0 8
    takesB s 0 0 o w = true ∧ OwnTile s1 0 0 1 someTile ∧ SheetFree s1 0 someTile.key ∧ (quire s1 0).upsets = [] ∧ SpadOperand 0 len
      ∧ spadBad s1 0 0 len = false ∧ blocked (quire s1 0) { newFlight s1 0 0 w o with spRd := [(0, len)] } = false
      ∧ bits h 45 44 = 0 ∧ bits h 47 46 = 0 ∧ bits h 54 48 = 0
      ∧ (List.range 256).all (fun e => signed (vatBits 0) (spadNum s1 0 (64 + e * (vatBits 0 / 8)) (vatBits 0 / 8)) == 0) = true := by decide +kernel
/-- A T.ZERO of sheet 0, slot 4 that waits. -/
def zeroFlight : Flight :=
  let w : IWord := { f1 := 2, low := 4 * 2 ^ 13 }
  { newFlight ready 0 0 w (openOp 0 w) with part := .sheet 0, tile := some (0, 4, 0), phase := .queued }
theorem test_ordering_start_premises :
    let s := tileAt0 [] [zeroFlight] (openOp 0 {}) {}
    let x := quire s 0
    (onTile x (0, 4, 0)).head? = some zeroFlight ∧ zeroFlight.maj = 0x14 ∧ zeroFlight.sub = 0 ∧ blocked x zeroFlight = false
      ∧ (openingOf zeroFlight.w).key = (0, 4, 0) ∧ (∀ g ∈ x.flights, g.tile = some (0, 4, 0) → g.sub ≠ 3) ∧ onTile x (0, 8, 0) = [] := by
  decide +kernel

/-! ### Premises of the polynomial statements -/

theorem test_ntt_premises :
    let tf := [2 ^ 64 % 5, 2 * 2 ^ 64 % 5]
    let ti := [3 * 2 ^ 64 % 5, 3 * 2 ^ 64 % 5]
    2 ^ 2 ^ 1 % 5 = 5 - 1 ∧ tf.length = 2 ^ 1 ∧ (∀ x ∈ [1, 4], x < 5) ∧ (∀ i, i < 2 ^ 1 → nth 0 tf i = 2 ^ brv 1 i * 2 ^ 64 % 5)
      ∧ 2 * 3 % 5 = 1 ∧ 2 ^ 1 * 3 % 5 = 1 ∧ nth 0 ti 0 = 3 * 2 ^ 64 % 5 ∧ nth 0 ti 1 = 3 ^ brv 1 1 * 2 ^ 64 % 5 := by decide +kernel
/-- The largest size, 2¹⁷, is met too: a root of order 2¹⁸ modulo 2¹⁸ · 3 + 1 = 786433. -/
theorem test_ntt_largest_premises : powMod 786433 (powMod 786433 10 3) (2 ^ 17) = 786433 - 1 := by decide +kernel
/-- P.INTT with LOGN field 0, which is 16; P.NTT with field 15. -/
def RawPremises (inv : Bool) (field : Nat) : Prop :=
  let w : IWord := { f1 := 1, f2 := 2, low := BitVec.ofNat 35 (3 * 2 ^ 29 + field * 2 ^ 18) }
  let n := if optF w 21 18 < 2 then 16 + optF w 21 18 else optF w 21 18
  let o : Op := { maj := 0x18, sub := b2n inv, f1 := .s, f2 := .s, f3 := .s, opt := maskOf 22 15, effect := true
                  codes := decide (10 ≤ n), gates := 2 :: (if optF w 22 22 = 1 then [11] else []) }
  let s := { at0 o w with quires := [(0, { role := 1, streams := [(0, { state := .running, sregs := [(2, 524288), (3, 1048576)], mslots := [(0, makeSlot 97)] })] })] }
  let s1 := (fetch s 0 0).1
  let k := 8 * 2 ^ n
  takesB s 0 0 o w = true ∧ (quire s1 0).flights = [] ∧ (quire s1 0).upsets = [] ∧ (quire s1 0).strikes = []
    ∧ (tget {} (stream s1 0 0).mslots 0).kind ≠ .invalid ∧ SpadOperand 0 k ∧ SpadOperand 524288 k ∧ SpadOperand 1048576 k
    ∧ overlaps (0, k) (524288, k) = false ∧ overlaps (1048576, k) (0, k) = false ∧ overlaps (1048576, k) (524288, k) = false
    ∧ spadBad s1 0 524288 k = false ∧ spadBad s1 0 1048576 k = false
theorem test_poly_raw_premises : RawPremises true 0 := by unfold RawPremises; decide +kernel
theorem test_poly_raw_smallest_premises : RawPremises false 10 := by unfold RawPremises; decide +kernel

/-- `at0` with scalar registers, blocks of bytes at deckle addresses, basis slot 0 and registered keys. -/
def polyAt (regs : Tab Word) (blocks : List (Nat × List Byte)) (b : BasisSlot) (keys : List PolyKey) (o : Op) (w : IWord) : State :=
  let s := at0 o w
  { s with
    quires := [(0, { role := 2, streams := [(0, { state := .running, sregs := regs })] })]
    deckles := [(0, { phase := .active, groups := 1, programs := [(0, { gen := 0, live := true, base := 0, size := 4096, codeSize := 64, features := 65535, vminor := 1, streams := 8, spadBytes := 65536, entries := [0] })] })]
    dram.data := blocks.foldl (fun m p => tputs 0#8 m (2097152 + p.1) p.2) s.dram.data
    poly := [(0, { bases := [(0, b)], keys := keys })] }

/-- The state past a tagged instruction of `polyAt`, its flight, and the state in which it acts. -/
def past (s : State) (w : IWord) : State := consumeLines (advance (fetch s 0 0).1 0 0 w) 0 [(0, 2 ^ 64)]
def flightOf (s : State) (o : Op) (w : IWord) : Flight := (planPoly 0 (fetch s 0 0).1 (newFlight (fetch s 0 0).1 0 0 w o)).f
def acts (s : State) (o : Op) (w : IWord) (gang : List Nat) : State :=
  (takeEngines 0 (workOf (past s w) 0 (flightOf s o w)) (flightOf s o w) gang (past s w)).1

/-- `PolyTakes` as a computation. -/
abbrev ActsB (s : State) (o : Op) (w : IWord) (gang : List Nat) : Prop :=
  takesB s 0 0 o w = true ∧ (quire (fetch s 0 0).1 0).flights = [] ∧ gangOf (past s w) 0 (flightOf s o w) = gang
    ∧ (takeEngines 0 (workOf (past s w) 0 (flightOf s o w)) (flightOf s o w) gang (past s w)).2 = true

/-- It decides it. -/
theorem polyTakes_of {s : State} {o : Op} {w : IWord} {gang : List Nat} (h : ActsB s o w gang) :
    PolyTakes s 0 0 o w (fetch s 0 0).1 (past s w) (acts s o w gang) (flightOf s o w) gang :=
  ⟨takes_of h.1, h.2.1, rfl, rfl, h.2.2.1, Prod.ext rfl h.2.2.2⟩

/-- What `PolyEnds` asks of the state after the words are written. -/
abbrev EndsB (u v : State) (f : Flight) (serial : Nat) (words : List Nat) : Prop :=
  let x := noteRange (dkWrite v 0 .poly (f.val 0 + 64) (words.flatMap (leBytes 8))).1 0 f.stream words
  dkOf v 0 = 0 ∧ (quire v 0).strikes = [] ∧ (∀ a ∈ sourcesOf f, a ≠ f.val 0 → peek x 0 a 32 = peek u 0 a 32)
    ∧ peek x 0 (f.val 0) 32 = tagBytes { faultTag with serial := serial }

/-- A basis of one ciphertext modulus and one special modulus. -/
def someBasis : BasisSlot := { current := true, logn := 1, l := 2, k := 1, alpha := 1, mods := [97, 193, 257] }
/-- A fresh CKKS ciphertext of level 1, all zero. -/
def someTag : Tag := ⟨1, 1, 1, 1, 0, false, false, 0, 0, 7, 1⟩
/-- Its bytes. -/
def someObject : List Byte := tagBytes someTag ++ zeros 32 ++ zeros 64

theorem test_poly_element_premises :
    let w : IWord := { f1 := 1, f2 := 2, low := 3 * 2 ^ 29 }
    let o := polyOp 11 w .s .none
    let s := polyAt [(1, 0x20000), (2, 0x10000), (3, 0x18000)] [(0x10000, someObject), (0x18000, someObject)] someBasis [] o w
    let u := acts s o w [0]
    let u1 := after (pProbe 0 true 0x20000 64) u
    let ha := got (pSource 0 0x10000) u1
    let u2 := after (pSource 0 0x10000) u1
    let hb := got (pSource 0 0x18000) u2
    let u3 := after (pSource 0 0x18000) u2
    let size := 64 + 8 * 2 * 3 * 2
    let u4 := after (pDest 0 0x20000 size [ha, hb]) u3
    let v := after (pBegin 0 0x20000) u4
    let v1 := after (pRead 0 0x10000 128 true) v
    ActsB s o w [0] ∧ okIn (pProbe 0 true 0x20000 64) u = true ∧ okIn (pSource 0 0x10000) u1 = true ∧ okIn (pSource 0 0x18000) u2 = true
      ∧ okIn (pDest 0 0x20000 size [ha, hb]) u3 = true ∧ PolyTag u4 0 0x10000 ha someBasis ∧ PolyTag u4 0 0x18000 hb someBasis
      ∧ readTag ha = someTag ∧ readTag hb = someTag ∧ PolyApart 0x20000 size 0x10000 (tagSize someTag)
      ∧ PolyApart 0x20000 size 0x18000 (tagSize someTag) ∧ areaFits u4 0 0 0 65536 = true ∧ okIn (pBegin 0 0x20000) u4 = true
      ∧ okIn (pRead 0 0x10000 128 true) v = true ∧ tagSize someTag = 128 ∧ okIn (pRead 0 0x18000 128 true) v1 = true
      ∧ EndsB u (after (pRead 0 0x18000 128 true) v1) (flightOf s o w) (got (pBegin 0 0x20000) u4)
        (resultWords someBasis false 3 1 2 (fun _ _ _ => 0)) := by decide +kernel
theorem test_poly_plain_premises :
    let w : IWord := { f1 := 1, f2 := 2, low := 3 * 2 ^ 29 }
    let o := polyOp 10 w .s .none
    let t : Tag := ⟨3, 1, 0, 1, 0, false, false, 0, 0, 0, 1⟩
    let B := tagBytes t ++ zeros 32 ++ zeros 16
    let s := polyAt [(1, 0x10000), (2, 0x10000), (3, 0x18000)] [(0x10000, someObject), (0x18000, B)] someBasis [] o w
    let u := acts s o w [0]
    let u1 := after (pProbe 0 true 0x10000 64) u
    let u2 := after (pSource 0 0x10000) u1
    let hb := got (pSource 0 0x18000) u2
    let u3 := after (pSource 0 0x18000) u2
    ActsB s o w [0] ∧ okIn (pSource 0 0x10000) u1 = true ∧ okIn (pSource 0 0x18000) u2 = true ∧ readTag hb = t
      ∧ PolyTag u3 0 0x18000 hb someBasis ∧ PolyApart 0x10000 (64 + 8 * 2 * 2) 0x10000 128
      ∧ PolyApart 0x10000 (64 + 8 * 2 * 2) 0x18000 (tagSize t) := by decide +kernel
theorem test_poly_rescale_premises :
    let w : IWord := { f1 := 1, f2 := 2 }
    let o := polyOp 4 w .none .none
    let s := polyAt [(1, 0x20000), (2, 0x10000)] [(0x10000, someObject)] someBasis [] o w
    let u := acts s o w [0]
    let u1 := after (pProbe 0 true 0x20000 64) u
    let ha := got (pSource 0 0x10000) u1
    let u2 := after (pSource 0 0x10000) u1
    let u3 := after (pDest 0 0x20000 96 [ha]) u2
    let v := after (pBegin 0 0x20000) u3
    ActsB s o w [0] ∧ okIn (pProbe 0 true 0x20000 64) u = true ∧ okIn (pSource 0 0x10000) u1 = true ∧ readTag ha = someTag
      ∧ okIn (pDest 0 0x20000 96 [ha]) u2 = true ∧ PolyTag u3 0 0x10000 ha someBasis ∧ PolyApart 0x20000 96 0x10000 128
      ∧ 64 + 8 * 2 ^ 1 * tagComps someTag * 1 = 96 ∧ areaFits u3 0 0 0 32 = true ∧ okIn (pBegin 0 0x20000) u3 = true
      ∧ okIn (pRead 0 0x10000 128 true) v = true
      ∧ EndsB u (after (pRead 0 0x10000 128 true) v) (flightOf s o w) (got (pBegin 0 0x20000) u3) [0, 0, 0, 0] := by decide +kernel
/-- A header of a key of `kind` for Galois element `gal`. -/
def keyHead (kind gal : Nat) : List Byte :=
  zeros 4 ++ leBytes 1 kind ++ leBytes 1 1 ++ zeros 6 ++ leBytes 4 gal ++ leBytes 8 7 ++ zeros 104
/-- The premises of P.AUTO (`sub` 2) and P.KSW of an object with the tag `t` under a key of `kind`. -/
def SwitchPremises (sub kind : Nat) (t : Tag) : Prop :=
  let w : IWord := if sub = 2 then { f1 := 1, f2 := 2, low := 3 * 2 ^ 29 + 4 * 2 ^ 23 } else { f1 := 1, f2 := 2, low := 4 * 2 ^ 23 }
  let o := polyOp sub w (if sub = 2 then .s else .none) .s
  let kinds := if sub = 2 then [2] else [1, 3]
  let K := keyHead kind 3 ++ zeros (8 * 2 * 2 * 3)
  let k : PolyKey := ⟨0x30000, K.length, kind, 7, 0, 0⟩
  let A := tagBytes t ++ zeros 32 ++ zeros (tagSize t - 64)
  let s := polyAt [(1, 0x20000), (2, 0x10000), (3, 3), (4, 0x30000)] [(0x10000, A), (0x30000, K)] someBasis [k] o w
  let u := acts s o w [0]
  let u1 := after (pProbe 0 true 0x20000 64) u
  let ha := got (pSource 0 0x10000) u1
  let u2 := after (pSource 0 0x10000) u1
  let hb := got (pKeyHead 0 0x30000 128 kinds) u2
  let u3 := after (pKeyHead 0 0x30000 128 kinds) u2
  let size := 64 + 8 * 2 * 2 * 2
  let u4 := after (pDest 0 0x20000 size [ha]) u3
  let v := after (pBegin 0 0x20000) u4
  let v1 := after (pRead 0 0x10000 (tagSize t) true) v
  ActsB s o w [0] ∧ okIn (pProbe 0 true 0x20000 64) u = true ∧ okIn (pSource 0 0x10000) u1 = true ∧ readTag ha = t
    ∧ okIn (pKeyHead 0 0x30000 128 kinds) u2 = true ∧ okIn (pDest 0 0x20000 size [ha]) u3 = true ∧ PolyTag u4 0 0x10000 ha someBasis
    ∧ keyAt u4 0 0x30000 kinds = some k ∧ PolyApart 0x20000 size 0x10000 (tagSize t) ∧ (readKey hb).logn = 1 ∧ (readKey hb).galois = 3
    ∧ (readKey hb).keyset = t.keyset ∧ areaFits u4 0 0 0 32 = true ∧ okIn (pBegin 0 0x20000) u4 = true
    ∧ okIn (pRead 0 0x10000 (tagSize t) true) v = true ∧ K.length = 128 + 8 * 2 ^ 1 * ceilDiv 2 1 * (2 + 1)
    ∧ okIn (pRead 0 0x30000 K.length true) v1 = true
    ∧ EndsB u (after (pRead 0 0x30000 K.length true) v1) (flightOf s o w) (got (pBegin 0 0x20000) u4) (List.replicate 8 0)
theorem test_poly_auto_premises : SwitchPremises 2 2 someTag := by unfold SwitchPremises; decide +kernel
theorem test_poly_ksw_premises : SwitchPremises 3 1 { someTag with deg2 := true } := by unfold SwitchPremises; decide +kernel

/-- An object of one encrypted bit of dimension 512. -/
def bitTag : Tag := ⟨5, 10, 0, 1, 512, false, false, 1, 0, 7, 1⟩
/-- A gate key header that names no bootstrapping digit, which makes the key short. -/
def gateHead : List Byte := zeros 4 ++ leBytes 1 4 ++ leBytes 1 10 ++ zeros 2 ++ leBytes 2 512 ++ zeros 6 ++ leBytes 8 7 ++ zeros 104 ++ leBytes 8 97 ++ zeros 56
/-- The word of P.GATE, its state, and the state in which it acts. -/
def gateWord : IWord := { f1 := 1, f2 := 2, low := 3 * 2 ^ 29 + 4 * 2 ^ 23 + 8 * 2 ^ 19 }
def gateKey : PolyKey := ⟨0x30000, 16576, 4, 7, 0, 0⟩
def gateState : State :=
  polyAt [(1, 0x20000), (2, 0x10000), (3, 0x18000), (4, 0x30000)]
    [(0x10000, tagBytes bitTag ++ zeros 32 ++ leBytes 8 97), (0x18000, tagBytes bitTag), (0x30000, gateHead)] someBasis [gateKey]
    (polyOp 6 gateWord .s .s) gateWord
def gateActs : State := acts gateState (polyOp 6 gateWord .s .s) gateWord [0]
def gate1 : State := after (pProbe 0 true 0x20000 64) gateActs
def gate2 : State := after (pSource 0 0x10000) gate1
def gate3 : State := after (pSource 0 0x18000) gate2
def gate4 : State := after (pKeyHead 0 0x30000 192 [4]) gate3
def gate5 : State := after (pDest 0 0x20000 4168 [got (pSource 0 0x10000) gate1]) gate4
def gate6 : State := after (pBegin 0 0x20000) gate5
def gate7 : State := after (pRead 0 0x10000 4168 true) gate6
def gate8 : State := after (pRead 0 0x18000 4168 true) gate7

theorem test_gate_premises :
    ActsB gateState (polyOp 6 gateWord .s .s) gateWord [0] ∧ okIn (pProbe 0 true 0x20000 64) gateActs = true
      ∧ okIn (pSource 0 0x10000) gate1 = true ∧ okIn (pSource 0 0x18000) gate2 = true ∧ okIn (pKeyHead 0 0x30000 192 [4]) gate3 = true
      ∧ okIn (pDest 0 0x20000 4168 [got (pSource 0 0x10000) gate1]) gate4 = true ∧ keyAt gate5 0 0x30000 [4] = some gateKey
      ∧ areaFits gate5 0 0 0 (16 * 1 * 2 ^ 10) = true ∧ okIn (pBegin 0 0x20000) gate5 = true := by decide +kernel
theorem test_gate_headers_premises :
    BitTag 0x10000 (got (pSource 0 0x10000) gate1) ∧ BitTag 0x18000 (got (pSource 0 0x18000) gate2) ∧ bitSize bitTag = 4168
      ∧ readTag (got (pSource 0 0x10000) gate1) = bitTag ∧ PolyApart 0x20000 4168 0x10000 4168 ∧ PolyApart 0x20000 4168 0x18000 4168
      ∧ (readGate (got (pKeyHead 0 0x30000 192 [4]) gate3)).logn = 10 ∧ (readGate (got (pKeyHead 0 0x30000 192 [4]) gate3)).n = 512
      ∧ (readGate (got (pKeyHead 0 0x30000 192 [4]) gate3)).keyset = bitTag.keyset
      ∧ gateSize (readGate (got (pKeyHead 0 0x30000 192 [4]) gate3)) = 16576 := by decide +kernel
theorem test_gate_reads_premises :
    okIn (pRead 0 0x10000 4168 true) gate6 = true ∧ okIn (pRead 0 0x18000 4168 true) gate7 = true
      ∧ okIn (pRead 0 0x30000 16576 true) gate8 = true := by decide +kernel
/-- P.LUT with a table of 64 entries. -/
def lutWord : IWord := { f1 := 1, f2 := 2, low := 3 * 2 ^ 29 + 4 * 2 ^ 23 + 6 * 2 ^ 20 }
def lutTable : List Byte :=
  let h := leBytes 4 0x31544C51 ++ leBytes 1 6 ++ leBytes 1 6 ++ zeros 22
  h ++ leBytes 4 (crc32c h) ++ zeros 32 ++ zeros 64
theorem test_lut_premises :
    let o := polyOp 7 lutWord .s .s
    let t : Tag := { bitTag with scale := 6 }
    let s := polyAt [(1, 0x20000), (2, 0x10000), (3, 0x18000), (4, 0x30000)]
      [(0x10000, tagBytes t), (0x18000, lutTable), (0x30000, gateHead)] someBasis [gateKey] o lutWord
    let u1 := after (pProbe 0 true 0x20000 64) (acts s o lutWord [0])
    let u2 := after (pSource 0 0x10000) u1
    let T := got (pHead 0 0x18000 128 128) u2
    let u3 := after (pHead 0 0x18000 128 128) u2
    ActsB s o lutWord [0] ∧ okIn (pSource 0 0x10000) u1 = true ∧ BitTag 0x10000 (got (pSource 0 0x10000) u1)
      ∧ readTag (got (pSource 0 0x10000) u1) = t ∧ optF lutWord 22 20 = 6 ∧ okIn (pHead 0 0x18000 128 128) u2 = true ∧ T = lutTable
      ∧ fieldAt T 28 4 = crc32c (sliceB T 0 28) ∧ fieldAt T 4 1 = 6 ∧ PolyApart 0x20000 (bitSize t) 0x18000 128
      ∧ okIn (pKeyHead 0 0x30000 192 [4]) u3 = true := by decide +kernel

/-- P.BOOT's premises that do not name the library, whose fields have no value in the model. -/
theorem test_boot_premises :
    let w : IWord := { f1 := 1, f2 := 2, low := 3 * 2 ^ 29 + 4 * 2 ^ 23 }
    let o := polyOp 5 w .s .s
    let pb := leBytes 4 0x31504251 ++ leBytes 2 0 ++ zeros 2 ++ leBytes 8 3 ++ leBytes 8 0x40000 ++ leBytes 8 0x10000 ++ zeros 32
    let hb := keyHead 5 0 ++ leBytes 4 1 ++ zeros 4
    let k : PolyKey := ⟨0x30000, 144, 5, 7, 0, 0⟩
    let m : PolyKey := ⟨0x38000, 224, 1, 7, 0, 0⟩
    let s := polyAt [(1, 0x20000), (2, 0x10000), (3, 0x18000), (4, 0x30000)]
      [(0x10000, someObject), (0x18000, pb), (0x30000, hb ++ leBytes 8 0x38000), (0x38000, keyHead 1 0 ++ zeros 96)] someBasis [k, m] o w
    let u1 := after (pProbe 0 true 0x20000 64) (acts s o w [0, 1])
    let u2 := after (pSource 0 0x10000) u1
    let u3 := after (pHead 0 0x18000 64 64) u2
    let u4 := after (pKeyHead 0 0x30000 136 [5]) u3
    let u5 := after (pProbe 0 true 0x40000 0x10000) u4
    let u6 := after (pProbe 0 false 0x40000 0x10000) u5
    let u8 := after (pRead 0 0x30088 8 false) u6
    ActsB s o w [0, 1] ∧ okIn (pSource 0 0x10000) u1 = true ∧ okIn (pHead 0 0x18000 64 64) u2 = true ∧ got (pHead 0 0x18000 64 64) u2 = pb
      ∧ okIn (pKeyHead 0 0x30000 136 [5]) u3 = true ∧ (readKey (got (pKeyHead 0 0x30000 136 [5]) u3)).keyset = 7
      ∧ okIn (pProbe 0 true 0x40000 0x10000) u4 = true ∧ okIn (pProbe 0 false 0x40000 0x10000) u5 = true ∧ pb.length = 64
      ∧ allZero (sliceB pb 0x20 32) = true ∧ keyAt u6 0 0x30000 [5] = some k ∧ okIn (pRead 0 0x30088 8 false) u6 = true
      ∧ wordsOf (got (pRead 0 0x30088 8 false) u6) = [0x38000] ∧ keyAt u6 0 0x38000 [1, 2, 3, 4, 5] = some m
      ∧ okIn (pHead 0 0x38000 224 128) u8 = true ∧ (readKey (got (pHead 0 0x38000 224 128) u8)).kind = 1
      ∧ (readKey (got (pHead 0 0x38000 224 128) u8)).keyset = 7 := by decide +kernel

/-! ### Premises of the aggregation statements -/

/-- An OPEN session of 64-bit elements. -/
def aggSess : Session :=
  { state := .opn, deckle := 0, typ := 1, expose := true, txslots := 2, elements := 4, maxid := 16, txids := 4, nonce := zeros 8, area := 0x100000
    areaSize := 0x400000, inbox := 0x80000, inboxSize := 0x1000, logKey := zeros 32 }

/-- `at0` with scalar registers, blocks of bytes and that session, number 0. -/
def aggAt (x : Session) (regs : Tab Word) (blocks : List (Nat × List Byte)) (o : Op) (w : IWord) : State :=
  let s := at0 o w
  { s with
    quires := [(0, { role := 3, streams := [(0, { state := .running, sregs := regs })] })]
    dram.data := blocks.foldl (fun m p => tputs 0#8 m (2097152 + p.1) p.2) s.dram.data
    sessions := [(0, x)] }

/-- `AggActs` as a computation. -/
abbrev AggB (s : State) (o : Op) (w : IWord) (x : Session) : Prop :=
  let s1 := (fetch s 0 0).1
  takesB s 0 0 o w = true ∧ (quire s1 0).flights = [] ∧ (stream s1 0 0).s w.f1.toNat = 0 ∧ tfind s1.sessions 0 = some x ∧ x.deckle = dkOf s1 0
    ∧ x.state = .opn ∧ (quire s1 0).strikes = []

/-- The state in which the instruction acts. -/
def aggActsIn (s : State) (w : IWord) (mem : List (Nat × Nat)) : State := consumeLines (advance (fetch s 0 0).1 0 0 w) 0 mem

/-- The reading of these bytes ends without a stop. -/
abbrev ReadsB (u : State) (a : Nat) (add : Bool) (bs : List Byte) : Prop :=
  okIn (aRead 0 a bs.length add) u = true ∧ got (aRead 0 a bs.length add) u = bs
/-- The state it leaves. -/
def afterRead (u : State) (a n : Nat) (add : Bool) : State := after (aRead 0 a n add) u
/-- The two decide a read. -/
theorem aggReads_of {u : State} {a : Nat} {add : Bool} {bs : List Byte} (h : ReadsB u a add bs) :
    AggReads u 0 a add bs (afterRead u a bs.length add) := by
  have := does_of h.1
  rw [h.2] at this
  exact this

/-- A message of a kind from an identity with `n` body bytes. -/
def message (kind ident n : Nat) : List Byte :=
  let a := leBytes 4 0x31434151 ++ leBytes 1 kind ++ leBytes 1 1 ++ zeros 10 ++ leBytes 4 ident
  let c := leBytes 8 n ++ zeros 32
  a ++ leBytes 4 (crc32c (a ++ c)) ++ c

/-- `GoodMessage` of a session that is not RLWE, as a computation. -/
abbrev GoodB (x : Session) (va : Nat) (kinds : List Nat) (b : List Byte) : Prop :=
  let kind := fieldAt b 4 1
  fieldAt b 0 4 = 0x31434151 ∧ fieldAt b 0x14 4 = crc32c (sliceB b 0 20 ++ sliceB b 24 40)
    ∧ fieldAt b 6 2 = 0 ∧ (kind = 1 → allZero (sliceB b 0x20 32) = true) ∧ kind ∈ kinds ∧ x.typ ≠ 3 ∧ fieldAt b 5 1 = x.typ
    ∧ sliceB b 8 8 = x.nonce ∧ fieldAt b 0x10 4 < x.maxid ∧ fieldAt b 0x18 8 = (if kind = 1 then bodyBytes x else 32)
    ∧ x.inbox ≤ va ∧ va + 64 + (if kind = 1 then bodyBytes x else 0) ≤ x.inbox + x.inboxSize

theorem goodMessage_of {u : State} {x : Session} {va : Nat} {kinds : List Nat} {b : List Byte} (h : GoodB x va kinds b) :
    GoodMessage u u 0 x va kinds b none := by
  obtain ⟨h3, h4, h5, h6, h7, h8, h9, h10, h11, h12, h13, h14⟩ := h
  exact ⟨h3, h4, h5, h6, h7, fun _ => h8, h9, h10, h11, h12, h13, h14, fun _ => ⟨rfl, rfl⟩, fun h => absurd h h8⟩

/-- A.INGEST of the last identity, seeded: the message passes, the identity is new, the writes are admitted. -/
theorem test_ingest_seed_premises :
    let w : IWord := { f1 := 5, f2 := 2 }
    let o := aggOp 1 .s .s .none .none
    let b := message 2 15 32
    let x := aggSess
    let s := aggAt x [(2, 0x80000)] [(0x80000, b)] o w
    let u := aggActsIn s w [(0x80000, 64 + bodyBytes x)]
    let u2 := afterRead u 0x80000 64 false
    let u3 := afterRead u2 (mapBase x + 1) 1 false
    let c := (beBytes 32 0xd0cae9819a8bac7d07dc066fc13e6739398723052b82d5aeb4a566ae9fc1b790, beBytes 16 0x6d19830ea4324383dabe17f13a7fafc2)
    let u4 := (aggWrites 0 [(mapBase x + 1, [128#8]), (logAt x 15, logEntry 15 1 c.1 (c.2.take 12))] u3).getD u3
    let es := [9910523521560253916, 9736928157321283757, 7956559051536508878, 1773841811996233223]
    let u6 := afterRead u4 x.area 32 true
    AggB s o w x ∧ b.length = 64 ∧ ReadsB u 0x80000 false b ∧ GoodB x 0x80000 [1, 2] b ∧ sliceB b 0x20 32 = zeros 32
      ∧ gcmEnc x.logKey (logIv x 15) [] (zeros 32) = c ∧ (List.range 4).map (seedElem x (aesKeys (zeros 32))) = es
      ∧ tfind u2.sessions 0 = some x ∧ ReadsB u2 (mapBase x + 1) false [0#8]
      ∧ (aggWrites 0 [(mapBase x + 1, [128#8]), (logAt x 15, logEntry 15 1 c.1 (c.2.take 12))] u3).isSome = true
      ∧ ReadsB u4 x.area true (zeros 32)
      ∧ (aggWrites 0 [(x.area, bytesOfElems x (addElems x false (elemsOfBytes x (zeros 32)) es)), (logAt x 15 + 3, [2#8]), (0x80000, zeros 4)] u6).isSome
        = true := by decide +kernel
/-- A.INGEST of the last identity, explicit; A.STAGE of the first in a new transaction. -/
abbrev BodyPremises (sub ident : Nat) (f3 : Slot) (entry : List Byte) : Prop :=
  let w : IWord := { f1 := 5, f2 := 2, low := if sub = 1 then 0 else 3 * 2 ^ 29 }
  let o := aggOp sub .s .s f3 .none
  let b := message 1 ident 32
  let x := aggSess
  let s := aggAt x [(2, 0x80000), (3, 7)] [(0x80000, b)] o w
  let u := aggActsIn s w [(0x80000, 64 + bodyBytes x)]
  let u2 := afterRead u 0x80000 64 false
  let u3 := afterRead u2 (mapBase x + ident / 8) 1 false
  let ws := [(mapBase x + ident / 8, [BitVec.ofNat 8 (2 ^ (ident % 8))]), (logAt x ident, entry)]
  let u4 := (aggWrites 0 ws u3).getD u3
  let dest := if sub = 1 then x.area else stageAt x 0
  let u5 := afterRead u4 (0x80000 + 64) 32 true
  AggB s o w x ∧ b.length = 64 ∧ ReadsB u 0x80000 false b ∧ GoodB x 0x80000 [1] b ∧ tfind u2.sessions 0 = some x
    ∧ ReadsB u2 (mapBase x + ident / 8) false [0#8] ∧ (aggWrites 0 ws u3).isSome = true ∧ ReadsB u4 (0x80000 + 64) true (zeros 32)
    ∧ ReadsB u5 dest true (zeros 32) ∧ (aggWrites 0 [(dest, zeros 32), (0x80000, zeros 4)] (afterRead u5 dest 32 true)).isSome = true
theorem test_ingest_explicit_premises : BodyPremises 1 15 .none (logEntry 15 4 [] []) := by decide +kernel
theorem test_stage_premises : BodyPremises 3 0 .s (logEntry 0 5 [] []) := by decide +kernel
theorem test_stage_slot_premises : slotFor aggSess 7 = none ∧ tfree aggSess.slots aggSess.txslots = some 0 := by decide
theorem test_expand_premises :
    let w : IWord := { f1 := 5, f2 := 2, low := 3 * 2 ^ 29 + 4 * 2 ^ 23 }
    let o := aggOp 2 .s .s .s .s
    let b := message 2 0 32
    let s := aggAt aggSess [(2, 0x80000), (3, 2095104)] [(0x80000, b)] o w
    let u := aggActsIn s w [(0x80000, 64 + bodyBytes aggSess)]
    AggB s o w aggSess ∧ ReadsB u 0x80000 false b ∧ tfind (afterRead u 0x80000 64 false).sessions 0 = some aggSess ∧ GoodB aggSess 0x80000 [2] b
      ∧ (stream (fetch s 0 0).1 0 0).s 3 + 2048 ≤ spadSize := by decide +kernel

/-- `aggSess` with one transaction of two identities. -/
def aggTx : Session := { aggSess with slots := [(0, { ident := 7, count := 2 })], count := 3 }
/-- The identities of that transaction. -/
def txIds : List Byte := leBytes 4 1 ++ leBytes 4 15
theorem test_commit_premises :
    let w : IWord := { f1 := 5, low := 3 * 2 ^ 29 }
    let o := aggOp 4 .s .none .s .none
    let x := aggTx
    let s := aggAt x [(3, 7)] [(stageAt x 0 + sumBytes x, txIds)] o w
    let u := aggActsIn s w []
    let u1 := afterRead u (stageAt x 0) 32 true
    let u2 := afterRead u1 x.area 32 true
    let u3 := (aggWrites 0 [(x.area, zeros 32)] u2).getD u2
    let u4 := afterRead u3 (stageAt x 0 + sumBytes x) 8 true
    let logs := [(logAt x 1, logEntry 1 4 [] []), (logAt x 15, logEntry 15 4 [] [])]
    AggB s o w x ∧ slotFor x 7 = some (0, { ident := 7, count := 2 }) ∧ ReadsB u (stageAt x 0) true (zeros 32) ∧ ReadsB u1 x.area true (zeros 32)
      ∧ (aggWrites 0 [(x.area, zeros 32)] u2).isSome = true ∧ ReadsB u3 (stageAt x 0 + sumBytes x) true txIds
      ∧ (aggWrites 0 logs u4).isSome = true := by decide +kernel
/-- A.ABORT of the same transaction, and the area that settling wipes may be written. -/
theorem test_abort_premises :
    let w : IWord := { f1 := 5, low := 3 * 2 ^ 29 }
    let o := aggOp 5 .s .none .s .none
    let x := aggTx
    let s := aggAt x [(3, 7)] [(stageAt x 0 + sumBytes x, txIds)] o w
    let u := aggActsIn s w []
    let u1 := afterRead u (stageAt x 0 + sumBytes x) 8 true
    let u2 := afterRead u1 (mapBase x) 1 true
    let u3 := (aggWrites 0 [(mapBase x, [0#8]), (logAt x 1, logEntry 1 0 [] [])] u2).getD u2
    let u4 := afterRead u3 (mapBase x + 1) 1 true
    AggB s o w x ∧ ReadsB u (stageAt x 0 + sumBytes x) true txIds ∧ ReadsB u1 (mapBase x) true [0#8]
      ∧ (aggWrites 0 [(mapBase x, [0#8]), (logAt x 1, logEntry 1 0 [] [])] u2).isSome = true ∧ ReadsB u3 (mapBase x + 1) true [0#8]
      ∧ (aggWrites 0 [(mapBase x + 1, [0#8]), (logAt x 15, logEntry 15 0 [] [])] u4).isSome = true
      ∧ (aggWrites 0 [(stageAt x 0, zeros (sumBytes x + rnd64 (4 * x.txids)))] u4).isSome = true ∧ tfind u4.sessions 0 = some x := by decide +kernel
theorem test_retract_premises :
    let w : IWord := { f1 := 5, f2 := 2 }
    let o := aggOp 6 .s .s .none .none
    let x := { aggSess with count := 1 }
    let e := logEntry 15 2 (beBytes 32 0xd0cae9819a8bac7d07dc066fc13e6739398723052b82d5aeb4a566ae9fc1b790) (beBytes 12 0x6d19830ea4324383dabe17f1)
    let s := aggAt x [(2, 15)] [(logAt x 15, e)] o w
    let u := aggActsIn s w []
    let u1 := afterRead u (logAt x 15) 48 false
    let u2 := (aggWrites 0 [(logAt x 15 + 3, [3#8])] u1).getD u1
    AggB s o w x ∧ e.length = 48 ∧ ReadsB u (logAt x 15) false e ∧ fieldAt e 3 1 = 2
      ∧ (gcmTag (aesKeys x.logKey) (logIv x 15) [] (sliceB e 4 32)).take 12 = sliceB e 36 12
      ∧ (aggWrites 0 [(logAt x 15 + 3, [3#8])] u1).isSome = true ∧ ReadsB u2 x.area true (zeros 32)
      ∧ (aggWrites 0 [(x.area, zeros 32), (logAt x 15, logEntry 15 3 [] [])] (afterRead u2 x.area 32 true)).isSome = true := by decide +kernel

/-- A parameter block for `aggSess` without noise. -/
def aggBlock : List Byte :=
  leBytes 4 0x31534151 ++ leBytes 1 1 ++ leBytes 1 2 ++ leBytes 1 2 ++ zeros 1 ++ leBytes 8 4 ++ leBytes 4 16 ++ leBytes 4 4 ++ zeros 8 ++ zeros 48
    ++ leBytes 8 0x100000 ++ leBytes 8 0x400000 ++ leBytes 8 0x80000 ++ leBytes 8 0x10000 ++ zeros 16
theorem test_open_premises :
    let w : IWord := { f1 := 1, f2 := 2 }
    let o := aggOp 0 .sw .s .none .none
    let s := { aggAt aggSess [(2, 0x10000)] [(0x10000, aggBlock)] o w with sessions := [] }
    let u := aggActsIn s w [(0, 2 ^ 64)]
    let x := parseSession 0 aggBlock
    takesB s 0 0 o w = true ∧ (quire (fetch s 0 0).1 0).flights = [] ∧ (dkRead u 0 .agg 0x10000 128).2 = .ok aggBlock
      ∧ blockOk aggBlock x none = true ∧ x.typ = 1 ∧ dkOf u 0 = 0 := by decide +kernel
/-- Its area and inbox, here the smallest that Table 10.2 admits, may be written. -/
theorem test_open_ranges_premises :
    let w : IWord := { f1 := 1, f2 := 2 }
    let s := { aggAt aggSess [(2, 0x10000)] [(0x10000, aggBlock)] (aggOp 0 .sw .s .none .none) w with sessions := [] }
    let u := aggActsIn s w [(0, 2 ^ 64)]
    let x := parseSession 0 aggBlock
    (dkProbes 0 .engine true [(x.area, x.areaSize), (x.inbox, x.inboxSize)] u).2 = none
      ∧ overlaps (x.area, x.areaSize) (x.inbox, x.inboxSize) = false
      ∧ meetsProt u 0 x.area x.areaSize = false ∧ meetsProt u 0 x.inbox x.inboxSize = false ∧ layoutBytes x ≤ x.areaSize
      ∧ tfree u.sessions 64 = some 0 := by decide +kernel
theorem test_final_premises :
    let w : IWord := { f1 := 5, f2 := 2 }
    let o := aggOp 7 .s .s .none .none
    let x := { aggSess with count := 1, mincount := 1 }
    let s := aggAt x [(2, 0x20000)] [] o w
    let u := aggActsIn s w [(0x20000, 64 + bodyBytes x)]
    let u1 := (dkProbe u 0 .agg true 0x20000 (64 + bodyBytes x)).1
    let g := addProt (setSession u1 0 { x with state := .finalising, dst := 0x20000 }) 0 { kind := .aggResult, base := 0x20000, len := 64 + bodyBytes x }
    let u2 := (dkRead g 0 .agg x.area 32).1
    AggB s o w x ∧ (dkProbe u 0 .agg true 0x20000 (64 + bodyBytes x)).2 = none ∧ tfind u1.sessions 0 = some x
      ∧ meetsProt u1 0 0x20000 (64 + bodyBytes x) = false ∧ x.slots = [] ∧ x.noise = false ∧ (dkRead g 0 .agg x.area 32).2 = .ok (zeros 32)
      ∧ (dkWrite u2 0 .agg 0x20000 (resultHeader { x with state := .finalising, dst := 0x20000 } ++ bytesOfElems x (elemsOfBytes x (zeros 32)))).2 = none
      ∧ u1.rng.failed = false := by decide +kernel
theorem test_session_released_premises :
    let s : State := { ready with sessions := [(63, { aggSess with state := .releasing })] }
    (tfind s.sessions 63).map (·.state) = some .releasing ∧ zeroRuns s 1 63 = false := by decide +kernel

/-! ### Premises of the data, ordering and message statements -/

/-- `at0` with scalar registers, scratchpad and memory bytes, and the rest of quire 0. -/
def workAt (regs : Tab Word) (spad : List (Nat × List Byte)) (blocks : List (Nat × List Byte)) (x : Quire) (o : Op) (w : IWord) : State :=
  let s := at0 o w
  { s with
    quires := [(0, { x with role := 1, streams := [(0, { state := .running, sregs := regs })]
                            spad := spad.foldl (fun m p => tputs 0#8 m p.1 p.2) [] })]
    dram.data := blocks.foldl (fun m p => tputs 0#8 m (2097152 + p.1) p.2) s.dram.data }

/-- Nothing else is in flight and the stream takes the word. -/
abbrev AloneB (s : State) (o : Op) (w : IWord) : Prop := takesB s 0 0 o w = true ∧ (quire (fetch s 0 0).1 0).flights = []
theorem alone_of {s : State} {o : Op} {w : IWord} (h : AloneB s o w) : Alone s 0 0 o w (fetch s 0 0).1 := ⟨takes_of h.1, h.2⟩

/-- A transfer of two rows of 8 bytes between device addresses 0x10000 and 0x20000. -/
def twoRows : List Byte := leBytes 8 0x10000 ++ leBytes 8 0x20000 ++ leBytes 4 8 ++ leBytes 4 2 ++ leBytes 4 64 ++ leBytes 4 16

/-- A row between device addresses, as a computation. -/
def rowB (u : State) (a b n : Nat) : Option State := match rowRead u 0 0 a n with
  | (u1, .ok bs [] _) => match dkWrite u1 (dkOf u1 0) .dcopy b bs with
    | (v, none) => some v
    | _ => none
  | _ => none
theorem rowMoves_of {u v : State} {w : IWord} {a b n : Nat} (hs : sspOf w = 0) (hd : dspOf w = 0) (h : rowB u a b n = some v) :
    RowMoves 0 w u a b n v := by
  unfold rowB at h
  split at h
  · rename_i u1 bs p hr
    split at h
    · rename_i v' hw
      cases h
      exact ⟨bs, p, u1, by rw [hs]; exact hr, by simp [hs], by simpa [hd] using hw⟩
    · simp at h
  · simp at h

theorem test_copy_premises :
    let w : IWord := { f1 := 1 }
    let o := copyOp 0 w
    let s := workAt [] [(0, twoRows)] [(0x10040, leBytes 8 5)] {} o w
    let s1 := (fetch s 0 0).1
    let u := consumeLines (advance s1 0 0 w) 0 (planCopy 0 s1 (newFlight s1 0 0 w o)).f.mem
    AloneB s o w ∧ sspOf w = 0 ∧ dspOf w = 0 ∧ (quire s1 0).upsets = [] ∧ spadBad s1 0 0 32 = false ∧ dDesc (spadBytes s1 0 0 32) = ⟨0x10000, 0x20000, 8, 2, 64, 16⟩
      ∧ descCheck w (dDesc (spadBytes s1 0 0 32)) = 0
      ∧ ((rowB u 0x10000 0x20000 8).bind (fun v => rowB v 0x10040 0x20010 8)).isSome = true := by decide +kernel
theorem test_copy_remote_premises :
    let w : IWord := { f1 := 1, low := 2 ^ 21 + 2 * 2 ^ 19 + 3 * 2 ^ 13 }
    let o := copyOp 0 w
    let s := workAt [] [(0, twoRows)] [] {} o w
    AloneB s o w ∧ dspOf w = 2 ∧ deckleOfQuire s (dqOf w) = deckleOfQuire s 0 ∧ (quire s (dqOf w)).flights = [] := by decide +kernel
theorem test_mload_premises :
    let w : IWord := { f1 := 1, f2 := 2, low := 2 ^ 12 }
    let o := copyOp 2 w
    let s := workAt [(2, 9)] [(0, twoRows)] [] {} o w
    let s1 := (fetch s 0 0).1
    let u := consumeLines (advance s1 0 0 w) 0 (planCopy 0 s1 (newFlight s1 0 0 w o)).f.mem
    let r1 := dkRead u 0 .mload 0x10000 8
    let u1 := (dkWrite r1.1 0 .mload 0x20000 (zeros 8)).1
    let r2 := dkRead u1 0 .mload 0x10040 8
    r1.2 = .ok (zeros 8) ∧ (dkWrite r1.1 0 .mload 0x20000 (zeros 8)).2 = none ∧ r2.2 = .ok (zeros 8)
      ∧ (dkWrite r2.1 0 .mload 0x20010 (zeros 8)).2 = none ∧ AloneB s o w ∧ objElsewhere s1 0 9 none = false ∧ objRoom s1 0 9 none = true ∧ descCheck w (dDesc (spadBytes s1 0 0 32)) = 0
      ∧ ((deckle s1 0).measures.filter (fun m => m.kind == 3)).length < 256 := by decide +kernel
theorem test_prefetch_premises :
    let o : Op := { maj := 0x20, sub := 1, f1 := .s, f2 := .s, opt := maskOf 22 13, ord := true }
    let w : IWord := { f1 := 1, f2 := 2, low := 15 * 2 ^ 19 + 31 * 2 ^ 13 }
    AloneB (workAt [(2, 4096)] [] [] {} o w) o w := by decide +kernel
/-- A Headbox stream whose range is mapped, and one whose range is not. -/
theorem test_prefetch_request_premises :
    let p : Prefetch := { stream := 0, addr := 0x10000, len := 1024, depth := 4, asked := 0, used := 0 }
    let q : Prefetch := { p with addr := 2 ^ 39 }
    let s : State := { ready with quires := [(0, { prefetch := [(0, p), (15, q)] })] }
    tfind (quire s 0).prefetch 0 = some p ∧ tfind (quire s 0).prefetch 15 = some q
      ∧ (([512, 513, 514, 515].map (· * 128)).foldl (prefLine 0) (s, true)).2 = true
      ∧ min (prefLines p) (p.used + p.depth) = 4 ∧ 4 < prefLines p ∧ prefLines { p with len := 128 } ≤ min 1 (p.used + p.depth)
      ∧ (prefLine 0 (s, true) (q.addr / 128 * 128)).2 = false := by
  decide +kernel

theorem test_fence_premises :
    let w : IWord := { low := 4 * 2 ^ 20 }
    let o := fenceOp w
    let busy : Flight := { newFlight ready 0 0 {} (copyOp 0 {}) with part := .headbox, phase := .transfer }
    let s := workAt [] [] [] {} o w
    let z : State := { s with quires := [(0, { role := 1, flights := [busy], streams := [(0, { state := .running, nextSeq := 1 })] })] }
    takesB s 0 0 o w = true ∧ (∀ g ∈ flightsOf (quire s 0) 0, (stream s 0 0).nextSeq ≤ g.seq) ∧ ringsDone (fetch s 0 0).1 0 0 = true
      ∧ takesB z 0 0 o w = true ∧ ∃ g ∈ flightsOf (quire z 0) 0, g.seq < (stream z 0 0).nextSeq := by decide +kernel
theorem test_signal_premises :
    let w : IWord := { f1 := 1, f2 := 2, low := 3 * 2 ^ 29 + 2 ^ 20 }
    let s := workAt [(1, 0x10000), (2, 1)] [] [(0x10000, leBytes 8 (2 ^ 64 - 1))] {} (syncOp w 2) w
    let u := consumeLines (advance (fetch s 0 0).1 0 0 w) 0 [(0x10000, 8)]
    AloneB s (syncOp w 2) w ∧ optF w 22 20 ≠ 4 ∧ (dkRead u 0 .stream 0x10000 8).2 = .ok (leBytes 8 (2 ^ 64 - 1))
      ∧ (dkWrite (dkRead u 0 .stream 0x10000 8).1 0 .stream 0x10000 (leBytes 8 (2 ^ 64 - 1 + 1))).2 = none := by decide +kernel
/-- Both forms of X.WAIT's condition, met and unmet. -/
theorem test_wait_premises :
    let w : IWord := { f1 := 1, f2 := 2, low := 3 * 2 ^ 29 + 2 ^ 20 + 2 ^ 19 + 65535 }
    let s := workAt [(1, 0x10000), (2, 7)] [] [(0x10000, leBytes 8 7)] {} (syncOp w 1) w
    let s1 := (fetch s 0 0).1
    let u := consumeLines (advance s1 0 0 w) 0 [(0x10000, 8)]
    AloneB s (syncOp w 1) w ∧ (dkRead u 0 .stream 0x10000 8).2 = .ok (leBytes 8 7) ∧ w.low.getLsbD 19 = true
      ∧ leNat (leBytes 8 7) = (stream s1 0 0).s 2 ∧ ¬ leNat (leBytes 8 7) = 8 := by decide +kernel
theorem test_barrier_premises :
    let w : IWord := { f1 := 1, f2 := 2, low := 3 * 2 ^ 29 + 2 ^ 20 }
    let s := workAt [(1, 0x10000), (2, 512)] [] [(0x10000, leBytes 2 511 ++ leBytes 2 512 ++ zeros 4 ++ leBytes 8 3)] {} (syncOp w 3) w
    let s1 := (fetch s 0 0).1
    let u := consumeLines (advance s1 0 0 w) 0 [(0x10000, 16)]
    AloneB s (syncOp w 3) w ∧ optF w 22 20 ≠ 4
      ∧ (dkRead u 0 .stream 0x10000 16).2 = .ok (leBytes 2 511 ++ leBytes 2 512 ++ zeros 4 ++ leBytes 8 3)
      ∧ (dkWrite (dkRead u 0 .stream 0x10000 16).1 0 .stream 0x10000 (zeros 8 ++ leBytes 8 4)).2 = none ∧ (stream s1 0 0).s 2 = 512 := by decide +kernel
theorem test_barrier_first_premises :
    let w : IWord := { f1 := 1, f2 := 2, low := 3 * 2 ^ 29 + 2 ^ 20 }
    let s := workAt [(1, 0x10000), (2, 2)] [] [] {} (syncOp w 3) w
    let u := consumeLines (advance (fetch s 0 0).1 0 0 w) 0 [(0x10000, 16)]
    AloneB s (syncOp w 3) w ∧ (dkRead u 0 .stream 0x10000 16).2 = .ok (zeros 16)
      ∧ (dkWrite (dkRead u 0 .stream 0x10000 16).1 0 .stream 0x10000 (leBytes 2 1 ++ leBytes 2 2 ++ zeros 4)).2 = none ∧ (0 : Nat) + 1 ≠ 2 := by decide +kernel
theorem test_end_premises :
    let s := workAt [] [] [] {} { maj := 0x23, sub := 6 } {}
    AloneB s { maj := 0x23, sub := 6 } {} ∧ (stream (fetch s 0 0).1 0 0).step = none ∧ ∀ t ∈ (quire (fetch s 0 0).1 0).tiles, t.owner ≠ 0 := by
  decide +kernel
theorem test_fence_end_premises :
    let f : Flight := { newFlight ready 0 0 {} { maj := 0x23, sub := 0 } with part := .sequencer, phase := .fence 0 }
    let s : State := { ready with quires := [(0, { role := 1, flights := [f], streams := [(0, { state := .running, nextSeq := 1 })] })] }
    fenceWaiting s 0 0 = some f ∧ f.maj = 0x23 ∧ f.sub = 0 ∧ f.phase ≠ .held := by decide +kernel
/-- An X.WAIT and an X.BAR of stream 0 that wait, met or not. -/
abbrev WaitPremises (bar : Bool) (met : Option Nat) : Prop :=
  let f : Flight := { newFlight ready 0 0 { low := 1 } (syncOp {} 1) with part := .sequencer, phase := .waiting }
  let wt : Wait := { quire := 0, stream := 0, seq := 0, dpa := 0x210000, isBar := bar, cmpEq := false, target := 5, last := 0, met := met }
  let s : State := { ready with quires := [(0, { role := 1, flights := [f], streams := [(0, { state := .running, nextSeq := 1 })] })], waits := [wt] }
  s.waits.find? (fun w => w.quire == 0 && w.stream == 0 && w.met.isSome == met.isSome && w.isBar == bar) = some wt
    ∧ findFlight s 0 0 wt.seq = some f ∧ optF f.w 15 0 ≠ 0
theorem test_wait_end_premises : WaitPremises false (some 5) := by decide +kernel
theorem test_bar_release_premises : WaitPremises true (some 6) := by decide +kernel
theorem test_wait_timeout_premises : WaitPremises false none := by decide +kernel

theorem test_send_premises :
    let w : IWord := { f1 := 1, f2 := 2, low := 2 ^ 21 }
    let o := sendOp
    let s := workAt [(1, 3 + 255 * 2 ^ 8 + 2 ^ 32), (2, 64)] [] [] { returns := List.replicate 7 ⟨0, 0, 0, true, 0, 0, false, 0, zeros 64⟩ } o w
    let s1 := (fetch s 0 0).1
    let h := (stream s1 0 0).s 1
    AloneB s o w ∧ bits h 7 6 = 0 ∧ bits h 31 16 = 0 ∧ deckleOfQuire s1 (bits h 5 0) = deckleOfQuire s1 0 ∧ SpadOperand 64 64
      ∧ meshOf s1 0 + (quire s1 0).returns.length < 8 ∧ (quire s1 0).upsets = [] ∧ spadBad s1 0 64 64 = false := by decide +kernel
theorem test_receive_premises :
    let w : IWord := { f1 := 1, f2 := 2, low := 3 * 2 ^ 29 }
    let o := recvOp
    let m : Msg := ⟨1, 0, 255, false, 0, 0, false, 0, zeros 64⟩
    let s := workAt [(1, 128), (3, 255)] [] [] { arrivals := [m] } o w
    let s1 := (fetch s 0 0).1
    AloneB s o w ∧ (stream s1 0 0).s 3 < 256 ∧ SpadOperand ((stream s1 0 0).s 1) 64 ∧ m.payload.length = 64 ∧ (quire s1 0).upsets = []
      ∧ findIx (fun (m : Msg) => w.low.getLsbD 22 || m.tag == (stream s1 0 0).s 3) (quire s1 0).arrivals = some 0
      ∧ (quire s1 0).arrivals[0]? = some m := by decide +kernel
/-- A message to quire 1: accepted, refused where 56 wait, turned back where the epoch differs, and returned. -/
theorem test_arrival_premises :
    let m : Msg := ⟨0, 0, 7, false, 0, 0, false, 0, zeros 64⟩
    let g : MeshMsg := { src := 0, dst := 1, msg := m }
    let s : State := { ready with mesh := [g], quires := [(1, { arrivals := List.replicate 55 m })] }
    let z : State := { ready with mesh := [{ g with isReturn := true }] }
    findIx (fun (m : MeshMsg) => m.src == 0 && m.dst == 1 && !m.isReturn) s.mesh = some 0 ∧ s.mesh[0]? = some g ∧ g.refused = false
      ∧ m.epoch = (quire s 1).epoch ∧ (quire s 1).arrivals.length < 56 ∧ 56 ≤ (m :: (quire s 1).arrivals).length
      ∧ { m with epoch := 1 }.epoch ≠ (quire s 1).epoch
      ∧ findIx (fun (m : MeshMsg) => m.src == 0 && m.isReturn) z.mesh = some 0 ∧ m.senderEpoch = (quire z 0).epoch ∧ m.bfault = false
      ∧ (quire z 0).returns.length < 8 := by decide +kernel
/-- Quire 0 idle, so that its role may be assigned, and with a faulted stream, which RELEASE frees. -/
theorem test_role_premises :
    let s : State := { ready with quires := [(0, {})] }
    let z : State := { ready with quires := [(0, { streams := [(7, { state := .faulted })] })] }
    let s0 (x : State) (r : Reg) (v : Nat) : State := regEffect x 0 r 0 0 (2 ^ (regRow r).width - 1) v
    (phys s 0).logical = some 0 ∧ reaches s 0 .qreRole 0 0 = true ∧ (deckleOfQuire (s0 s .qreRole 3) 0).isSome = true
      ∧ (phys (s0 s .qreRole 3) 0).fenced = false ∧ (phys (s0 s .qreRole 3) 0).logical = some 0
      ∧ (∀ st, st < 8 → ((quire (s0 s .qreRole 3) 0).stream st).state = .idle) ∧ (quire (s0 s .qreRole 3) 0).flights = []
      ∧ (∃ st, st < 8 ∧ ((quire (s0 z .qreRole 3) 0).stream st).state ≠ .idle)
      ∧ reaches z 0 .qreStrCtl 0 0 = true ∧ (stream (s0 z .qreStrCtl (2 ^ 15)) 0 7).state = .faulted
      ∧ (stream (s0 z .qreStrCtl (2 ^ 15)) 0 7).leaving = false ∧ bits (2 ^ 15) 15 8 = 2 ^ 7
      ∧ (quire (s0 z .qreStrCtl (2 ^ 15)) 0).tiles = [] := by decide +kernel

/-! ### Premises of the serving and hashing statements -/

/-- The pools of deckle 0: eight HBM folios, eight LPDDR folios, four table units, and their bitmaps. -/
def withPools (s : State) : State :=
  let s0 := { s with dram.owner := [(0, 1), (512, 1)] }
  let s1 := rset (rset (rset (rset s0 .ctxHpoolBase 0x200000) .ctxHpoolCnt 8) .ctxLpoolBase 0xE00000) .ctxLpoolCnt 8
  rset (rset (rset s1 .ctxTpoolBase 0x100000) .ctxTpoolCnt 4) .ctxMapBase 0x180000
/-- `withPools` enabled. -/
def poolsUp (s : State) : State := rset (rset (withPools s) .ctxPoolCtl 1) .ctxPoolFree (8 + 2 ^ 24 * 8 + 2 ^ 48 * 4)

/-- A context block for 2²⁴ tokens would not fit; 2¹⁰ does. -/
def ctxBlock : List Byte := leBytes 4 0x31414351 ++ leBytes 1 1 ++ leBytes 1 10 ++ zeros 2 ++ leBytes 4 0x3F800000 ++ zeros 36 ++ leBytes 8 0x30000 ++ zeros 72
/-- `workAt` with pools, model 15 and contexts. -/
def servAt (ctxs : Tab Ctx) (step : Option (List StepEntry)) (regs : Tab Word) (blocks : List (Nat × List Byte)) (o : Op) (w : IWord) : State :=
  let s := poolsUp (workAt regs [] blocks {} o w)
  { s with
    quires := [(0, { role := 1, streams := [(0, { state := .running, sregs := regs, step := step })] })]
    serving := { ctxs := ctxs, models := [(15, { state := .loaded, kvb := 64 })] } }

theorem test_attach_premises :
    let w : IWord := { f1 := 1, f2 := 2, low := 3 * 2 ^ 29 }
    let o := ctxOp 0 .s .s .none 0
    let s := servAt [] none [(1, 4095), (2, 15), (3, 0x20000)] [(0x20000, ctxBlock)] o w
    let u := advance (fetch s 0 0).1 0 0 w
    let b := ctxBlock
    let r := dkRead (consumeLines u 0 [(0x20000, 128)]) 0 .ctx 0x20000 128
    let p := dkProbe r.1 0 .ctx true (fieldAt b 0x30 8) 4096
    AloneB s o w ∧ (ctxOf (fetch s 0 0).1 4095).state = .idle ∧ b.length = 128 ∧ r.2 = .ok b ∧ fieldAt b 4 1 ≤ 1
      ∧ fieldAt b 5 1 = 10 ∧ fieldAt b 7 1 = 0 ∧ allZero (sliceB b 0x14 12) = true ∧ allZero (sliceB b 0x38 72) = true
      ∧ fieldAt b 0 4 = 0x31414351 ∧ fieldAt b 0x30 8 % 64 = 0
      ∧ p.2 = none ∧ meetsProt p.1 0 (fieldAt b 0x30 8) 4096 = false
      ∧ (modelOf p.1 0 15).state = .loaded ∧ fget p.1 .ctxPoolCtl 0 0 0 = 1
      ∧ (allocUnit p.1 0 2).map (·.1) = some 0x100000 := by decide +kernel
/-- C.STEP with no context ready, and with one whose entry needs one folio. -/
theorem test_step_premises :
    let w : IWord := { f1 := 1, f2 := 2, low := 3 * 2 ^ 29 }
    let o := ctxOp 1 .s .sw .none 0
    let x : Ctx := { state := .active, model := 15, tokcap := 10, dir := 0x100000, pendingIn := 5, chunk := 4096, genLimit := 1 }
    let s := servAt [(7, x)] none [(1, 64), (2, 1024)] [] o w
    let z := servAt [] none [(1, 64), (2, 1024)] [] o w
    let c1 := closeStep (advance (fetch s 0 0).1 0 0 w) 0 0 true
    AloneB s o w ∧ SpadOperand 64 (32 * 1024) ∧ readyCtxs c1 0 (fun x => x.state == .active && !x.instep) = [7]
      ∧ readyCtxs (closeStep (advance (fetch z 0 0).1 0 0 w) 0 0 true) 0 (fun x => x.state == .active && !x.instep) = []
      ∧ fget c1 .ctxGsts 10 0 < 1024 ∧ tokensOf (ctxOf c1 7) = 5 ∧ ((0 + 5) * 64 - 1) / 65536 < 2 ^ 20
      ∧ (mapFolios c1 7 [0]).2 = .ok ∧ (stream (mapFolios c1 7 [0]).1 0 0).state = .running ∧ (stream c1 0 0).state = .running := by decide +kernel
theorem test_sample_premises :
    let w : IWord := { f1 := 1, f2 := 2, low := 3 * 2 ^ 29 + 4 * 2 ^ 23 }
    let o := ctxOp 2 .s .s .sw 0
    let e : StepEntry := { ctx := 7, inTokens := 1, samples := true, drawn := none }
    let s := servAt [(7, { state := .active, instep := true })] (some [e]) [(1, 7), (2, 0), (3, 262144)] [] o w
    let s1 := (fetch s 0 0).1
    AloneB s o w ∧ (ctxOf s1 7).state ≠ .idle ∧ (ctxOf s1 7).deckle = dkOf s1 0 ∧ SpadOperand 0 (4 * 262144) ∧ (stream s1 0 0).step = some [e]
      ∧ (quire s1 0).pipeBusy &&& 5 = 0
      ∧ (ctxOf s1 7).sampled = false ∧ (ctxOf s1 7).sampling = false ∧ s1.rng.failed = false := by decide +kernel
theorem test_swap_premises :
    let w : IWord := { f1 := 1, low := 2 ^ 22 }
    let w2 : IWord := { f1 := 1 }
    let o := ctxOp 3 .none .none .none (maskOf 22 22)
    let s := servAt [(7, { state := .swapped, dir := 2 ^ 40 })] none [(1, 7)] [] o w
    let z := servAt [(7, { state := .resident, dir := 2 ^ 40 })] none [(1, 7)] [] o w2
    let u (s : State) (w : IWord) : State :=
      consumeLines (advance (fetch s 0 0).1 0 0 w) 0 ((foliosOf (fetch s 0 0).1 7).map (fun p => (p.2.2 / 65536 * 65536, 65536)))
    AloneB s o w ∧ AloneB z o w2 ∧ (ctxOf s 7).moving = false ∧ (startMove (u s w) 7 true (some (0, 0, 0))).isSome = true
      ∧ (startMove (u z w2) 7 false (some (0, 0, 0))).isSome = true := by decide +kernel
theorem test_greedy_premises :
    ∀ l ∈ [0x3F800000, 0x40000000, 0x40000000], (match decodeF fp32 l with
      | .fin _ _ _ => true
      | _ => false) = true := by decide +kernel
theorem test_swap_end_premises :
    let s : State := { ready with serving := { ctxs := [(4095, { state := .swapped, moving := true, moveIn := true })] } }
    (ctxOf s 4095).moving = true ∧ (ctxOf s 4095).detachLater = [] := by decide
theorem test_auto_swap_premises :
    let out := rset (poolsUp { ready with serving := { ctxs := [(7, { state := .resident, dir := 2 ^ 40 })] } }) .ctxSwpCtl (2 + 2 ^ 8 * 9)
    let into := rset (poolsUp { ready with serving := { ctxs := [(7, { state := .swapped, pendingIn := 1, dir := 2 ^ 40 })] } }) .ctxSwpCtl (1 + 2 ^ 8 * 8)
    deckleExists out 0 = true ∧ fget out .ctxSwpCtl 1 1 0 = 1 ∧ poolFree out 0 0 < fget out .ctxSwpCtl 30 8 0
      ∧ out.serving.ctxs.filter (fun e => e.2.deckle == 0 && e.2.state == .resident && !e.2.instep) = [(7, ctxOf out 7)]
      ∧ (startMove out 7 false none).isSome = true
      ∧ fget into .ctxSwpCtl 0 0 0 = 1
      ∧ readyCtxs into 0 (fun x => x.state == .swapped && !x.moving && decide (x.pendingIn > 0)) = [7]
      ∧ (foliosOf into 7).length + fget into .ctxSwpCtl 30 8 0 ≤ poolFree into 0 0 ∧ (startMove into 7 true none).isSome = true := by decide +kernel
/-- The pools of `withPools` may be enabled, those of `ready` may not, and enabled ones may be disabled. -/
theorem test_pool_premises :
    let s := withPools ready
    let z := rset ready .ctxHpoolBase 1
    let e (x : State) (v : Nat) : State := regEffect x 0 .ctxPoolCtl 0 0 (2 ^ (regRow .ctxPoolCtl).width - 1) v
    reaches s 0 .ctxPoolCtl 0 0 = true ∧ deckleExists (e s 1) 0 = true ∧ fget (e s 1) .ctxPoolCtl 0 0 0 = 0 ∧ poolsOk (e s 1) 0 = true
      ∧ poolsOk (e z 1) 0 = false ∧ fget (e z 1) .ctxPoolCtl 0 0 0 = 0 ∧ fget (e (poolsUp ready) 0) .ctxPoolCtl 0 0 0 = 1
      ∧ fget (e s 0) .ctxPoolCtl 0 0 0 = 0
      ∧ (e (poolsUp ready) 0).serving.ctxs = [] := by decide +kernel

theorem test_hash_premises :
    let w : IWord := { f1 := 1, f2 := 2, low := 3 * 2 ^ 29 }
    let w4 : IWord := { f1 := 1, f2 := 2, low := 3 * 2 ^ 29 + 4 * 2 ^ 23 }
    let regs : Tab Word := [(1, 4096), (2, 100), (3, 55), (4, 200)]
    let s := workAt regs [] [] {} (keyOp w 0 .none) w
    AloneB s (keyOp w 0 .none) w ∧ (quire s 0).upsets = [] ∧ spadBad s 0 100 55 = false
      ∧ AloneB (workAt regs [] [] {} (keyOp w4 2 .s) w4) (keyOp w4 2 .s) w4 := by decide +kernel
theorem test_cipher_premises :
    let w : IWord := { f1 := 1, f2 := 2, low := 3 * 2 ^ 29 + 4 * 2 ^ 23 + 2 ^ 21 }
    let s0 := workAt [(1, 4096), (2, 100), (3, 55), (4, 1)] [] [] {} (keyOp w 1 .s) w
    let s := setDeckle s0 0 { deckle s0 0 with ptk := [(1, { key := zeros 32 })] }
    AloneB s (keyOp w 1 .s) w ∧ keyOf (fetch s 0 0).1 0 1 = some (zeros 32) := by decide +kernel

/-! ### Premises of the host statements -/

/-- `n` bytes with pieces put at offsets. -/
def bytesOf (n : Nat) (ps : List (Nat × List Byte)) : List Byte := tslice 0#8 (ps.foldl (fun m p => tputs 0#8 m p.1 p.2) []) 0 n
/-- `ready` with ring 5 of function `f`: both versions, 16 entries of work and of completions, a bound of 1,024. -/
def ringAt (f : Nat) (x : Ring) : State :=
  let s := rset (rset ready .hqiRingCfg (6 + 2 ^ 8 * 4 + 2 ^ 16 * f + 2 ^ 32 * 1024) 5) .hqiCqCfg (2 ^ 16 + 2 ^ 48 * 4) 5
  { s with host := { rings := [(5, x)], vfOn := true, fns := [(0, { busMaster := true, msixEnable := true, unmasked := [31] }), (1, { busMaster := true })] } }
/-- A descriptor of function 1 with pieces put at offsets. -/
def descOf (op : Nat) (ps : List (Nat × List Byte)) (started : Bool) : Desc :=
  { id := 9, bytes := bytesOf 64 ((0, leBytes 1 op) :: ps), deckle := 0, version := 2, started := started }
/-- `ringAt` with that descriptor tracked. -/
def descAt (op : Nat) (ps : List (Nat × List Byte)) (started : Bool := true) : State :=
  ringAt 1 { state := .active, pi := 2, ci := 1, tracked := [descOf op ps started] }
/-- `Started` decided. -/
abbrev StartedB (s : State) (op : Nat) (d : Desc) : Prop := findDesc s 5 9 = some d ∧ serves s = true ∧ d.started = true ∧ d.busy = false ∧ opOf d = op
  ∧ carries s 5 d = true

theorem test_ring_premises :
    let s := ringAt 1 { state := .active, pi := 2, ci := 2 ^ 32 - 1, cqPi := 4, unsignalled := 1 }
    let z := ringAt 0 {}
    let e := rset (ringAt 0 { state := .active, unsignalled := 1 }) .hqiCqCfg (1 + 2 ^ 4 * 31 + 2 ^ 16 + 2 ^ 32 + 2 ^ 48 * 4) 5
    reaches s 1 .hqiRingDb 5 0 = true ∧ subMod (2 ^ 32) 15 (2 ^ 32 - 1) ≤ 2 ^ fget s .hqiRingCfg 11 8 5
      ∧ 2 ^ fget s .hqiRingCfg 11 8 5 < subMod (2 ^ 32) 16 (2 ^ 32 - 1) ∧ reaches s 1 .hqiCqDb 5 0 = true
      ∧ subMod (2 ^ 32) 4 0 ≤ subMod (2 ^ 32) 4 0 ∧ subMod (2 ^ 32) 4 0 < subMod (2 ^ 32) 5 0 ∧ s.host.recQueue = []
      ∧ reaches z 0 .hqiRingCfg 5 0 = true ∧ (ring z 5).state = .disabled
      ∧ reaches s 1 .hqiFnSts 1 0 = true ∧ (ring e 5).unsignalled ≠ 0 ∧ fget e .hqiCqCfg 41 32 5 ≠ 0 ∧ fget e .hqiCqCfg 0 0 5 = 1
      ∧ fget (rset e .hqiCqCfg (2 ^ 4 * 31 + 2 ^ 16 + 2 ^ 32 + 2 ^ 48 * 4) 5) .hqiCqCfg 0 0 5 = 0 ∧ (func e (ringFn e 5)).d3hot = false
      ∧ fget e .hqiCqCfg 8 4 5 < msixSize (ringFn e 5) ∧ (func e (ringFn e 5)).unmasked.contains (fget e .hqiCqCfg 8 4 5) = true := by decide +kernel
theorem test_ring_enable_premises :
    let z := ringAt 0 {}
    let s0 := written z 0 .hqiRingCfg 5 (BitVec.ofNat 64 (7 + 2 ^ 8 * 4))
    let c := rget s0 .hqiRingCfg 5
    4 ≤ bits c 11 8 ∧ bits c 11 8 ≤ 16 ∧ 4 ≤ fget s0 .hqiCqCfg 51 48 5 ∧ fget s0 .hqiCqCfg 51 48 5 ≤ 16 ∧ bits c 20 16 ≤ 16 ∧ bit c 2 = true
      ∧ reaches (ringAt 0 { state := .active }) 0 .hqiRingCfg 5 0 = true ∧ ringFn (ringAt 0 {}) 255 = 0 := by decide +kernel
theorem test_fetch_premises :
    let s := ringAt 1 { state := .active, pi := 0, ci := 2 ^ 32 - 1 }
    serves s = true ∧ vfHidden s (ringFn s 5) = false ∧ (ring s 5).ci ≠ (ring s 5).pi ∧ (func s (ringFn s 5)).busMaster = true
      ∧ (func s (ringFn s 5)).tdi ≠ .locked ∧ (func s (ringFn s 5)).tdi ≠ .error ∧ trackedAll s < 32768
      ∧ (ring s 5).tracked.length < min 4096 (max 1 (fget s .hqiRingCfg 44 32 5)) ∧ cqFree s 5 ≠ 0
      ∧ (func s (ringFn s 5)).d3hot = false ∧ servedNext s = some (5, 16)
      ∧ servedNext { s with host.turn := (5, 1) } = some (5, 1) := by decide +kernel
/-- A descriptor that may start, one whose header fails, one of an empty deckle; and one that SEALED refuses function 0. -/
theorem test_start_premises :
    let s := descAt 0 [] false
    let z := descAt 0x40 [] false
    let e := { descOf 0 [] false with deckle := 16 }
    findDesc s 5 9 = some (descOf 0 [] false) ∧ serves s = true ∧ heldBack (ring s 5) (descOf 0 [] false) = false
      ∧ usesChannel (descOf 0 [] false) = false ∧ (ringFn s 5 ≠ 0) ∧ headerOk (descOf 0 [] false) (ringFn s 5 == 0) = true
      ∧ (deckle s 0).phase = .active ∧ headerOk (descOf 0x40 [] false) (ringFn z 5 == 0) = false ∧ headerOk e false = true ∧ 16 ≤ e.deckle
      ∧ ringFn (ringAt 0 {}) 5 = 0 ∧ serves { ringAt 0 {} with sealed := true } = true := by
  decide +kernel
theorem test_nop_premises :
    let s := descAt 0 []
    StartedB s 0 (descOf 0 [] true) ∧ (descOf 0 [] true).dropped = false ∧ (ring s 5).state = .active
      ∧ bit (fieldAt (descOf 0 [] true).bytes 1 1) 2 = false := by decide +kernel
theorem test_dispatch_premises :
    let d := descOf 1 [(0x13, [0#8]), (0x14, [0xFF#8])] true
    let e := descOf 1 [(0x13, [0#8]), (0x14, [7#8])] true
    let s := descAt 1 [(0x13, [0#8]), (0x14, [0xFF#8])]
    StartedB s 1 d ∧ par d 0x13 1 < 64 ∧ deckleOfQuire s (par d 0x13 1) = some d.deckle ∧ (quire s (par d 0x13 1)).role ≠ 0
      ∧ (programAt s d.deckle (par d 0x10 2)).isSome = true
      ∧ (∀ g, programAt s d.deckle (par d 0x10 2) = some g → par d 0x12 1 < g.entries.length ∧ par e 0x14 1 < g.streams)
      ∧ (List.range 8).find? (fun i => (stream s (par d 0x13 1) i).state == .idle) = some 1
      ∧ StartedB (descAt 1 [(0x13, [0#8]), (0x14, [7#8])]) 1 e ∧ (stream s (par e 0x13 1) (par e 0x14 1)).state = .idle := by decide +kernel
/-- The smallest program image. -/
def smallImage : List Byte :=
  leBytes 4 0x334C445A ++ [0#8, 3#8] ++ leBytes 2 128 ++ zeros 8 ++ leBytes 4 256 ++ leBytes 4 128 ++ leBytes 4 8 ++ zeros 8 ++ [1#8, 1#8, 0#8, 1#8]
    ++ zeros 216
theorem test_program_load_premises :
    let d := descOf 2 [(0x10, leBytes 8 4096), (0x18, leBytes 8 0x10000)] true
    let e := descOf 2 [(0x10, leBytes 8 0), (0x18, leBytes 8 0x10000), (0x20, [1#8])] true
    let s0 := descAt 2 [(0x10, leBytes 8 4096), (0x18, leBytes 8 0x10000)]
    let s := { s0 with host.mem := tputs 0#8 [] 4096 smallImage }
    let z0 := descAt 2 [(0x10, leBytes 8 0), (0x18, leBytes 8 0x10000), (0x20, [1#8])]
    let z := { z0 with dram.data := tputs 0#8 z0.dram.data 2097152 smallImage }
    StartedB s 2 d ∧ smallImage.length = 256 ∧ fieldAt smallImage 16 4 = 256 ∧ imageCheck smallImage = 0 ∧ smallImage = hostRead s 4096 256
      ∧ (writePrefix s 0 0x10000 smallImage).2 = none ∧ fieldAt smallImage 0x25 1 ≤ (quiresOf s 0).length ∧ freeProgram s 0 = some 1
      ∧ StartedB z 2 e ∧ (dkRead z 0 .hostDma 0 128).2 = .ok (smallImage.take 128)
      ∧ (dkRead (dkRead z 0 .hostDma 0 128).1 0 .hostDma 0 256).2 = .ok smallImage := by
  decide +kernel
theorem test_unload_premises :
    let s := { descAt 3 [] with quires := [] }
    StartedB s 3 (descOf 3 [] true) ∧ (programAt s 0 (par (descOf 3 [] true) 0x10 2)).isSome = true
      ∧ ∀ q ∈ quiresOf s 0, ∀ st, st < 8 → (stream s q st).state ≠ .running ∧ (stream s q st).state ≠ .draining := by decide +kernel
/-- A DMA of 64 bytes in each direction. -/
theorem test_dma_premises :
    ∀ k ∈ [0, 1, 2], let ps : List (Nat × List Byte) := [(0x10, leBytes 8 0x10000), (0x18, leBytes 8 0x20000), (0x20, leBytes 8 64), (0x28, leBytes 1 k)]
      let d := descOf 4 ps true
      let s := descAt 4 ps
      let t := reachTouch s 0 0x10000 64
      let rd := reach t 0 .hostDma false 0x10000 64
      let v := segsTouch t (viaOf 0 .hostDma) rd.segs
      StartedB s 4 d ∧ par d 0x20 8 = 64 ∧ par d 0x28 1 = k ∧ rd.bad = none ∧ poisonOffs rd.segs (v.dram.poison.map (fun c => (c, cwSize c))) = []
        ∧ segsRead v rd.segs = zeros 64 ∧ (writePrefix s 0 0x20000 (zeros 64)).2 = none
        ∧ (writePrefix s 0 (2 ^ 40) (zeros 64)).2.isSome = true ∧ (moveRange s 0 .hostDma 0x10000 0x20000 64).2 = (64, none) := by decide +kernel
theorem test_measured_load_premises :
    ∀ k ∈ [0, 1], let ps : List (Nat × List Byte) := [(0x10, leBytes 8 0x10000), (0x18, leBytes 8 0x20000), (0x20, leBytes 8 64), (0x28, leBytes 8 77), (0x30, leBytes 1 k)]
      let d := descOf 5 ps true
      let s := descAt 5 ps
      StartedB s 5 d ∧ objElsewhere s 0 (par d 0x28 8) (some 5) = false ∧ objRoom s 0 (par d 0x28 8) (some 5) = true
        ∧ (writePrefix s 0 (par d 0x18 8) (hostRead s (par d 0x10 8) (par d 0x20 8))).2 = none
        ∧ (deckle s 0).measures.length < 256 := by decide +kernel

/-! ### Premises of the context, model, engine and memory statements -/

/-- `descAt` with context 4095 of deckle 0. -/
def ctxDesc (op : Nat) (x : Ctx) (ps : List (Nat × List Byte)) : State :=
  { descAt op ((0x10, leBytes 2 4095) :: ps) with serving.ctxs := [(4095, x)] }
theorem test_submit_premises :
    ∀ k ∈ [0, 1], let ps : List (Nat × List Byte) := [(0x18, leBytes 8 0x10000), (0x20, leBytes 4 6 ++ leBytes 4 9), (0x28, leBytes 1 k)]
      let d := descOf 0x10 ((0x10, leBytes 2 4095) :: ps) true
      let x : Ctx := { state := .resident, tokcap := 3, position := 6, pendingIn := 0, tokbuf := 0x20000 }
      let s := ctxDesc 0x10 x ps
      let at_ := (x.position + x.pendingIn) % 2 ^ x.tokcap
      StartedB s 0x10 d ∧ ctxOf s 4095 = x ∧ par d 0x10 2 = 4095 ∧ par d 0x20 4 = 6 ∧ 6 + x.pendingIn ≤ 2 ^ x.tokcap ∧ par d 0x28 1 = k
        ∧ (dkRead s 0 .hostDma 0x10000 24).2 = .ok (zeros 24) ∧ min 6 (2 ^ x.tokcap - at_) = 2
        ∧ (let s1 := if k = 1 then (dkRead s 0 .hostDma 0x10000 24).1 else s
           let v := writePrefix s1 0 (x.tokbuf + 4 * at_) (zeros 8)
           v.2 = none ∧ (writePrefix v.1 0 x.tokbuf (zeros 16)).2 = none) := by decide +kernel
theorem test_context_premises :
    StartedB (ctxDesc 0x11 { state := .active } []) 0x11 (descOf 0x11 [(0x10, leBytes 2 4095)] true)
      ∧ StartedB (ctxDesc 0x12 { state := .resident, instep := true } []) 0x12 (descOf 0x12 [(0x10, leBytes 2 4095)] true)
      ∧ StartedB (ctxDesc 0x12 { state := .swapped, moving := true } []) 0x12 (descOf 0x12 [(0x10, leBytes 2 4095)] true)
      ∧ StartedB (ctxDesc 0x13 { state := .swapped } [(0x12, [1#8])]) 0x13 (descOf 0x13 [(0x10, leBytes 2 4095), (0x12, [1#8])] true)
      ∧ (ctxOf (ctxDesc 0x11 { state := .active, instep := true } []) 4095).instep = true
      ∧ (ctxOf (ctxDesc 0x12 { state := .resident } []) 4095).moving = false := by decide +kernel
/-- A model of one segment of 64 bytes to the HBM tier. -/
theorem test_model_load_premises :
    let ps : List (Nat × List Byte) := [(0x10, [15#8]), (0x14, leBytes 4 1), (0x18, leBytes 8 0x10000), (0x20, leBytes 8 0x20000), (0x30, leBytes 4 1), (0x38, leBytes 4 1)]
    let d := descOf 0x14 ps true
    let bs := bytesOf 64 [(16, leBytes 8 64)]
    let s0 := descAt 0x14 ps
    let s := { s0 with dram.data := tputs 0#8 s0.dram.data (2097152 + 0x10000) bs }
    let p := dkProbe s 0 .hostDma false 0x10000 64
    let s1 := (dkRead p.1 0 .hostDma 0x10000 64).1
    StartedB s 0x14 d ∧ (modelOf s 0 15).state = .free ∧ par d 0x14 4 = 1 ∧ par d 0x38 4 = 1 ∧ par d 0x11 1 ≤ 1
      ∧ p.2 = none ∧ meetsProt p.1 0 0x10000 64 = false ∧ (dkRead s 0 .hostDma 0x10000 64).2 = .ok bs
      ∧ (∀ e ∈ chunksOf 64 1 bs, fieldAt e 0x21 1 = 0 ∧ allZero (sliceB e 0x24 28) = true)
      ∧ rangeOf s1 0 (some false) 0x20000 65536 = true ∧ rangeOf s1 0 (some true) 0 0 = true ∧ rangeTaken s1 0 15 (0x20000, 65536) = false
      ∧ rangeTaken s1 0 15 (0, 0) = false ∧ (∀ g ∈ segsOf 1 bs, g.tier ≤ 2 ∧ 1 ≤ g.bytes ∧ g.bytes ≤ 2 ^ 36)
      ∧ (assignSegs 0x20000 65536 0 0 (segsOf 1 bs)).isSome = true := by decide +kernel
theorem test_model_end_premises :
    let y : Model := { state := .loading, segs := [{ obj := 1, src := 0, bytes := 64, tier := 0, rank := 0, addr := 0x20000 }] }
    let s : State := { ready with serving.models := [(15, y)] }
    let d := descOf 0x15 [(0x10, [15#8])] true
    let z : State := { descAt 0x15 [(0x10, [15#8])] with serving.models := [(15, { state := .loaded })] }
    (modelOf s 0 15).state = .loading ∧ findDesc s y.ring y.desc = none ∧ (copySegs 0 y.sspace .ok y.segs s []).2.2 = none ∧ StartedB z 0x15 d ∧ (modelOf z 0 15).state = .loaded
      ∧ (modelOf z 0 15).binds = 0 := by decide +kernel

/-- A basis record of one prime, 40961, for N = 2¹². -/
def basisRec : List Byte := bytesOf 80 [(0, [12#8, 1#8]), (64, leBytes 8 40961 ++ leBytes 8 243)]
theorem test_basis_premises :
    let ps : List (Nat × List Byte) := [(0x10, leBytes 8 0x10000), (0x18, leBytes 8 0x20000), (0x20, leBytes 8 0x20000)]
    let d := descOf 0x20 ps true
    let s0 := descAt 0x20 ps
    let s := { s0 with dram.data := tputs 0#8 s0.dram.data (2097152 + 0x10000) basisRec, poly := [(0, { bases := [(0, { current := true })] })] }
    let e := descOf 0x21 [] true
    let z := { descAt 0x21 [] with poly := [(0, { bases := [(0, { current := true })] })] }
    let r1 := dkRead s 0 .poly 0x10000 64
    let r2 := dkRead r1.1 0 .poly 0x10000 80
    let p := dkProbe r2.1 0 .engine true 0x20000 0x20000
    StartedB s 0x20 d ∧ (List.range 64).find? (fun i => !((tfind (polyOf s 0).bases i).map (·.current)).getD false) = some 1
      ∧ basisRec.length = 64 + 16 * (fieldAt basisRec 1 1 + fieldAt basisRec 2 1) ∧ r1.2 = .ok (basisRec.take 64)
      ∧ r2.2 = .ok basisRec
      ∧ (∃ b, parseBasis basisRec = some b ∧ basisAreaMin b.logn b.l b.k ≤ 0x20000) ∧ p.2 = none
      ∧ meetsProt p.1 0 0x20000 0x20000 = false ∧ StartedB z 0x21 e ∧ (basisAt z 0 (par e 0x10 2)).isSome = true := by
  refine ⟨by decide +kernel, by decide +kernel, by decide +kernel, by decide +kernel, by decide +kernel,
    ⟨{ current := true, logn := 12, l := 1, mods := [40961], psis := [243] }, by decide +kernel, by decide +kernel⟩, by decide +kernel,
    by decide +kernel, by decide +kernel, by decide +kernel⟩
/-- A switching key of basis 0, a gate key and a group of the key at 0x20000, with their checksums. -/
def keyRec (kind : Nat) : List Byte :=
  let h (logn basis crc : Nat) : List Byte :=
    leBytes 4 0x31594B51 ++ leBytes 1 kind ++ leBytes 1 logn ++ zeros 2 ++ leBytes 2 basis ++ zeros 18 ++ leBytes 4 crc ++ zeros 96
  if kind = 1 then h 12 0 2351610344 ++ zeros 64
  else if kind = 4 then h 10 512 141475873 ++ leBytes 8 1073750017 ++ [1#8, 1#8, 1#8, 1#8] ++ zeros 4 ++ leBytes 8 180790047 ++ zeros 40
  else h 12 0 3100064672 ++ leBytes 4 1 ++ zeros 4 ++ leBytes 8 0x20000 ++ zeros 48
/-- A request to register a key of a kind, with a basis of two moduli in slot 0 and one key present. -/
def keyDesc (kind size : Nat) : State :=
  let s0 := descAt 0x22 [(0x10, leBytes 8 0x80000), (0x18, leBytes 8 size)]
  { s0 with
    dram.data := tputs 0#8 s0.dram.data (2097152 + 0x80000) (keyRec kind)
    poly := [(0, { bases := [(0, { current := true, logn := 12, l := 1, k := 1, alpha := 1 })], keys := [⟨0x20000, 192, 1, 0, 0, 0⟩] })] }
/-- What each kind asks. -/
abbrev KeyPremises (kind size : Nat) : Prop :=
  let s := keyDesc kind size
  let n := if kind = 1 then 128 else if kind = 4 then 192 else 144
  let bs := (keyRec kind).take n
  StartedB s 0x22 (descOf 0x22 [(0x10, leBytes 8 0x80000), (0x18, leBytes 8 size)] true) ∧ bs.length = n
    ∧ (keyBytes s 0 0x80000).2 = .ok bs ∧ keySound bs = true ∧ allZero (sliceB bs 74 54) = true ∧ (readKey bs).kind = kind
    ∧ (let p := keyProbe (keyBytes s 0 0x80000).1 0 0x80000 size (if kind = 4 then some (16 * 2 ^ (readGate bs).logn) else none)
       p.2 = none ∧ meetsProt p.1 0 0x80000 size = false)
theorem test_switch_key_premises :
    KeyPremises 1 0x20000 ∧ (readKey (keyRec 1)).logn = 12 ∧ (readKey (keyRec 1)).basis = 0 ∧ 128 + 8 * 2 ^ 12 * ceilDiv 1 (max 1 1) * (1 + 1) ≤ 0x20000 := by
  decide +kernel
theorem test_gate_key_register_premises : KeyPremises 4 0x900000 ∧ gateOk (keyRec 4) = true ∧ gateSize (readGate (keyRec 4)) ≤ 0x900000 := by decide +kernel
theorem test_key_group_premises :
    KeyPremises 5 192 ∧ (readKey (keyRec 5)).basis = 0 ∧ fieldAt (keyRec 5) 128 4 = 1 ∧ allZero (sliceB (keyRec 5) 132 4) = true
      ∧ wordsOf (((keyRec 5).take 144).drop 136) = [0x20000] := by decide +kernel
theorem test_release_premises :
    let d := descOf 0x23 [(0x10, leBytes 8 0x20000)] true
    let s := { descAt 0x23 [(0x10, leBytes 8 0x20000)] with poly := [(0, { keys := [⟨0x20000, 192, 1, 0, 0, 0⟩], releases := [⟨5, 9, [0x20000]⟩] })] }
    let e := descOf 0x28 [(0x10, [31#8])] true
    let z (x : SesSt) : State := { descAt 0x28 [(0x10, [31#8])] with sessions := [(31, { state := x, deckle := 0 })] }
    StartedB s 0x23 d ∧ (polyOf s 0).keys.any (fun p => p.addr == par d 0x10 8) = true ∧ (polyOf s 0).releases[0]? = some ⟨5, 9, [0x20000]⟩
      ∧ StartedB (z .opn) 0x28 e ∧ StartedB (z .broken) 0x28 e ∧ (tfind (z .opn).sessions (par e 0x10 1)).isSome = true := by decide +kernel
/-- A page of each size, at an address with no mapping, and the pages of an address that has one. -/
theorem test_translation_premises :
    let ps (k : Nat) : List (Nat × List Byte) := [(0x10, leBytes 8 0x2000000), (0x18, leBytes 8 0x2000000), (0x20, leBytes 8 0x200000), (0x28, leBytes 1 k ++ [1#8])]
    let d (k : Nat) := descOf 0x30 (ps k) true
    let us : List (Nat × List Byte) := [(0x10, leBytes 8 0xC00000), (0x18, leBytes 8 0x200000)]
    let z := descAt 0x31 us
    (∀ k ∈ [0, 1], let s := descAt 0x30 (ps k)
      StartedB s 0x30 (d k) ∧ xltOn s 0 = true ∧ s.dram.errors = [] ∧ par (d k) 0x28 1 = k ∧ par (d k) 0x29 1 = 1
        ∧ ownsRange s 0 0x2000000 0x200000 = true ∧ s.dram.mapped = [] ∧ mapObstacle (reachTouch s 0 0x2000000 0x200000) 0 0x2000000 0x200000 = none
        ∧ (let page := if k = 1 then 2097152 else 65536
           (((List.range (0x200000 / page)).map (fun i => (0x2000000 + page * i, 0x2000000 + page * i))).foldlM (mapPage 0 (k == 1) true)
             (reachTouch s 0 0x2000000 0x200000)).isSome = true))
      ∧ StartedB z 0x31 (descOf 0x31 us true) ∧ (let z1 := reachTouch z 0 0xC00000 0x200000
           pagesOf z1 0 (0x200000 / 65536 + 1) 0xC00000 0x200000 = .inl [(0xC00000, (0xE00000, 0x200000))]
             ∧ meetsProt z1 0 0xC00000 0x200000 = false ∧ z1.waits = []
             ∧ overlaps (0xE00000, 0x200000) (0xE00008, 8) = true) := by decide +kernel

theorem test_controller_premises :
    let z : State := { ready with dram.errors := [(2097152, [(0, 3)])] }
    dpaExists 2097152 = true ∧ dpaExists 0xFBFFFFFFFF = true ∧ dpaExists 0xFC00000000 = false ∧ ready.boot.ready = true ∧ ready.power.rails = true
      ∧ decodeCw ready (cwBase 2097152) = .clean ∧ decodeCw z (cwBase 2097152) = .corrected 1 ∧ fget z .memFlipPos 56 56 (ctlOf (cwBase 2097152)) = 0
      ∧ ready.dram.fresh = [] ∧ z.dram.upsets = [] ∧ findLine z { alloc := false } (lineOf (cwBase 2097152)) = none := by decide +kernel
theorem test_zero_premises :
    let s : State := { ready with dram.fresh := [(32, 1)], zeros := [(7, { ranges := [(2097152, 64)], why := 1, arg := 0 })] }
    inRanges s.dram.fresh 32 = true ∧ (tfind ready.zeros 7) = none ∧ (tfind s.zeros 7).isSome = true ∧ (∀ p ∈ s.zeros, p.1 < 8)
      ∧ ready.dram.upsets = []
      ∧ ∀ c ∈ [0, 7, 8, 23], decodeCw ready (scrubDpa c ((ctl ready c).scrubPos % cwsOf c)) = .clean ∧ fget ready .memScrubCtl 0 0 ≠ 0 := by
  decide +kernel
theorem test_translation_enable_premises :
    let w (s : State) (v : Word) : State := regEffect s 0 .memDctl 0 0 (2 ^ (regRow .memDctl).width - 1) (v.toNat % 2 ^ 32)
    let off := rset (rset bare .memXltBase 65536) .memXltSize 1
    let none_ := bare
    let bare0 : State := { ready with dram.data := [] }
    reaches off 0 .memDctl 0 0 = true ∧ xltOn (w off 1) 0 = false ∧ deckleExists (w off 1) 0 = true ∧ 1 ≤ rget (w off 1) .memXltSize 0
      ∧ ownsRange (w off 1) 0 (xltBase (w off 1) 0) (xltSize (w off 1) 0) = true ∧ rget (w none_ 1) .memXltSize 0 = 0 ∧ xltOn (w none_ 1) 0 = false
      ∧ xltOn (w bare0 0) 0 = true ∧ anyMapped (w bare0 0) 0 = false ∧ xltOn (w ready 0) 0 = true ∧ anyMapped (w ready 0) 0 = true := by decide +kernel
theorem test_repair_premises :
    let v : Word := BitVec.ofNat 64 (2 ^ 63)
    reaches ready 0 .memFlipPos 23 0 = true ∧ injectionOpen ready 0 = true ∧ reaches ready 0 .memPprCmd 7 0 = true ∧ fget ready .memPprSts 0 0 7 = 0
      ∧ pprHere 7 (7 * 128) = true ∧ bits ((v ||| BitVec.ofNat 64 14).toNat) 33 0 * 64 = 7 * 128 ∧ (ctl ready 7).pendingHard.length < 255 := by decide +kernel

theorem test_function_premises :
    let s : State := { ready with host.vfOn := true, host.fns := [(1, { pendingVec := [29], msixEnable := true })] }
    let z : State := { s with boot := { ready.boot with ready := false } }
    s.boot.ready = true ∧ s.power.rails = true ∧ s.boot.pcieUp = true ∧ z.boot.stopped = 0 ∧ z.boot.pcieUp = true ∧ 29 < msixSize 1 ∧ 31 < msixSize 0
      ∧ 29 ∈ (func s 1).pendingVec ∧ (func s 1).msixEnable = true ∧ (func s 1).d3hot = false := by decide +kernel
/-- BAR2 accesses: of the PF in SEALED mode, of function 1 to mapped bytes, to bytes without a mapping, and of a draining deckle. -/
theorem test_bar2_premises :
    let s : State := { ready with host.vfOn := true }
    let z : State := { s with sealed := true }
    let h : State := setDeckle s 0 { deckle s 0 with phase := .draining }
    let b : State := rset s .hqiFnB2win (2 ^ 16 * 0x8000) 1
    let s0 := reachTouch s 0 0 64
    let g := reach s0 0 .bar2 false 0 64
    bar2Up z 0 0 8 = true ∧ bar2Up s 1 0 64 = true ∧ vfHidden h 1 = true ∧ bar2Up h 1 0 64 = true ∧ bar2Up b 1 0 64 = true
      ∧ (let b0 := reachTouch b 0 (fget b .hqiFnB2win 63 16 1 * 65536) 64
         (reach b0 0 .bar2 false (fget b0 .hqiFnB2win 63 16 1 * 65536) 64).bad ≠ none)
      ∧ (reach b 0 .bar2 true (fget b .hqiFnB2win 63 16 1 * 65536) 64).bad ≠ none
      ∧ vfHidden s 1 = false ∧ (func s0 1).tdi = .unlocked ∧ g.bad = none ∧ segsPoison (segsTouch s0 (bar2Via 1) g.segs) g.segs = none
      ∧ (reach s0 0 .bar2 true 0 64).bad = none
      ∧ (let p : State := { s with dram.poison := [2097152] }
         (segsPoison (segsTouch (reachTouch p 0 0 64) (bar2Via 1) g.segs) g.segs).isSome = true)
      ∧ (let p : State := { s with dram.poison := [65536] }
         ((reach (reachTouch p 0 0 64) 0 .bar2 false 0 64).bad.bind (fun b => b.2.2)).isSome = true
           ∧ ((reach (reachTouch p 0 0 64) 0 .bar2 true 0 64).bad.bind (fun b => b.2.2)).isSome = true) := by decide +kernel
theorem test_register_write_premises :
    let s : State := { ready with host.vfOn := true }
    let own (fn : Nat) (a : Nat) : Option (Bool × Bool × Bool × Nat) :=
      (regAt a).map (fun h => (storesOnly h.row.reg, reaches s fn h.row.reg h.k h.j, decide (64 ≤ h.row.width), h.off))
    regAt 0xFFFFFC = none ∧ own 0 0x40000 = some (true, true, true, 0) ∧ own 0 0x40004 = some (true, true, true, 4)
      ∧ own 1 0x40000 = some (true, false, true, 0) ∧ answers s 0 = true ∧ answers s 1 = true ∧ (0x40004 : Nat) % 4 = 0 ∧ ¬ ((8 = 4 ∧ 0x40004 % 4 = 0) ∨ ((8 : Nat) = 8 ∧ 0x40004 % 8 = 0)) := by
  decide +kernel
/-- A latching register, and a log that a first half-write has been made to. -/
theorem test_latch_and_log_premises :
    let a := regAddr .clkTsc
    let l := regAddr .rngHtLog
    let s : State := { ready with halfClears := [⟨l, true, 0⟩] }
    (regAt a).map (fun h => (latches h.row.reg, reaches s 0 h.row.reg h.k h.j, h.off)) = some (true, true, 0)
      ∧ (regAt (a + 4)).map (fun h => (latches h.row.reg, h.off)) = some (true, 4)
      ∧ (regAt l).map (fun h => (isLog h.row.reg, h.row.reg == .qreStrFlt, reaches s 0 h.row.reg h.k h.j, h.off)) = some (true, false, true, 0)
      ∧ l % 8 = 0 ∧ (∃ c ∈ s.halfClears, c.addr = l ∧ c.fn = 0 ∧ c.upper ≠ ((0 : Nat) == 4)) ∧ ready.halfClears = [] := by decide +kernel

/-! ### Premises of the SPDM statements -/

/-- `ready` with session 0 open and session 3 answered. -/
def inSession : State :=
  { ready with spdm := { sessions := [(0, { answered := true, finished := true }), (3, { answered := true })], ide := [(1, { fn := 1, keys := [(1, zeros 32)], secure := true, keySet := 1 })]
                         chunkIn := some (7, 1, [1#8]), chunkOut := some (8, 0, [1#8, 2#8]) }
               host.fns := [(2, { tdi := .locked }), (1, { tdi := .run })] }
theorem test_spdm_premises :
    let s := inSession
    let full : State := { ready with spdm.sessions := (List.range 4).map (fun i => (i, {})) }
    InSession s 0 ∧ sessOpen s 1 = false ∧ doeUp ready = true ∧ ready.fuses.serial.length = 16 ∧ ready.fuses.lc ≠ 3 ∧ tfree full.spdm.sessions 4 = none
      ∧ doeUp full = true ∧ tfree s.spdm.sessions 4 = some 1 ∧ s.rng.failed = false ∧ tfind s.spdm.sessions 3 = some { answered := true }
      ∧ canReport s = true ∧ s.spdm.chunkIn = some (7, 1, [1#8]) ∧ s.spdm.chunkOut = some (8, 0, [1#8, 2#8]) := by
  refine ⟨⟨?_, ?_⟩, ?_⟩ <;> decide +kernel
theorem test_interface_premises :
    let s := inSession
    let z : State := { s with sealed := true }
    tfind (ideOf s 1).keys 1 = some (zeros 32) ∧ (zeros 32).length = 32 ∧ tfind s.spdm.ide 1 = some { fn := 1, keys := [(1, zeros 32)], secure := true, keySet := 1 }
      ∧ (func s 1).tdi ≠ .unlocked ∧ z.sealed = true ∧ deckleExists z (1 - 1) = true ∧ (func z 3).tdi = .unlocked
      ∧ (func (setFunc z 1 {}) 1).tdi = .unlocked ∧ s.sealed = false ∧ deckleExists s (16 - 1) = false ∧ (func s 2).tdi = .locked
      ∧ (func s 16).tdi ≠ .locked ∧ InSession z 0 ∧ InSession (setFunc z 1 {}) 0 := by
  refine ⟨?_, ?_, ?_, ?_, ?_, ?_, ?_, ?_, ?_, ?_, ?_, ?_, ⟨?_, ?_⟩, ?_, ?_⟩ <;> decide +kernel

/-! ### Premises of the statements on randomness, clocks, power, pins and resets -/

/-- `ready` with the sources running and source 15 as given. -/
def withSource (x : Source) : State := { ready with rng := { started := true, sources := [(15, x)] } }
theorem test_sample_rng_premises :
    let s := withSource { state := .startup, passed := 1023, winLen := 1023, winFirst := 2, winHits := 623, last := 1, run := 39 }
    let z := withSource { state := .startup, run := 40, last := 1, startFails := 3, winLen := 40 }
    s.rng.started = true ∧ s.rng.failed = false ∧ domainRuns s 2 = true ∧ s.power.rails = true ∧ fget s .rngHtInj 8 8 = 0
      ∧ (source s 15).forced = false ∧ (source s 15).state ≠ .disabled ∧ runAfter (source s 15) 1 < 41
      ∧ hitsAfter (source s 15) 2 < 625 ∧ (source s 15).passed + 1 = 1024 ∧ 41 ≤ runAfter (source z 15) 1 ∧ hitsAfter (source z 15) 1 < 625
      ∧ 4 ≤ (source z 15).startFails + 1 ∧ 625 ≤ hitsAfter { (source s 15) with winHits := 624 } 2 := by decide +kernel
/-- A source that operates, one that starts, and the last source that is not disabled. -/
theorem test_sample_state_premises :
    let s := withSource { state := .operating, winLen := 1022, block := List.replicate 382 1 }
    let z := withSource { state := .startup, winLen := 1022, passed := 1022, startFails := 2, run := 40 }
    let l : State := { ready with rng := { started := true, sources := (List.range 16).map (fun i => (i, { state := if i = 15 then .startup else .disabled, startFails := 3, run := 40 })) } }
    (source s 15).winLen + 1 < 1024 ∧ (source s 15).block.length + 1 < 384 ∧ (source z 15).winLen + 1 < 1024 ∧ (source z 15).passed + 1 < 1024
      ∧ (source z 15).startFails + 1 < 4 ∧ (∀ j, j < 16 → j ≠ 15 → (source l j).state = .disabled) ∧ 41 ≤ runAfter (source l 15) 0
      ∧ (∀ g, g < 4 → (drbg l g).queue = []) ∧ (source l 15).startFails + 1 = 4 := by decide +kernel
theorem test_instance_premises :
    let b := zeros 32
    let s : State := { ready with rng := { started := true, drbgs := [(0, { seeds := [b, b] }), (1, { ready := true, count := 65536, seeds := [b] }),
      (3, { ready := true, count := 7, queue := [{ who := .window 16 }] })], windows := [(0, [5])] } }
    (drbg s 0).ready = false ∧ (drbg s 0).seeds = [b, b] ∧ (drbg s 1).ready = true ∧ 65536 ≤ (drbg s 1).count ∧ (drbg s 1).seeds = [b]
      ∧ canDeliver (drbg s 3) = true ∧ reseedDue (drbg s 3) = false ∧ (drbg s 3).count + 1 < 2 ^ 32 ∧ (drbg s 3).queue = [{ who := .window 16 }]
      ∧ busUp s = true ∧ reaches s 0 .rngRd 0 0 = true ∧ tget [] s.rng.windows 0 = [5] ∧ windowAsked ready 0 = false
      ∧ tget [] ready.rng.windows 0 = [] ∧ reaches s 0 .rngHtInj 0 0 = true ∧ injectionOpen s 0 = true ∧ injectionOpen s 1 = false := by decide +kernel
theorem test_clock_premises :
    let d : Domain := { onStandby := false, primLocked := true, stbyLocked := true }
    let s : State := { ready with clk.domains := [(11, d), (0, { d with stbyLocked := false })], clk.lost := [0] }
    domain s 11 = d ∧ kclkRuns s = true ∧ (domain s 0).stbyLocked = false ∧ (domain s 0).primLocked = true ∧ refUp s 1 = true ∧ refUp s 2 = true
      ∧ refUp s 0 = false ∧ reaches s 0 .clkSwback 0 0 = true ∧ domainRuns s 0 = true ∧ domainRuns s 2 = true
      ∧ (let z : State := { ready with clk.domains := [(0, { primLocked := false, stbyLocked := false }), (2, { primLocked := false, stbyLocked := false })] }
         domainRuns z 0 = false ∧ domainRuns z 2 = false)
      ∧ (let z : State := { State.reset with clk.lost := [1, 2] }
         refUp z 1 = false ∧ refUp z 2 = false ∧ (pin z 0).forced = false ∧ z.power.rails = true ∧ z.boot.held = true ∧ z.clk.lost.contains 0 = false) := by
  decide +kernel

theorem test_power_premises :
    let s : State := { ready with power := { rails := true, l := 43, samples := [1650001], calstep := 35 } }
    powerRuns s = true ∧ s.power.l ≤ 43 ∧ capMw s < meanOf s 10 ∧ 1650000 < meanOf s 10 ∧ s.power.vinOdd = false ∧ kclkRuns s = true
      ∧ s.power.excursion = false ∧ s.power.calstep < 36 ∧ anyRunning { s with quires := [] } = false ∧ powerRuns { s with quires := [] } = true := by
  decide +kernel
/-- Readings of 136 sensors: all at their limits, and one above the trip limit of its class. -/
theorem test_sensor_premises :
    let l := (List.range 136).map (fun i => if 100 ≤ i ∧ i ≤ 123 then 880 else 1000)
    l.length = 136 ∧ (∀ x ∈ l, x < 4096) ∧ (∀ i, i < 136 → (l[i]?).isSome = true ∧ nth 0 l i ≤ (if 100 ≤ i ∧ i ≤ 123 then 880 else 1000))
      ∧ nth 0 l 99 + 1 = 1001 ∧ nth 0 l 100 + 1 = 881 ∧ nth 0 l 123 = 880 ∧ nth 0 l 124 = 1000 := by decide +kernel
theorem test_pin_premises :
    let off : State := { ready with power.rails := false, power.input := false }
    let s : State := { ready with now := 5000000, power.stopping := true, pins := [(1, { raw := true, out := true }), (2, { forced := true, edges := [1] }),
      (5, { edges := List.replicate 10 4999999 }), (0, { forced := true, edges := List.replicate 11 4999999 })] }
    off.power.input = false ∧ (pin off 3).asserted = false ∧ (pin s 3).forced = false ∧ s.power.rails = true ∧ s.power.stopping = true
      ∧ (pin s 1).forced = false ∧ (pin s 1).asserted = true ∧ (pin s 1).held = false ∧ (pin s 2).forced = true ∧ (pin s 2).asserted = true
      ∧ (recentEdges s (pin s 2)).length ≤ 10 ∧ 10 < (recentEdges s (pin s 0)).length ∧ (pin s 5).raw ≠ true ∧ (pin s 5).forced = false
      ∧ 10 < (s.now :: recentEdges s (pin s 5)).length ∧ (pin s 4).raw ≠ true ∧ (s.now :: recentEdges s (pin s 4)).length ≤ 10
      ∧ powerRuns s = true ∧ powerRuns off = false ∧ off.power.tripped = false := by decide +kernel
theorem test_boot_sequence_premises :
    let s := State.reset
    let im := validImage s (currentRecord s).2.active
    let bad : State := { s with banks := [] }
    (pin s 0).forced = false ∧ s.power.rails = true ∧ s.boot.held = true ∧ s.clk.lost.contains 0 = false ∧ s.fuses.lc ≠ 0 ∧ s.fuses.lc ≠ 4
      ∧ im.isSome = true ∧ s.ev.deferred = [] ∧ validImage bad 0 = none ∧ validImage bad 1 = none
      ∧ (List.filterMap (placeOf s 6) ((List.range 68).filter (fun p => !s.fuses.spares.contains p))).Nodup
      ∧ (let z : State := { s with fuses := { s.fuses with lc := 4 } }
         z.fuses.lc = 4 ∧ (pin z 0).forced = false)
      ∧ reaches ready 0 .gctReset 0 0 = true ∧ ready.power.rails = true ∧ (pin ready 0).asserted = false
      ∧ (pin { ready with pins := [(0, { raw := true, out := true })] } 0).asserted = true ∧ ready.boot.held = false ∧ tsorted ready.regs = true := by
  decide +kernel
theorem test_quire_reset_premises :
    let s : State := { ready with deckles := [(0, { phase := .draining, groups := 1 })] }
    reaches ready 0 .qreRst 3 0 = true ∧ (phys ready 3).logical = some 3 ∧ (phys ready 3).retired = false ∧ (phys ready 3).fenced = false
      ∧ deckleOfQuire ready 3 = some 0 ∧ (deckle ready 0).phase = .active ∧ reaches ready 0 .qreRst 67 0 = true ∧ (phys ready 67).logical = none
      ∧ deckleOfQuire s 3 = some 0 ∧ (deckle s 0).phase ≠ .active ∧ reaches s 0 .qreRst 3 0 = true := by decide +kernel

/-! ### Premises of the event, repair and link statements -/

theorem test_event_premises :
    let e : Event := { sev := 2, block := 7, inst := 3, code := 1, dk := some 0, info := 0, time := 5 }
    let v : Event := { e with sev := 1, seq := 8 }
    let s : State := { ready with ev.pending := [e], ev.nextSeq := 2 ^ 32 - 1 }
    let full : State := { s with ev.queue := List.replicate 512 v }
    let more : State := { s with ev.queue := List.replicate 512 { v with sev := 2 } }
    s.ev.pending = [e] ∧ entersFirst s.ev.pending = some e ∧ s.dram.upsets = [] ∧ kclkRuns s = true ∧ e.sev < 3 ∧ s.ev.queue.length < 512 ∧ 512 ≤ full.ev.queue.length ∧ evVictim full.ev.queue = some v
      ∧ v.sev < e.sev ∧ evVictim more.ev.queue = some { v with sev := 2 } := by decide +kernel
/-- A record for functions 0 and 1, with room in their rings, with none, and for a PF whose ring is not enabled. -/
theorem test_delivery_premises :
    let e : Event := { sev := 3, block := 7, inst := 3, code := 1, dk := some 0, info := 0, time := 5, seq := 2 ^ 32 - 1, dests := [0, 1] }
    let s : State := { rset (rset ready .evtRingCfg (1 + 2 ^ 8 * 4) 1) .evtRingCfg (1 + 2 ^ 8 * 16) 0 with host.vfOn := true, ev.queue := [e], ev.rings := [(1, { pi := 15, head := 2 ^ 32 - 1 })] }
    nextRecord s 1 = some e ∧ nextRecord s 0 = some e ∧ kclkRuns s = true ∧ s.power.rails = true ∧ fget s .evtRingCfg 0 0 1 = 1 ∧ s.fe = false
      ∧ (deckle s 0).phase = .active ∧ 2 ^ fget s .evtRingCfg 11 8 1 ≤ subMod (2 ^ 32) (evRing s 1).pi (evRing s 1).head
      ∧ subMod (2 ^ 32) (evRing s 0).pi (evRing s 0).head < 2 ^ fget s .evtRingCfg 11 8 0 ∧ nextRecord { ready with ev.queue := [e] } 0 = some e
      ∧ fget ready .evtRingCfg 0 0 0 ≠ 1 ∧ reaches s 0 .evtRingCfg 0 0 = true ∧ reaches s 1 .evtRingCfg 1 0 = true ∧ fget ready .evtRingCfg 0 0 1 = 0
      ∧ reaches ready 0 .evtRingCfg 1 0 = true ∧ reaches s 1 .evtRingHead 1 0 = true
      ∧ subMod (2 ^ 32) 15 (2 ^ 32 - 1) ≤ subMod (2 ^ 32) (evRing s 1).pi (evRing s 1).head
      ∧ subMod (2 ^ 32) (evRing s 1).pi (evRing s 1).head < subMod (2 ^ 32) 16 (2 ^ 32 - 1) ∧ reaches s 0 .evtFatal 0 0 = true := by decide +kernel
theorem test_retire_premises :
    let s : State := { ready with retireQueue := [3] }
    let z : State := { ready with sealed := true }
    busUp ready = true ∧ ready.fe = false ∧ ready.sealed = false ∧ (phys ready 3).logical ≠ none ∧ (phys ready 3).retired = false
      ∧ (phys ready 3).fenced = false ∧ 3 ∉ ready.retireQueue ∧ (phys z 3).logical.bind (deckleOfQuire z) ≠ none ∧ reaches ready 0 .qreErrCtl 3 0 = true
      ∧ reaches { ready with host.vfOn := true } 1 .qreErrCtl 3 0 = true
      ∧ retireWaits s 3 = false ∧ s.dram.upsets = [] ∧ s.fe = false ∧ s.power.rails = true ∧ (phys s 3).logical = some 3
      ∧ (usableSpares s).filter (fun x => ! [4].contains x) = 5 :: (List.range 62).map (· + 6) ∧ (∀ x ∈ usableSpares s, x ∈ (List.range 64).map (· + 4)) := by
  decide +kernel
theorem test_link_premises :
    injectionOpen ready 1 = false ∧ injectionOpen ready 0 = true ∧ reaches ready 0 .qreShtInj 67 0 = true ∧ reaches ready 0 .qreBtrInj 67 0 = true
      ∧ fget ready .qreShtInj 8 8 67 = 0 ∧ ready.power.rails = true ∧ ready.boot.pcieUp = true ∧ min ready.boot.width (soundWidth (0 ||| 256)) = 8
      ∧ soundWidth (2 ^ 16 - 1) = 0 ∧ ready.boot.held = false ∧ ready.clk.lost.contains 0 = false := by decide +kernel

/-! ### Premises of the tenancy and mode statements -/

/-- `CREATE` of deckle 15 with group 15, and with groups that are not free; `GRANT` and `RECLAIM` of granule 1 or 287 to deckle 0. -/
theorem test_deckle_premises :
    let create := dkCmdOf (1 + 15 * 16 + 2 ^ 31 + 2 ^ 47) (2 ^ 31)
    let taken := dkCmdOf (1 + 15 * 16 + 2 ^ 16) (2 ^ 31)
    let grant := dkCmdOf (2 + 2 ^ 48 * 287) (2 ^ 31 + 1)
    let s := ready
    s.boot.ready = true ∧ kclkRuns s = true ∧ reaches s 0 .prtCmd2 0 0 = true ∧ create.op = 1 ∧ create.d = 15 ∧ (deckle s 15).phase = .none
      ∧ create.groups ≠ 0 ∧ create.ways ≠ 0 ∧ (∀ d, d < 16 → deckleExists s d = true → (deckle s d).groups &&& create.groups = 0 ∧ (deckle s d).ways &&& create.ways = 0)
      ∧ s.fe = false ∧ s.dram.upsets = [] ∧ (dkCmdOf (1 + 15 * 16) (2 ^ 31)).groups = 0 ∧ (deckle s 0).groups &&& taken.groups ≠ 0 ∧ (deckle s 0).phase = .active
      ∧ (∀ q, q < 64 → create.groups.testBit (q / 4) = true → (quire s q).flights = [] ∧ (quire s q).arrivals = [] ∧ (quire s q).streams = [])
      ∧ grant.op = 2 ∧ grant.d = 0 ∧ grant.badRange = false ∧ (∀ g ∈ grant.granules, tget 0 s.dram.owner g = 0)
      ∧ (dkCmdOf (2 + 2 ^ 48 * 288) (2 ^ 31 + 1)).badRange = true ∧ (dkCmdOf 2 (2 ^ 31 + 1)).badRange = true := by decide +kernel
theorem test_reclaim_premises :
    let c := dkCmdOf (3 + 2 ^ 48 * 287) (2 ^ 31 + 1)
    let e := dkCmdOf (3 + 2 ^ 8 + 2 ^ 48 * 287) (2 ^ 31 + 1)
    let s : State := { ready with dram.owner := [(0, 1), (287, 1)] }
    let z := rset s .memDctl 3
    c.op = 3 ∧ c.badRange = false ∧ reclaimCheck c s = 0 ∧ reclaimCheck c z = 0 ∧ c.erase = 0 ∧ encOf z 0 = true ∧ encOf s 0 = false ∧ e.erase = 1
      ∧ (∃ g ∈ (dkCmdOf (2 + 2 ^ 48 * 287) (2 ^ 31 + 1)).granules, tget 0 s.dram.owner g ≠ 0) := by decide +kernel
theorem test_deckle_drain_premises :
    let at_ (p : DeckPhase) : State := { ready with deckles := [(0, { phase := p, lastOp := 4, groups := 1 }), (15, { phase := p, groups := 0x8000, mek := some (zeros 32) })] }
    (deckle (at_ .draining) 0).phase = .draining ∧ (∀ q ∈ quiresOf (at_ .draining) 0, (quire (at_ .draining) q).flights = [] ∧ (quire (at_ .draining) q).arrivals = [])
      ∧ (deckle (at_ .scrubbing) 0).mek = none ∧ (deckle (at_ .scrubbing) 15).mek ≠ none ∧ (deckle (at_ .erasing) 0).phase = .erasing
      ∧ zeroRuns (at_ .erasing) 3 0 = false ∧ (at_ .erasing).fe = false ∧ (at_ .erasing).dram.fresh = []
      ∧ zeroRuns (at_ .erasing) 4 0 = false ∧ (at_ .erasing).dram.upsets = [] ∧ granulesOfDeckle (at_ .scrubbing) 0 ≠ [] ∧ encOf (at_ .scrubbing) 0 = false
      ∧ zeroRuns { at_ .erasing with zeros := [(0, { ranges := [], why := 3, arg := 0 })] } 3 0 = true
      ∧ zeroRuns { at_ .erasing with zeros := [(0, { ranges := [], why := 4, arg := 0 })] } 4 0 = true := by decide +kernel
theorem test_seal_premises :
    let s : State := { ready with deckles := [] }
    let z : State := { ready with sealed := true, host.vfOn := true, host.fns := [(1, { tdi := .run })] }
    reaches s 0 .secMode 0 0 = true ∧ anyDeckle s = false ∧ s.fuses.lc ≠ 3 ∧ anyDeckle ready = true ∧ reaches ready 0 .secPtkCtl 0 0 = true
      ∧ deckleExists ready 0 = true ∧ ready.izk.qps = [] ∧ ready.izk.ports = [] ∧ ready.dram.upsets = [] ∧ reaches z 1 .secPtkCtl 0 0 = true ∧ (func z 1).tdi = .run
      ∧ reaches { z with host.fns := [] } 1 .secPtkCtl 0 0 = true ∧ (func { z with host.fns := [] } 1).tdi ≠ .run := by decide +kernel
theorem test_report_premises :
    let im := factoryImage
    let s : State := { inSession with mgt := { staging := { state := .verifying }, sessions := [(8, { sid := zeros 8, key := zeros 32, ver := 2, exec := some { srcMac := 1, srcIp := 2, srcPort := 1, ver := 2, cmd := 0x12, seq := 1, body := [] } })] }
                                      banks := [(0, { image := some im }), (1, { image := some im })], boot := { ready.boot with jtagEn := true } }
    s.mgt.staging.state = .verifying ∧ s.reports = [] ∧ s.boot.ready = true ∧ (bank s (stagedBank s)).image = some im ∧ canReport s = true ∧ domainRuns s 2 = true ∧ agentRuns s = true
      ∧ sessOpen s 0 = true ∧ ((tfind s.mgt.sessions 8).bind (·.exec)).isSome = true ∧ tapOpen s = true ∧ ready.boot.jtagEn = false
      ∧ anyDeckle s = true := by decide +kernel
theorem test_tap_premises :
    let s (lc : Nat) : State := { ready with fuses := { factoryFuses with lc := lc }, deckles := [], boot := { ready.boot with jtagEn := true }, pins := [(0, { raw := true, out := true })] }
    ∀ lc ∈ [0, 1, 3], (s lc).fuses.lc = lc ∧ tapOpen (s lc) = true ∧ anyDeckle (s lc) = false ∧ (pin (s lc) 0).asserted = true ∧ secretsThere (s lc).fuses = true := by
  decide +kernel

/-! ### Premises of the Pliac and management port statements -/

/-- The session of an operator that executes a request with a body. -/
def opSession (cmd : Nat) (body : List Byte) : PSession :=
  { sid := zeros 8, key := zeros 32, ver := 2, sub := some { mask := 1, sent := [(1, [])] }
    exec := some { srcMac := 1, srcIp := 2, srcPort := 3, ver := 2, cmd := cmd, seq := 1, body := body } }
/-- `ready` with the agent serving, and that session in the slot of a role's first credential. -/
def serveAt (slot cmd : Nat) (body : List Byte) : State :=
  { rset ready .gctMgtCfg (4660 + 2 ^ 17) with
    boot := { ready.boot with mgmtEn := true, running := some { factoryImage with svn := 7 } }
    mgt := { link := true, sessions := [(slot, opSession cmd body)] } }
/-- `Asked` there. -/
abbrev AskedB (slot cmd least : Nat) (body : List Byte) : Prop :=
  Asked (serveAt slot cmd body) slot cmd least (opSession cmd body) { srcMac := 1, srcIp := 2, srcPort := 3, ver := 2, cmd := cmd, seq := 1, body := body }

theorem test_simple_request_premises :
    AskedB 0 0x02 0 [] ∧ AskedB 0 0x10 0 [] ∧ AskedB 0 0x11 0 [] ∧ AskedB 0 0x31 0 [] ∧ AskedB 0 0x53 0 [] ∧ AskedB 0 0x10 0 [1#8]
      ∧ AskedB 4 0x20 1 (bytesOf 8 [(0, leBytes 2 1400)]) ∧ AskedB 4 0x21 1 (zeros 8)
      ∧ (pin { serveAt 4 0x21 (zeros 8) with pins := [(0, { raw := true, out := true })] } 0).asserted = true
      ∧ AskedB 4 0x22 1 (bytesOf 8 [(0, [67#8])]) ∧ (phys ready 67).logical = none ∧ denied ready 3 0x20 1 = true
      ∧ AskedB 0 0x80 0 (zeros 8) ∧ AskedB 0 0x81 0 (leBytes 8 1) ∧ (opSession 0x81 []).sub.isSome = true := by
  refine ⟨?_, ?_, ?_, ?_, ?_, ?_, ?_, ?_, ?_, ?_, ?_, ?_, ?_, ?_, ?_⟩ <;> decide +kernel
theorem test_report_request_premises :
    let b (n : Nat) := bytesOf 40 [(32, leBytes 4 n)]
    AskedB 0 0x12 0 (b 0) ∧ AskedB 0 0x12 0 (b 1) ∧ (b 1).length = 40 ∧ allZero (sliceB (b 1) 36 4) = true ∧ fieldAt (b 1) 32 4 = 1
      ∧ canReport (serveAt 0 0x12 (b 1)) = true ∧ (opSession 0x12 []).report = none ∧ sliceB (b 1) 0 32 = zeros 32 ∧ 1 < [1#8, 2#8].length := by decide +kernel
theorem test_partition_premises :
    let b := bytesOf 16 [(0, leBytes 8 (2 + 2 ^ 48 * 287)), (8, leBytes 4 1)]
    let z := bytesOf 16 [(0, leBytes 8 (2 + 16 * 15)), (8, leBytes 4 1)]
    AskedB 4 0x30 1 b ∧ b.length = 16 ∧ allZero (sliceB b 12 4) = true ∧ (deckleCmd (dkCmdOf (fieldAt b 0 8) (fieldAt b 8 4)) (serveAt 4 0x30 b)).1 = 0
      ∧ AskedB 4 0x30 1 z ∧ (deckleCmd (dkCmdOf (fieldAt z 0 8) (fieldAt z 8 4)) (serveAt 4 0x30 z)).1 ≠ 0 := by decide +kernel
theorem test_owner_premises :
    let none_ (cmd : Nat) (b : List Byte) : State := { serveAt 8 cmd b with deckles := [] }
    let b (k : Nat) := bytesOf 8 [(0, leBytes 1 k)]
    AskedB 8 0x40 2 (b 3) ∧ lcAllowed (none_ 0x40 (b 3)) 3 = true ∧ lcAllowed (serveAt 8 0x40 (b 3)) 3 = false ∧ AskedB 4 0x41 1 (b 0)
      ∧ anyDeckle (none_ 0x41 (b 0)) = false ∧ ready.fuses.lc = 2 ∧ AskedB 8 0x41 2 (b 1) ∧ ready.fuses.sealOnly = false ∧ AskedB 8 0x41 2 (b 2)
      ∧ AskedB 8 0x42 2 (b 7) ∧ ready.fuses.arb < 7 ∧ (7 : Nat) ≤ 7 ∧ AskedB 8 0x42 2 (b 0) ∧ AskedB 8 0x42 2 (b 8) := by decide +kernel
theorem test_image_premises :
    let b := leBytes 4 33488896 ++ zeros 4
    let w := zeros 1032
    AskedB 4 0x50 1 b ∧ b.length = 8 ∧ fieldAt b 0 4 % 4096 = 0 ∧ fieldAt b 0 4 ≤ 33488896 ∧ stagingTaken (serveAt 4 0x50 b) 4 = false
      ∧ fget (serveAt 4 0x50 b) .secSts 10 10 = 0 ∧ AskedB 4 0x51 1 w ∧ w.length = 1032 ∧ AskedB 4 0x51 1 (zeros 9)
      ∧ stagingTaken { serveAt 4 0x51 w with mgt.staging := { state := .opn, holder := 4, size := 1024 } } 4 = false
      ∧ AskedB 4 0x52 1 [] ∧ parseImage [] true = none := by decide +kernel

/-- The SHA-256 digest of no bytes (FIPS 180-4). -/
def emptyDigest : List Byte := beBytes 32 0xe3b0c44298fc1c149afbf4c8996fb92427ae41e4649b934ca495991b7852b855
theorem test_sha256_empty : sha256 [] = emptyDigest := by decide +kernel
/-- The first 448 bytes of an image of 20,480 bytes whose four sections are empty. -/
def imageHead : List Byte :=
  leBytes 4 0x324D4951 ++ leBytes 2 2 ++ leBytes 2 4 ++ leBytes 8 1 ++ leBytes 4 20480 ++ leBytes 2 0x7600 ++ [0xB0#8] ++ zeros 233
    ++ (List.range 4).flatMap (fun i => leBytes 1 (i + 1) ++ leBytes 1 (if i < 2 then 1 else 0) ++ leBytes 2 0 ++ leBytes 4 512 ++ zeros 8 ++ emptyDigest)
/-- The header staged; the rest of the bank is erased. -/
def stagedHead : Tab Byte := tputs 0xFF#8 [] 0 imageHead
theorem slice_slice {α : Type} (d : α) (t : Tab α) (n o k : Nat) (h : o + k ≤ n) : ((tslice d t 0 n).drop o).take k = tslice d t o k := by
  rw [Laws.tslice_drop, Laws.tslice_take _ _ _ _ _ (by omega), Nat.zero_add]
theorem sliceB_slice (t : Tab Byte) (n o k : Nat) (h : o + k ≤ n) : sliceB (tslice 0xFF#8 t 0 n) o k = tslice 0xFF#8 t o k := by
  simp only [sliceB, slice_slice _ _ _ _ _ h, Laws.tslice_length, Nat.sub_self, zeros, List.replicate, List.append_nil]
theorem staged_section (i : Nat) (h : i < 4) : sectionOf (tslice 0xFF#8 stagedHead 0 20480) i = some (i + 1, 512, 0, emptyDigest) := by
  unfold sectionOf
  rw [sliceB_slice _ _ _ _ (by omega)]
  rcases (by omega : i = 0 ∨ i = 1 ∨ i = 2 ∨ i = 3) with rfl | rfl | rfl | rfl
  all_goals
    simp only [Laws.tslice_length]
    decide +kernel
/-- A sound image can be staged. -/
theorem test_image_commit_premises :
    ∃ im, (parseImage stagedHead true).filter (imageValid { serveAt 4 0x52 [] with fuses := { factoryFuses with vkeys := [sha256 (zeros 48)] } }) = some im := by
  have hr : (List.range 4).filterMap (sectionOf (tslice 0xFF#8 stagedHead 0 20480)) = (List.range 4).map (fun i => (i + 1, 512, 0, emptyDigest)) := by
    simp only [show List.range 4 = [0, 1, 2, 3] from rfl, List.filterMap, staged_section 0 (by decide), staged_section 1 (by decide),
      staged_section 2 (by decide), staged_section 3 (by decide), List.map]
  have hn : fieldAt (tslice 0xFF#8 stagedHead 0 448) 16 4 = 20480 := by decide +kernel
  refine Option.isSome_iff_exists.mp ?_
  unfold parseImage
  simp only [hn, hr]
  decide +kernel

/-- A wrapped link key of zeros and a wrapped credential. That the blocks unwrap was found with an independent AES key wrap: the kernel does
not run 54 AES blocks. -/
theorem test_key_request_premises :
    let wl : List Byte := beBytes 80 0xe9a2c59fdf60daa567dd9f27b90298f1688d2b89c775216cf18963c9be875916de0b3cd342583d63367c2c1138b40759c8091515a0a348f570e831684770f0922913563a1e42e78994043f7085a9ca8f
    let wc : List Byte := beBytes 40 0x782a8d29002f11156f752db26470c3156dd28b23e563957b32fc92e19a69c758ae8e3abe04883865
    let l := [3#8, 1#8, 1#8] ++ zeros 5 ++ wl
    let c := [2#8, 3#8] ++ zeros 6 ++ wc
    AskedB 4 0x60 1 l ∧ l.length = 88 ∧ ready.izk.qps = [] ∧ (port ready 3).txq = []
      ∧ AskedB 8 0x70 2 c ∧ c.length = 48
      ∧ AskedB 8 0x71 2 ([1#8, 3#8] ++ zeros 6) := by decide +kernel

/-- A Pliac message with its MAC, as a datagram to the port. -/
def pliacTo (cmd seq mac : Nat) (body : List Byte) : Datagram :=
  let b := leBytes 4 0x31434C50 ++ leBytes 1 2 ++ leBytes 1 0 ++ leBytes 2 cmd ++ [2#8, 0#8, 0#8, 0#8] ++ leBytes 4 body.length ++ zeros 8 ++ leBytes 8 seq ++ zeros 8 ++ body
  { srcMac := 1, srcIp := 2, srcPort := 3, dstMac := rget ready .gctMgtMac, dstIp := linkLocal ready, dstPort := 4660, payload := b ++ beBytes 32 mac }
/-- The agent with the credential of owner 0, and with its session. -/
def ownerAt (x : PSession) : State :=
  { serveAt 8 0 [] with banks := [(0, { creds := some { count := 1, slots := [(8, zeros 32)] } })], mgt := { link := true, sessions := [(8, x)] } }
theorem test_datagram_premises :
    let g := pliacTo 1 0 0x56d54bedc89f85a02d8ace9ec0dda73cac858b8ffa4912909252f22b8437f61d (bytesOf 32 [(0, [1#8])])
    let h := pliacTo 0x10 5 0x2f644dc96d81f7609c7dfc5c25c865f18b300bfbcdfbba769e6faa69382895f3 []
    let s := ownerAt { opSession 0 [] with exec := none, cached := [1#8], seq := 5 }
    portUp s = true ∧ mgtServing s = true ∧ frameTaken s g.dstMac g.plain = true ∧ mgtIp s g.dstIp = true ∧ g.dstPort = fget s .gctMgtCfg 15 0 ∧ g.payload.length = 72 + fieldAt g.payload 12 4
      ∧ fieldAt g.payload 0 4 = 0x31434C50 ∧ fieldAt g.payload 5 1 = 0 ∧ slotOfHeader (fieldAt g.payload 8 1) (fieldAt g.payload 9 1) = 8
      ∧ credKey s 8 = some (zeros 32) ∧ credKey (serveAt 8 0 []) 8 = none ∧ fieldAt g.payload 6 2 = 1
      ∧ hmac (zeros 32) (g.payload.take 72) = g.payload.drop 72 ∧ tfind s.mgt.hellos 8 = none ∧ fieldAt h.payload 6 2 ≠ 1
      ∧ sliceB h.payload 0x10 8 = zeros 8 ∧ fieldAt h.payload 0x18 8 = 5 ∧ knownCmd 2 0x10 = true ∧ allZero (sliceB h.payload 0x20 8) = true
      ∧ hmac (zeros 32) (h.payload.take 40) = h.payload.drop 40 ∧ hmac (List.replicate 32 1#8) (h.payload.take 40) ≠ h.payload.drop 40 := by decide +kernel
theorem test_hello_premises :
    let r : PReq := { srcMac := 1, srcIp := 2, srcPort := 3, ver := 1, cmd := 1, seq := 0, body := bytesOf 32 [(0, [3#8])] }
    let s : State := { ownerAt (opSession 0 []) with
      mgt := { link := true, hellos := [(8, r)] }, rng := { started := true, drbgs := [(2, { ready := true, queue := [{ who := .agent 2 8, use := .hello 8 }] })] } }
    tfind s.mgt.hellos 8 = some r ∧ mgtServing s = true ∧ (drbg { s with rng := {} } 2).queue = [] ∧ s.fuses.lc ≠ 3 ∧ r.body.length = 32
      ∧ allZero (sliceB r.body 1 15) = true ∧ fieldAt r.body 0 1 % 4 ≠ 0 ∧ s.rng.failed = false ∧ fieldAt (zeros 32) 0 1 % 4 = 0
      ∧ credKey s 8 = some (zeros 32) ∧ canDeliver (drbg s 2) = true ∧ reseedDue (drbg s 2) = false ∧ (drbg s 2).count + 1 < 2 ^ 32
      ∧ domainRuns s 2 = true ∧ agentRuns s = true
      ∧ (drbg s 2).queue = [{ who := .agent 2 8, use := .hello 8 }] := by decide +kernel
theorem test_port_premises :
    let s : State := { serveAt 0 0x80 [] with mgt := { link := true, sessions := [(0, { opSession 0x80 [] with sub := some { mask := 1, buffer := [zeros 32] } })] } }
    ((tfind s.mgt.sessions 0).bind (·.sub)).map (·.buffer) = some [zeros 32] ∧ mgtServing s = true ∧ portUp s = true ∧ mgtIp s (linkLocal s) = true
      ∧ mgtIp s 0 = true ∧ mgtIp s 1 = false ∧ frameTaken s 0x333300000001 true = true ∧ frameTaken s 0x333300000002 true = false ∧ agentRuns s = true ∧ s.power.rails = true ∧ s.boot.mgmtEn = true ∧ s.boot.fusesRead = true ∧ s.sealed = false
      ∧ State.reset.boot.fusesRead = false ∧ { s with mgt.staging := { state := .erasing } }.mgt.staging.state = .erasing := by decide +kernel

/-! ### Premises of the Izkai statements -/

/-- A port that frames with EtherType 0x88B5 and offers both versions. -/
def portCfg : Nat := 12 + 2 ^ 8 * 3 + 2 ^ 16 * 1 + 2 ^ 32 * 0x88B5
/-- `ready` with port 3 and queue pair 8191 of deckle 0 on it. -/
def izkAt (x : Port) (q : Qp) : State :=
  { rset ready .izkPortCfg (portCfg + 1) 3 with izk := { ports := [(3, x)], qps := [(8191, { q with ctx := { q.ctx with port := 3 } })] } }

theorem test_izk_port_premises :
    let s := rset ready .izkPortCfg portCfg 3
    let up := izkAt { state := .up, vsel := 2, paused := 2, inbox := [{ size := 2 ^ 23 - 2 ^ 20 + 1 }] } { state := .rtr, gen := 2047 }
    let tr := izkAt { state := .training, excluded := 0x0F, holding := true } {}
    let ng := izkAt { state := .negotiate, inbox := [{ op := 0x20, msn := 12 }] } {}
    reaches s 0 .izkPortCfg 3 0 = true ∧ (port s 3).state = .disabled ∧ portAcceptable (written s 0 .izkPortCfg 3 (BitVec.ofNat 64 (portCfg + 1))) 3 = true
      ∧ portAcceptable (written ready 0 .izkPortCfg 3 1) 3 = false ∧ (port ready 3).state = .disabled ∧ reaches up 0 .izkPortCfg 3 0 = true ∧ (port up 3).state = .up
      ∧ 8191 ∈ qpsOfPort up 3 ∧ receives (qpOf up 8191) = true ∧ widthOf (fget tr .izkPortCfg 5 4 3) (andNot 0xFF (port tr 3).excluded) = some (1, 0xF0)
      ∧ maxWidth tr 3 = fget tr .izkPortCfg 5 4 3 ∧ refUp tr 2 = true ∧ refUp { tr with clk.lost := [2] } 2 = false ∧ (port tr 3).holding = true ∧ lsec ng 3 = false ∧ (port ng 3).paused.testBit (prioOf ng 3 false) = false ∧ (port ng 3).helloSeen = none
      ∧ ((port ng 3).inbox.head?).map (·.op) = some 0x20 ∧ bits 12 3 2 &&& offers ng 3 ≠ 0 ∧ bits 0 3 2 &&& offers ng 3 = 0 ∧ (port ng 3).txq = []
      ∧ (∀ q ∈ ng.izk.qps, q.2.started = [] ∧ q.2.reads = []) ∧ (port up 3).paused.testBit 1 = true ∧ (port up 3).stormed.testBit 1 = false
      ∧ 2 ^ 23 < inboxBytes up 3 + 2 ^ 20 ∧ inboxBytes (izkAt { state := .up, xoff := true } {}) 3 + 2 ^ 21 < 2 ^ 23 := by decide +kernel
/-- A context block of one path on port 3, with its completion queue. -/
theorem test_qp_create_premises :
    let b := bytesOf 256 [(0, [3#8, 1#8, 12#8]), (8, leBytes 8 0x10000), (16, [4#8]), (32, leBytes 8 0x20000), (48, leBytes 4 4096)]
    let s0 := rset (rset ready .izkDkArg 0x40000 0 0) .izkPortCfg portCfg 3
    let s : State := { s0 with dram.data := tputs 0#8 s0.dram.data (2097152 + 0x40000) b, izk := { cqs := [(0, { deckle := 0, base := 0, log := 4, head := 0, ctr := 0, irqen := false, vector := 0 })] } }
    let w (x : State) := regEffect x 0 .izkDkCmd 0 0 (2 ^ (regRow .izkDkCmd).width - 1) ((1 + 2 ^ 31) % 2 ^ 32)
    (∃ v : Word, IzkCommand s 0 0 1 v (w s)) ∧ (qpOf s 0).state = .free ∧ (readCtx (w s) 0 (izkArg (w s) 0 0)).2 = .inl (qpCtxOf b) := by
  refine ⟨⟨BitVec.ofNat 64 (1 + 2 ^ 31), ?_⟩, ?_, ?_⟩ <;> decide +kernel
/-- A deckle command register write of each operation is a command. -/
theorem test_izk_command_premises :
    ∀ op ∈ [2, 3, 4, 5, 6, 7], IzkCommand ready 0 0 op (BitVec.ofNat 64 (op + 2 ^ 31))
      (regEffect ready 0 .izkDkCmd 0 0 (2 ^ (regRow .izkDkCmd).width - 1) ((BitVec.ofNat 64 (op + 2 ^ 31)).toNat % 2 ^ 32)) := by decide +kernel
theorem test_qp_modify_premises :
    let n := 8191 + 8192 * 2047
    let at_ (st : QpSt) (fl : Bool) : State := rset (izkAt { state := .up, vsel := 2 } { state := st, gen := 2047, flushed := fl }) .izkDkArg n 0 0
    let big : State := { ready with izk := { cqs := [(8191, { deckle := 0, base := 0, log := 4, head := 0, ctr := 0, irqen := false, vector := 0 })], qps := [(0, { state := .rts, ctx := { scq := 8191 } })] } }
    (∀ st ∈ [QpSt.init, .rtr, .rts, .reset], ownsQpn (at_ st false) 0 n = true ∧ rget (at_ st false) .izkDkArg 0 0 = n) ∧ ownsQpn (at_ .error true) 0 n = true
      ∧ ownsQpn ready 0 n = false ∧ (port (at_ .init false) (qpOf (at_ .init false) 8191).ctx.port).state = .up
      ∧ (port (at_ .init false) 3).vsel = 2 ∧ (tfind big.izk.cqs 8191).map (·.deckle) = some 0 ∧ (∃ q ∈ big.izk.qps, receives q.2 = true ∧ q.2.ctx.scq = 8191)
      ∧ tfree ready.izk.cqs 1 = some 0 ∧ dkCheck ready 0 .izkai true 0x10000 (32 * 2 ^ 4) = 0 ∧ dkCheck ready 0 .izkai false 0x20000 4 = 0
      ∧ dkCheck ready 0 .izkai true (2 ^ 39) (32 * 2 ^ 4) ≠ 0 := by decide +kernel
theorem test_mr_premises :
    let k := 65535 + 2 ^ 16 * 255 + 2 ^ 24 * 254
    let s : State := { rset ready .izkDkArg k 0 0 with izk := { mrs := [(65535, { deckle := 0, base := 0, len := 64, rights := 7, gen := 255, rand := 254, ready := true })], drains := [(0, 65535)] } }
    let u : State := { s with izk.qps := [(0, { state := .rts, reads := [⟨0, 65535, []⟩] })] }
    rget s .izkDkArg 0 0 = k ∧ k < 2 ^ 32 ∧ (mrOf s 65535).live = true ∧ (mrOf s 65535).ready = true ∧ bits k 23 16 = (mrOf s 65535).gen ∧ bits k 31 24 = (mrOf s 65535).rand
      ∧ mrUsed s 65535 = false ∧ mrUsed u 65535 = true ∧ tfind s.izk.drains 0 = some 65535 ∧ (mrOf ready 0).live = false ∧ ready.rng.failed = false
      ∧ fget (rset ready .izkDkRes 256 0) .izkDkRes 8 8 0 = 1 ∧ fget ready .izkDkRes 8 8 0 = 0 := by decide +kernel

/-- A frame of port 3 around a body. -/
def frameWith (body : List Byte) : List Byte :=
  let g := zeros 12 ++ beBytes 2 0x8100 ++ beBytes 2 0 ++ beBytes 2 0x88B5 ++ body
  g ++ leBytes 4 (crcEth g)
theorem test_frame_premises :
    let s := izkAt { state := .up, vsel := 2 } { state := .rts }
    let b := izkHeader { op := 0x10, dqpn := 8191 }
    let z := rset s .izkPortCfg (portCfg + 1 + 2 ^ 6) 3
    outerBody s 3 [] = none ∧ outerBody s 3 (frameWith b) = some b ∧ lsec s 3 = false ∧ b.length = 48 ∧ izkHeaderOk 2 b (parseHeader b) = true
      ∧ outerBody s 3 (frameWith (zeros 48)) = some (zeros 48) ∧ izkHeaderOk 2 (zeros 48) (parseHeader (zeros 48)) = false
      ∧ outerBody s 3 (frameWith (zeros 47)) = some (zeros 47) ∧ namesQp s 3 (parseHeader b).dqpn = true ∧ namesQp s 3 0 = false
      ∧ hasPsn (parseHeader b).op = false ∧ (parseHeader b).path < (qpOf s 8191).ctx.npaths ∧ (parseHeader b).flags.testBit 1 = false ∧ (parseHeader b).op ≠ 0x20
      ∧ keysGone s (qpOf s 8191).deckle = false ∧ s.sealed = false
      ∧ outerBody z 3 (frameWith (zeros 80)) = some (zeros 80) ∧ lsec z 3 = true ∧ tfind (port z 3).keys 0 = none := by decide +kernel

/-- A packet at the head of port 3 for queue pair 8191, which expects PSN 5 and has been granted one packet. -/
def arriveAt (x : Pkt) (q : Qp) : State :=
  let s := izkAt { state := .up, vsel := 2, inbox := [{ x with dqpn := 8191 }] }
    { q with state := .rts, granted := 1, paths := [(0, { expect := 5, unacked := [{ psn := 4 }], sinceAck := 1 })] }
  { s with izk.mrs := [(7, { deckle := 0, base := 0, len := 0x30000, rights := 7, gen := 0, rand := 0, ready := true })] }
/-- That state without the packet. -/
def goneAt (x : Pkt) (q : Qp) : State := let s := arriveAt x q; setPort s 3 { port s 3 with inbox := [] }
/-- `Arrives` and `InOrder` there, and what each data operation asks. -/
abbrev ArrivesB (x : Pkt) (q : Qp) : Prop :=
  let s := arriveAt x q
  (port s 3).inbox = [{ x with dqpn := 8191 }] ∧ namesQp s 3 8191 = true ∧ s.izk.cqs = [] ∧ (deckle s (qpOf s 8191).deckle).phase = .active
    ∧ subMod (2 ^ 24) x.psn ((qpOf s 8191).path x.path).expect = 0 ∧ 1 ≤ subMod (2 ^ 24) (qpOf s 8191).granted (qpOf s 8191).got
    ∧ (qpOf s 8191).msgs = [] ∧ (qpOf s 8191).recvDone = [] ∧ x.msn = (qpOf s 8191).rxMsn
    ∧ (qpsOfPort s 3).foldl (fun n j => n + (qpOf s j).msgs.length) 0 < 16384
theorem test_write_premises :
    let x : Pkt := { op := 1, psn := 5, flags := 1, rkey := 7, va := 0x10000, mlen := 8, payload := zeros 8 }
    let y : Pkt := { x with op := 2, rsn := 3 }
    let q : Qp := { ctx := { rqLog := 4 }, rqCi := 3, rqPi := 4 }
    ArrivesB x {} ∧ keyAdmits (goneAt x {}) 0 7 (some 2) 0x10000 8 = true ∧ (dkWrite (goneAt x {}) 0 .izkai 0x10000 (zeros 8)).2 = none
      ∧ keyAdmits (goneAt x {}) 0 8 (some 2) 0x10000 8 = false ∧ ArrivesB { x with rkey := 8 } {} ∧ ArrivesB y q ∧ posted (qpOf (arriveAt y q) 8191) 3 = true
      ∧ ArrivesB y {} ∧ posted (qpOf (arriveAt y {}) 8191) 3 = false ∧ subMod (2 ^ 24) 6 5 ≠ 0 ∧ subMod (2 ^ 24) 6 5 < 2 ^ 23 := by decide +kernel
theorem test_send_packet_premises :
    let x : Pkt := { op := 3, psn := 5, flags := 1, rsn := 3, mlen := 8, payload := zeros 8 }
    let q : Qp := { ctx := { rqLog := 4, rq := 0x8000 }, rqCi := 3, rqPi := 4 }
    let e := bytesOf 32 [(8, leBytes 8 0x10000), (16, leBytes 4 7), (20, leBytes 4 8)]
    let s0 := goneAt x q
    let s : State := { s0 with dram.data := tputs 0#8 s0.dram.data (2097152 + 0x8000 + 96) e }
    let s1 := (rqEntry s 8191 3).1
    ArrivesB x q ∧ (rqEntry s 8191 3).2 = .ok e ∧ 8 ≤ fieldAt e 20 4 ∧ keyAdmits s1 0 (fieldAt e 16 4) (some 0) (fieldAt e 8 8) 8 = true
      ∧ (dkWrite s1 0 .izkai (fieldAt e 8 8) (zeros 8)).2 = none ∧ (rqEntry s0 8191 3).2 = .ok (zeros 32) ∧ fieldAt (zeros 32) 20 4 < 8
      ∧ posted (qpOf s 8191) 3 = true := by decide +kernel
theorem test_read_packet_premises :
    let x : Pkt := { op := 4, psn := 5, rkey := 7, va := 0x10000, mlen := 8 }
    let e := bytesOf 64 [(0, [4#8]), (16, leBytes 8 0x10000), (28, leBytes 4 16)]
    let y : Pkt := { op := 5, psn := 5, payload := zeros 8 }
    let q : Qp := { started := [{ index := 0, entry := e, msn := 0, mr := 7 }] }
    ArrivesB x {} ∧ keyAdmits (goneAt x {}) 0 7 (some 1) 0x10000 8 = true ∧ keyAdmits (goneAt x {}) 0 8 (some 1) 0x10000 8 = false
      ∧ (dkRead (goneAt x {}) 0 .izkai 0x10000 8).2 = .ok (zeros 8) ∧ ArrivesB y q
      ∧ ((qpOf (arriveAt y q) 8191).started.head?).map (·.msn) = some 0 ∧ fieldAt e 0 1 = 4 ∧ 0 + 8 < fieldAt e 28 4
      ∧ (dkWrite (goneAt y q) 0 .izkai (fieldAt e 16 8 + 0) (zeros 8)).2 = none := by decide +kernel
theorem test_control_packet_premises :
    (∀ op ∈ [0x10, 0x11, 0x12, 0x13, 0x14], ArrivesB { op := op, psn := 5, rkey := 0x10 } {})
      ∧ (let s := arriveAt { op := 0x13, psn := 5 } { got := 2 }
         (outstanding s 3).2 + max 16 (fget s .izkPortGrant 15 0 3) < (outstanding s 3).1 + 16)
      ∧ 1 ≤ subMod (2 ^ 24) 1 (2 ^ 24 - 1) ∧ subMod (2 ^ 24) 1 (2 ^ 24 - 1) < 2 ^ 23 := by decide +kernel
theorem test_izk_timer_premises :
    let s := arriveAt {} { started := [{ index := 0, entry := [], msn := 0, mr := 7, unsent := [{ op := 1 }] }], msgs := [⟨9, 1, 7, 0, 8, 0, none, 0, false⟩] }
    let q := qpOf s 8191
    timersRun s 8191 = true ∧ (q.path 0).sinceAck ≠ 0 ∧ (q.path 0).rnrWait = false ∧ (q.path 0).unacked = [{ psn := 4 }]
      ∧ (q.path 0).retries + 1 < max 1 (fget s .izkPortTmr 13 10 3) ∧ max 1 (fget (rset s .izkPortTmr 64 3) .izkPortTmr 13 10 3) ≤ (q.path 0).retries + 1
      ∧ hasCredit q = false ∧ (nextTx q).map (·.op) = some 1 ∧ hasCredit { q with limit := 1 } = true ∧ (∃ m ∈ q.msgs, m.whole = false) := by decide +kernel
/-- Queue pair 8191 with a send entry, one that waits for a counter, and its doorbell. -/
theorem test_send_entry_premises :
    let e := bytesOf 64 [(0, [1#8]), (16, leBytes 8 0x10000), (24, leBytes 4 7), (28, leBytes 4 8)]
    let g := bytesOf 64 [(0, [15#8, 4#8]), (48, leBytes 8 0x20000), (56, leBytes 8 1)]
    let at_ (e : List Byte) (v : Nat) : State :=
      let s0 := arriveAt {} { sqPi := 1, ctx := { sq := 0x8000, db := 0x9000 } }
      { s0 with dram.data := tputs 0#8 (tputs 0#8 (tputs 0#8 s0.dram.data (2097152 + 0x8000) e) (2097152 + 0x9000) (leBytes 4 17)) (2097152 + 0x20000) (leBytes 8 v) }
    (headEntry (at_ e 0) 8191).2 = some (0, .ok e) ∧ fieldAt e 0 1 = 1 ∧ keyAdmits (headEntry (at_ e 0) 8191).1 0 7 none 0x10000 8 = true
      ∧ (dkRead (headEntry (at_ e 0) 8191).1 0 .izkai 0x10000 8).2 = .ok (zeros 8) ∧ (headEntry (at_ g 0) 8191).2 = some (0, .ok g)
      ∧ (fieldAt g 1 1).testBit 2 = true ∧ (dkRead (headEntry (at_ g 0) 8191).1 0 .izkai 0x20000 8).2 = .ok (leBytes 8 0) ∧ leNat (leBytes 8 0) < 1
      ∧ (dkRead (headEntry (at_ g 1) 8191).1 0 .izkai 0x20000 8).2 = .ok (leBytes 8 1) ∧ (wordRead (at_ e 0) 0 0x9000 4).2 = some 17
      ∧ 2 ^ 4 < subMod (2 ^ 32) 17 0 ∧ (qpOf (at_ e 0) 8191).ctx.sqLog = 4 := by decide +kernel

/-! ### Well-formedness -/

/-- Each check refuses an operand that its table does not have. -/
theorem test_wf_refuses_indexes :
    ∀ i ∈ [Instr.flr 17, .getTdispVersion 0 0, .eventDelivery 17, .fenceEnd 64 0, .windowExpiry 68, .fenceEnd 0 8, .pass 0 32 {},
        .orderingOperationStart 0 0 0 3, .pipeStart 0 4 {}, .prefetchRequest 0 16, .interruptTimer 256, .drainClose 16, .xoff 4, .pfcStorm 0 8,
        .creditTimeout 8192, .ackTimer 0 8, .msgTmoExpiry 0 4294967296, .filterOutputChange 6, .pinHeld 3, .bye 13, .heartbeat 4, .ideFail 17,
        .kSetGo 0 0 2, .patrolScrubRead 24 [], .zeroRequestEnd 8, .swapEnd 4096, .sessionReleased 64, .modelLoaded 0 16 .ok, .generate 4,
        .sample 16 0, .primaryUnlock 12, .refLost 4, .cdcPtrMismatch 8 0 0, .jtagLifeCycleRequest 5 {}, .idleWindow 37,
        .orderingOperationStart 0 0 32 0], i.wf = false := by decide +kernel
theorem test_wf_refuses_shapes :
    ∀ i ∈ [Instr.controllerRequest 0x4800000000 .read, .controllerRequest 0xFC00000000 .read, .zeroFill 0x480000, .registerWrite 0 2 9 0,
        .registerWrite 0 0 0 0, .latchingRead 0 0x4000000, .bar2Read 0 0 0, .bar2Write 0 0x1000000000 [0#8], .kSha 0 0 { ext := 1 }, .retirement [1, 1],
        .retirement [68], .perstNRelease { untrained := [24] }, .perstNRelease { tableMax := 37 }, .create (.function 17) 0 0,
        .pass 0 0 { stores := [⟨.spad, 0, 0, false⟩] }, .pass 0 0 { stores := [⟨.spad, 0, 73, false⟩] }, .pass 0 0 { stores := [⟨.vreg 8 0, 0, 1, false⟩] },
        .pass 0 0 { stores := [⟨.vat 32 0 0, 0, 1, false⟩] }, .pass 0 0 { stores := [⟨.header 0 0 3, 0, 1, false⟩] }, .pass 0 0 { first := [(2, 0, 0, 0)] },
        .pass 0 0 { again := [(0, 16, 0, 0)] }, .pipeStart 0 0 { first := [(1024, 0)] }, .controllerRequest 0 (.writeWhole [0#8]),
        .controllerRequest 0 (.writePart 128 [0#8]), .configurationRequest 0 (.msixMask 32 true), .keyProg 0 0 0 [], .sensorRead ⟨[], []⟩, .sensorRead ⟨List.replicate 136 0, [(65536, 0)]⟩, .sensorRead ⟨List.replicate 136 4096, List.replicate 8 (0, 0)⟩,
        .pfcFrame 0 0 [], .neighborSolicitation ⟨2 ^ 48, 0, true⟩ 0 0, .echoRequest ⟨0, 2 ^ 48, true⟩ 0 0 [], .datagramReceive ⟨0, 2 ^ 48, true, 0, 0, 0, 0, []⟩,
        .datagramReceive ⟨0, 0, true, 0, 65536, 0, 0, []⟩,
        .tapAccess (.writeInjection 0x4000000 0), .fatalClear 0 9 0,
        .configurationRequest 0 (.readBar false 6), .perstNRelease { requests := [17] }, .patrolScrubRead 0 [⟨.slice 17 0, 0, 1⟩],
        .patrolScrubRead 0 [⟨.check 7 0, 0, 1⟩], .patrolScrubRead 0 [⟨.handler (.spareMap 68), 0, 1⟩], .patrolScrubRead 0 [⟨.flit 0, 0, 73⟩],
        .pass 0 0 { paths := [⟨.calender 32 0 0, false, 0, 0⟩] }, .pipeStart 0 0 { paths := [⟨.calender 0 0 3, false, 0, 0⟩] },
        .pass 0 0 { stores := [⟨.pred 0 8, 0, 1, false⟩] }], i.wf = false := by decide +kernel
/-- Operands at the ends of their ranges are well formed. -/
theorem test_wf_accepts :
    ∀ i ∈ [Instr.flr 16, .stopInterfaceRequest 3 16, .xEnd 63 7 { long := true, ext := 1 }, .windowExpiry 67, .pass 63 31 { first := [(1, 15, 15, 31)] },
        .pipeStart 63 3 { first := [(1023, 0)] }, .interruptTimer 255, .drainClose 15, .msgTmoExpiry 8191 4294967295, .controllerRequest 0xFBFFFFFFFF .read,
        .registerWrite 16 0x3FFFFFC 4 0, .bar2Read 16 0xFFFFFFFFF 1, .bye 12, .swapEnd 4095, .jtagLifeCycleRequest 4 {}], i.wf = true := by decide

/-! ### Premises of the arithmetic and whole-block statements -/

theorem test_overflow_premises :
    let t : Tile := { sheet := 31, slot := 0, shape := 0, shared := false, fmt := 0, owner := 1, elems := [2 ^ 127 - 1, -2 ^ 127, 0] }
    [1, -1, 5].length = t.elems.length ∧ (addAll t [1, -1, 5]).elems = [2 ^ 127 - 1, -2 ^ 127, 5] ∧ (addAll t [1, -1, 5]).ovfPos = true
      ∧ (addAll t [1, -1, 5]).ovfNeg = true := by decide
/-- R55: −1 has the residue 126 and 2⁷ the residue 1. -/
theorem test_residues : res127 (-1) = 126 ∧ res127 128 = 1 ∧ res127 0 = 0 ∧ res127 127 = 0 ∧ rot7 64 1 = 1 ∧ (rot7 64 1).testBit 0 = (64 : Nat).testBit 6 := by decide
theorem reset_canonical : CanonicalForm State.reset ∧ step State.reset = .next (idleCycle State.reset) := by
  refine ⟨⟨by decide +kernel, by decide +kernel, by decide +kernel⟩, rfl⟩
theorem reset_fuses : BlownFrom factoryFuses State.reset := by
  refine ⟨rfl, rfl, rfl, rfl, rfl, rfl, rfl, rfl, rfl, Nat.le_refl _, Nat.le_refl _, fun h => h⟩
theorem test_mode_premises : ∃ t, step { State.reset with fe := true, sealed := true, pending := [.tick] } = .next t ∧ t.fe = true ∧ ¬ ResetCommand .tick := by
  refine ⟨_, rfl, rfl, ?_⟩
  simp [ResetCommand]
/-- A command at the front of the queue runs, and no other. -/
theorem test_front : ∃ t, step { State.reset with pending := [.managementLinkChange true, .tick] } = .next t ∧ t.pending = [.tick] := ⟨_, rfl, rfl⟩
/-- The table's rows give no bits. -/
theorem test_no_words : decodeTableWord 0 0 = none ∧ State.reset.withFetchWord 0 0 = State.reset := ⟨rfl, rfl⟩

/-! ### Premises of the completion statements -/

/-- A device that boots: held by PERST_N, and ready with PERST_N released. -/
theorem test_boot_complete_premises :
    let boots (s : State) : Bool := refUp s 1 && s.fuses.lc != 0 && s.fuses.lc != 4 && (validImage s (currentRecord s).2.active).isSome
      && s.ev.deferred.isEmpty && s.power.rails
    let s : State := { ready with banks := State.reset.banks }
    boots State.reset = true ∧ (pin State.reset 0).forced = false ∧ State.reset.boot.held = true
      ∧ boots s = true ∧ reaches s 0 .gctReset 0 0 = true ∧ (pin s 0).asserted = false
      ∧ s.clk.aclk + 1 ≤ 36 ∧ (let z : State := { s with clk.aclk := 5 }
         domainRuns z 0 = true ∧ z.clk.aclk < min (min 36 (fget z .clkAclk 5 0)) (fget z .clkAclk 21 16)) := by decide +kernel
/-- A transfer within the scratchpad of the issuing quire, and C.SWAP of a context that stands where it is sent. -/
theorem test_transfer_complete_premises :
    let w : IWord := { f1 := 1, low := 2 ^ 21 + 2 ^ 19 }
    let o := copyOp 0 w
    let x := leBytes 8 0x10000 ++ leBytes 8 0x20000 ++ leBytes 4 8 ++ leBytes 4 1 ++ leBytes 4 0 ++ leBytes 4 0
    let s := workAt [] [(0, x)] [] {} o w
    let s1 := (fetch s 0 0).1
    let w2 : IWord := { f1 := 1, low := 2 ^ 22 }
    let o2 := ctxOp 3 .none .none .none (maskOf 22 22)
    let z (t : CtxSt) := servAt [(7, { state := t, dir := 2 ^ 40 })] none [(1, 7)] [] o2 w2
    AloneB s o w ∧ sspOf w = 1 ∧ dspOf w = 1 ∧ descCheck w (dDesc (spadBytes s1 0 0 32)) = 0
      ∧ (match rowRead (consumeLines (advance s1 0 0 w) 0 (planCopy 0 s1 (newFlight s1 0 0 w o)).f.mem) 0 1 0x10000 8 with
        | (u, .ok b [] _) => b == spadBytes u 0 0x10000 8
        | _ => false) = true
      ∧ (∀ t ∈ [CtxSt.active, .resident], AloneB (z t) o2 w2 ∧ (ctxOf (fetch (z t) 0 0).1 7).state = t ∧ (ctxOf (z t) 7).moving = false) := by
  decide +kernel
/-- Instance 0 has the block that a C.SAMPLE of stream 0 waits for. -/
theorem test_sample_end_premises :
    let f : Flight := { newFlight ready 0 0 {} (ctxOp 2 .s .s .sw 0) with part := .sequencer, phase := .drawing 1 [], vals := [7, 0, 2] }
    let s : State := { ready with
      quires := [(0, { role := 1, flights := [f], streams := [(0, { state := .running, nextSeq := 1 })] })]
      serving := { ctxs := [(7, { state := .active, sampling := true })] }
      rng := { started := true, drbgs := [(0, { ready := true, queue := [{ who := .stream 0 0 0 }] })] } }
    canDeliver (drbg s 0) = true ∧ reseedDue (drbg s 0) = false ∧ (drbg s 0).count + 1 < 2 ^ 32 ∧ domainRuns s 2 = true
      ∧ (drbg s 0).queue = [{ who := .stream 0 0 0 }] ∧ findFlight s 0 0 0 = some f ∧ f.maj = 0x28 ∧ f.val 0 = 7
      ∧ f.phase = .drawing 1 [] ∧ (quire s 0).upsets = [] ∧ spadBad s 0 (f.val 1) (4 * f.val 2) = false := by decide +kernel
/-- An operator retires physical quire 3, which the first spare takes over. -/
theorem test_pliac_retire_premises :
    let b := bytesOf 8 [(0, [3#8])]
    let s := serveAt 4 0x22 b
    AskedB 4 0x22 1 b ∧ fieldAt b 0 1 = 3 ∧ s.retireQueue = [] ∧ (phys s 3).logical = some 3 ∧ (phys s 3).retired = false ∧ (phys s 3).fenced = false
      ∧ retireWaits s 3 = false ∧ s.fe = false ∧ s.dram.upsets = [] ∧ (usableSpares s).head? = some 4 := by decide +kernel
/-- The bits that an MR_REG waits for. -/
theorem test_mr_key_premises :
    let m : Mr := { deckle := 0, base := 0, len := 64, rights := 7, gen := 0, rand := 0 }
    let s : State := { ready with
      izk := { mrs := [(65535, m)] }
      rng := { started := true, drbgs := [(2, { ready := true, queue := [{ who := .agent 1 0, use := .mrKey 0 }] })] } }
    mrWaiting s 0 = some (65535, m) ∧ canDeliver (drbg s 2) = true ∧ reseedDue (drbg s 2) = false
      ∧ (drbg s 2).queue = [{ who := .agent 1 0, use := .mrKey 0 }] := by decide +kernel
/-- A barrier of one arrival. -/
theorem test_barrier_alone_premises :
    let w : IWord := { f1 := 1, f2 := 2, low := 3 * 2 ^ 29 + 2 ^ 20 }
    let s := workAt [(1, 0x10000), (2, 1)] [] [] {} (syncOp w 3) w
    let r := dkRead (consumeLines (advance (fetch s 0 0).1 0 0 w) 0 [(0x10000, 16)]) 0 .stream 0x10000 16
    AloneB s (syncOp w 3) w ∧ r.2 = .ok (zeros 16) ∧ fieldAt (zeros 16) 0 4 = 0
      ∧ (dkWrite r.1 0 .stream 0x10000 (zeros 8 ++ leBytes 8 1)).2 = none := by decide +kernel

end Sys2Proof.Tests
end

section
/-! PROOFS. The register access statement (R5–R7, R59, R592, R593, Table 00.4) and the reset state (R11, R560, R569). -/

namespace Sys2Proof.Proofs

open Sys2Proof.Machine Sys2Proof.Safety Sys2Proof.Laws

/-! ### Bits -/

theorem add_eq_or_of_and_eq_zero {a b : Nat} (h : a &&& b = 0) : a + b = a ||| b := by
  have ha : a < 2 ^ (a + b) := Nat.lt_of_lt_of_le Nat.lt_two_pow_self (Nat.pow_le_pow_right (by decide) (by omega))
  have hb : b < 2 ^ (a + b) := Nat.lt_of_lt_of_le Nat.lt_two_pow_self (Nat.pow_le_pow_right (by decide) (by omega))
  have hab : a + b < 2 ^ (a + b) := Nat.lt_two_pow_self
  have hbv : BitVec.ofNat (a + b) a &&& BitVec.ofNat (a + b) b = 0#(a + b) := by
    rw [← BitVec.ofNat_and, h]
  have e := congrArg BitVec.toNat (BitVec.add_eq_or_of_and_eq_zero _ _ hbv)
  simpa [BitVec.toNat_add, BitVec.toNat_or, Nat.mod_eq_of_lt, ha, hb, hab] using e

/-- Clearing bits by subtraction borrows nothing. -/
theorem andNot_eq_xor (x m : Nat) : andNot x m = x ^^^ (x &&& m) := by
  have hdis : (x &&& m) &&& (x ^^^ (x &&& m)) = 0 :=
    Nat.eq_of_testBit_eq fun i => by
      simp only [Nat.testBit_and, Nat.testBit_xor, Nat.zero_testBit]
      cases x.testBit i <;> cases m.testBit i <;> rfl
  have hall : (x &&& m) ||| (x ^^^ (x &&& m)) = x :=
    Nat.eq_of_testBit_eq fun i => by
      simp only [Nat.testBit_or, Nat.testBit_and, Nat.testBit_xor]
      cases x.testBit i <;> cases m.testBit i <;> rfl
  have hsum := add_eq_or_of_and_eq_zero hdis
  unfold andNot
  omega

@[simp] theorem testBit_andNot (x m i : Nat) : (andNot x m).testBit i = (x.testBit i && !m.testBit i) := by
  rw [andNot_eq_xor, Nat.testBit_xor, Nat.testBit_and]
  cases x.testBit i <;> cases m.testBit i <;> rfl

@[simp] theorem testBit_mul_two_pow (x n i : Nat) : (x * 2 ^ n).testBit i = (decide (n ≤ i) && x.testBit (i - n)) := by
  rw [Nat.mul_comm, Nat.testBit_two_pow_mul]

@[simp] theorem testBit_maskOf (hi lo i : Nat) : (maskOf hi lo).testBit i = decide (lo ≤ i ∧ i ≤ hi) := by
  rw [maskOf, testBit_mul_two_pow, Nat.testBit_two_pow_sub_one, ← Bool.decide_and]
  exact decide_eq_decide.2 (by omega)

@[simp] theorem testBit_accessMask (off size i : Nat) :
    (accessMask off size).testBit i = decide (8 * off ≤ i ∧ i < 8 * off + 8 * size) := by
  rw [accessMask, testBit_mul_two_pow, Nat.testBit_two_pow_sub_one, ← Bool.decide_and]
  exact decide_eq_decide.2 (by omega)

/-- Replacing the bits of `m` in `x` by those of `v`. -/
theorem testBit_replace (x m v i : Nat) :
    (andNot x m + (v &&& m)).testBit i = if m.testBit i then v.testBit i else x.testBit i := by
  have hdis : andNot x m &&& (v &&& m) = 0 :=
    Nat.eq_of_testBit_eq fun i => by cases hm : m.testBit i <;> simp [hm]
  rw [add_eq_or_of_and_eq_zero hdis]
  cases h : m.testBit i <;> simp [h]

/-! ### A write by access types (Table 00.4) -/

/-- What a write with the mask `m` brings to bit `i`. -/
def writtenBit (m v i : Nat) : Option Bool := if m.testBit i then some (v.testBit i) else none

/-- A field is written bit by bit as its access type says. -/
theorem testBit_writeFld_of_mem (lock : Bool) (m v old : Nat) (f : Fld) {i : Nat} (hi : f.lo ≤ i ∧ i ≤ f.hi) :
    (writeFld lock m v old f).testBit i = bitAfter lock f.acc (old.testBit i) (writtenBit m v i) := by
  cases hm : m.testBit i with
  | false => cases hacc : f.acc <;> cases lock <;> simp [writeFld, bitAfter, writtenBit, testBit_replace, hacc, hm]
  | true =>
    cases hacc : f.acc with
    | ro | wo => simp [writeFld, bitAfter, writtenBit, hacc, hm]
    | rw | rws => simp [writeFld, bitAfter, writtenBit, testBit_replace, hacc, hm, hi]
    | rwl => cases lock <;> simp [writeFld, bitAfter, writtenBit, testBit_replace, hacc, hm, hi]
    | w1c | ros | w1s => simp [writeFld, bitAfter, writtenBit, hacc, hm, hi]

theorem testBit_writeFld_of_not_mem (lock : Bool) (m v old : Nat) (f : Fld) {i : Nat} (hi : ¬ (f.lo ≤ i ∧ i ≤ f.hi)) :
    (writeFld lock m v old f).testBit i = old.testBit i := by
  cases hacc : f.acc <;> cases lock <;> simp [writeFld, testBit_replace, hacc, hi]

/-- Two fields share no bit. -/
def fieldsApart (f g : Fld) : Bool := decide (f.hi < g.lo ∨ g.hi < f.lo)

theorem not_mem_of_fieldsApart {f g : Fld} {i : Nat} (h : fieldsApart f g = true) (hi : f.lo ≤ i ∧ i ≤ f.hi) :
    ¬ (g.lo ≤ i ∧ i ≤ g.hi) := by
  have := of_decide_eq_true h
  omega

theorem testBit_foldl_writeFld_of_not_mem (lock : Bool) (m v : Nat) (l : List Fld) {i : Nat}
    (hl : ∀ g ∈ l, ¬ (g.lo ≤ i ∧ i ≤ g.hi)) (old : Nat) : (l.foldl (writeFld lock m v) old).testBit i = old.testBit i := by
  induction l generalizing old with
  | nil => rfl
  | cons g l ih =>
    rw [List.foldl_cons, ih (fun g' hg' => hl g' (by simp [hg'])), testBit_writeFld_of_not_mem lock m v old g (hl g (by simp))]

/-- Among fields that share no bit, each is written by its own access type alone. -/
theorem testBit_foldl_writeFld_of_mem (lock : Bool) (m v : Nat) (l : List Fld) (hl : l.Pairwise (fun f g => fieldsApart f g = true))
    {f : Fld} (hf : f ∈ l) {i : Nat} (hi : f.lo ≤ i ∧ i ≤ f.hi) (old : Nat) :
    (l.foldl (writeFld lock m v) old).testBit i = bitAfter lock f.acc (old.testBit i) (writtenBit m v i) := by
  induction l generalizing old with
  | nil => simp at hf
  | cons g l ih =>
    obtain ⟨hg, hl⟩ := List.pairwise_cons.1 hl
    rw [List.foldl_cons]
    rcases List.mem_cons.1 hf with rfl | hf
    · rw [testBit_foldl_writeFld_of_not_mem lock m v l (fun g' hg' => not_mem_of_fieldsApart (hg g' hg') hi),
        testBit_writeFld_of_mem lock m v old f hi]
    · have hout : ¬ (g.lo ≤ i ∧ i ≤ g.hi) := fun h => not_mem_of_fieldsApart (hg f hf) h hi
      rw [ih hl hf, testBit_writeFld_of_not_mem lock m v old g hout]

/-! ### The register map (R600) -/

/-- Every row of the map is the row of its register, and its fields share no bit. -/
theorem regTable_sound : ∀ x ∈ regTable, regRow x.reg = x ∧ x.fields.Pairwise (fun f g => fieldsApart f g = true) := by
  decide +kernel

theorem regAt_mem {a : Nat} {h : RegHit} (ha : regAt a = some h) :
    h.row ∈ regTable ∧ rowAt h.row a = some (h.k, h.j, h.off) := by
  obtain ⟨x, hx, hr⟩ := List.exists_of_findSome?_eq_some ha
  obtain ⟨t, ht, rfl⟩ := Option.map_eq_some_iff.1 hr
  exact ⟨hx, ht⟩

theorem regRow_of_regAt {a : Nat} {h : RegHit} (ha : regAt a = some h) : regRow h.row.reg = h.row :=
  (regTable_sound _ (regAt_mem ha).1).1

theorem fieldsApart_of_regAt {a : Nat} {h : RegHit} (ha : regAt a = some h) :
    h.row.fields.Pairwise (fun f g => fieldsApart f g = true) := (regTable_sound _ (regAt_mem ha).1).2

theorem mul_index_le (o stride n : Nat) : stride * (if stride = 0 then 0 else min (o / stride) n) ≤ o := by
  split
  · simp
  · exact Nat.le_trans (Nat.mul_le_mul_left stride (Nat.min_le_left _ _)) (Nat.mul_div_le o stride)

theorem rowAt_eq_some {x : RegRow} {a k j o : Nat} (h : rowAt x a = some (k, j, o)) :
    a = x.base + x.stride * k + x.stride2 * j + o := by
  simp only [rowAt, Option.ite_none_left_eq_some, Option.ite_none_right_eq_some, Option.some.injEq, Prod.mk.injEq] at h
  obtain ⟨hbase, -, hk, hj, ho⟩ := h
  have hk' := mul_index_le (a - x.base) x.stride (x.count - 1)
  have hj' := mul_index_le (a - x.base - x.stride * k) x.stride2 (x.count2 - 1)
  rw [hk] at hk' hj ho
  rw [hj] at hj' ho
  omega

/-- An address lies `off` bytes into the register that it resolves to. -/
theorem regAddr_add_off {a : Nat} {h : RegHit} (ha : regAt a = some h) : regAddr h.row.reg h.k h.j + h.off = a := by
  simp only [regAddr, regRow_of_regAt ha]
  exact (rowAt_eq_some (regAt_mem ha).2).symm

/-! ### REGISTER_WRITE (R5–R7, R592) -/

theorem exec_registerWrite_eq (s : State) (fn addr size : Nat) (v : Word) :
    exec (.registerWrite fn addr size v) s = .next (registerStep fn addr size v.toNat s) := rfl

theorem regEffect_of_storesOnly {r : Reg} (hr : storesOnly r = true) (s : State) (fn k j m v : Nat) :
    regEffect s fn r k j m v = storeReg s r k j (andNot m (ownBits r)) v := by
  unfold regEffect
  split
  rotate_right
  · rfl
  all_goals exact absurd hr (by decide)

/-- Only the GO bit of PRT_CMD2 and of IZK_DK_CMD answers a reserved OP. -/
theorem reservedOp_eq_self (s : State) (fn v : Nat) {a : Nat}
    (ha : ∀ h, regAt a = some h → h.off = 0 → h.row.reg ≠ .prtCmd2 ∧ h.row.reg ≠ .izkDkCmd) : reservedOp fn a v s = s := by
  unfold reservedOp hitOf
  cases hr : regAt a with
  | none => rfl
  | some h =>
    by_cases ho : h.off = 0
    · obtain ⟨hprt, hizk⟩ := ha h hr ho
      simp [hprt, hizk]
    · simp [ho]

theorem reservedOp_of_regAt_none (s : State) (fn v : Nat) {a : Nat} (ha : regAt a = none) : reservedOp fn a v s = s :=
  reservedOp_eq_self s fn v (by simp [ha])

theorem reservedOp_of_storesOnly (s : State) (fn v : Nat) {a : Nat} {h : RegHit} (ha : regAt a = some h)
    (hr : storesOnly h.row.reg = true) : reservedOp fn a v s = s := by
  refine reservedOp_eq_self s fn v fun h' ha' _ => ?_
  obtain rfl : h = h' := Option.some.inj (ha.symm.trans ha')
  constructor <;> intro e <;> exact absurd (e ▸ hr) (by decide)

theorem regAddr_prtCmd2 (k j : Nat) : regAddr .prtCmd2 k j = 0x80008 := by
  have hrow : (regRow .prtCmd2).base = 0x80008 ∧ (regRow .prtCmd2).stride = 0 ∧ (regRow .prtCmd2).stride2 = 0 := by decide +kernel
  simp [regAddr, hrow]

theorem regAddr_izkDkCmd (k j : Nat) : regAddr .izkDkCmd k j = 0x188000 + 0x100 * k := by
  have hrow : (regRow .izkDkCmd).base = 0x188000 ∧ (regRow .izkDkCmd).stride = 0x100 ∧ (regRow .izkDkCmd).stride2 = 0 := by
    decide +kernel
  simp [regAddr, hrow]

/-- Both those registers lie at multiples of 8, so the upper half of an 8-byte write starts neither. -/
theorem reservedOp_upper_half (s : State) (fn v : Nat) {a : Nat} (ha : a % 8 = 4) : reservedOp fn a v s = s := by
  refine reservedOp_eq_self s fn v fun h hr ho => ?_
  have haddr := regAddr_add_off hr
  constructor <;> intro e
  · rw [e, regAddr_prtCmd2] at haddr
    omega
  · rw [e, regAddr_izkDkCmd] at haddr
    omega

theorem registerStep_of_not_access (s : State) (fn addr size v : Nat)
    (hacc : ¬ ((size = 4 ∧ addr % 4 = 0) ∨ (size = 8 ∧ addr % 8 = 0))) : registerStep fn addr size v s = s := by
  rw [not_or] at hacc
  simp [registerStep, regWrite, aligned, hacc.1, hacc.2]

/-- A 4-byte write at a reserved address, or to a register that the function does not reach. -/
theorem registerStep_of_unreached (s : State) (fn v : Nat) {addr : Nat} (h4 : addr % 4 = 0)
    (haddr : ∀ h, regAt addr = some h → storesOnly h.row.reg = true ∧ reaches s fn h.row.reg h.k h.j = false) :
    registerStep fn addr 4 v s = s := by
  cases ha : regAt addr with
  | none => simp [registerStep, regWrite, regWriteOne, aligned, h4, hitOf, ha, reservedOp_of_regAt_none _ fn _ ha]
  | some h =>
    obtain ⟨hr, hreach⟩ := haddr h ha
    simp [registerStep, regWrite, regWriteOne, aligned, h4, hitOf, ha, hreach, reservedOp_of_storesOnly _ fn _ ha hr]

/-- A write of a width that the register takes stores the covered bits, but for those that have a command of their own. -/
theorem registerStep_of_storesOnly (s : State) (fn size v : Nat) {addr : Nat} {h : RegHit} (ha : regAt addr = some h)
    (hr : storesOnly h.row.reg = true)
    (hacc : size = 4 ∧ addr % 4 = 0 ∨ size = 8 ∧ addr % 8 = 0 ∧ 64 ≤ h.row.width) (hreach : reaches s fn h.row.reg h.k h.j = true) :
    registerStep fn addr size v s = storeReg s h.row.reg h.k h.j (andNot (accessMask h.off size) (ownBits h.row.reg))
      (v % 2 ^ (8 * size) * 2 ^ (8 * h.off)) := by
  rcases hacc with ⟨rfl, h4⟩ | ⟨rfl, h8, hw⟩
  · simp [registerStep, regWrite, regWriteOne, aligned, h4, hitOf, ha, hreach, regEffect_of_storesOnly hr,
      reservedOp_of_storesOnly _ fn _ ha hr]
  · have hup : (addr + 4) % 8 = 4 := by omega
    simp [registerStep, regWrite, regWriteOne, aligned, h8, hw, hitOf, ha, hreach, regEffect_of_storesOnly hr,
      reservedOp_of_storesOnly _ fn _ ha hr, reservedOp_upper_half _ fn _ hup]

/-- Bit `i` of a register takes bit `i - 8 * off` of the bus where the access covers it. -/
theorem writtenBit_access (r : Reg) (off size v i : Nat) :
    writtenBit (andNot (accessMask off size) (ownBits r)) (v % 2 ^ (8 * size) * 2 ^ (8 * off)) i
      = if 8 * off ≤ i ∧ i < 8 * off + 8 * size ∧ (ownBits r).testBit i = false then some (v.testBit (i - 8 * off)) else none := by
  have hmask : (andNot (accessMask off size) (ownBits r)).testBit i = true
      ↔ 8 * off ≤ i ∧ i < 8 * off + 8 * size ∧ (ownBits r).testBit i = false := by simp [and_assoc]
  unfold writtenBit
  by_cases hc : 8 * off ≤ i ∧ i < 8 * off + 8 * size ∧ (ownBits r).testBit i = false
  · have hlt : i - 8 * off < 8 * size := by omega
    rw [if_pos (hmask.2 hc), if_pos hc]
    simp [Nat.testBit_mod_two_pow, hc.1, hlt]
  · rw [if_neg (mt hmask.1 hc), if_neg hc]

theorem testBit_rget_storeReg (s : State) {a : Nat} {h : RegHit} (ha : regAt a = some h) {f : Fld} (hf : f ∈ h.row.fields) {i : Nat}
    (hi : f.lo ≤ i ∧ i ≤ f.hi) (m v : Nat) :
    (rget (storeReg s h.row.reg h.k h.j m v) h.row.reg h.k h.j).testBit i
      = bitAfter (locked s h.row.reg h.k) f.acc ((rget s h.row.reg h.k h.j).testBit i) (writtenBit m v i) := by
  rw [storeReg, rget_rset, writeFields, regRow_of_regAt ha, testBit_foldl_writeFld_of_mem _ _ _ _ (fieldsApart_of_regAt ha) hf hi]

/-! ### LATCHING_READ (R59, R593) -/

theorem exec_latchingRead_eq (s : State) (fn addr : Nat) : exec (.latchingRead fn addr) s = .next (latchStep fn addr s) := rfl

theorem answers_of_reaches {s : State} {fn k j : Nat} {r : Reg} (h : reaches s fn r k j = true) : answers s fn = true := by
  simp only [reaches, Bool.and_eq_true] at h
  obtain ⟨⟨⟨⟨⟨⟨⟨⟨hfn, -⟩, -⟩, hbus⟩, hvf⟩, hd3⟩, -⟩, -⟩, -⟩ := h
  simp only [answers, Bool.and_eq_true]
  exact ⟨⟨⟨hfn, hbus⟩, hvf⟩, hd3⟩

/-- A misaligned address, a reserved one or one out of reach reads as zero and leaves the latches. -/
theorem latchStep_of_unreached {s : State} {fn addr : Nat} (hans : answers s fn = true)
    (haddr : addr % 4 ≠ 0 ∨ ∀ h, regAt addr = some h → reaches s fn h.row.reg h.k h.j = false) :
    latchStep fn addr s = emit s (.readData fn (zeros 4) false) := by
  have hnone : regRead s fn addr 4 = 0 ∧ latchesAfter s fn addr = s.latches := by
    by_cases h4 : addr % 4 = 0
    · cases ha : regAt addr with
      | none => simp [latchesAfter, regRead, regReadOne, aligned, h4, hitOf, ha]
      | some h =>
        have hreach := haddr.resolve_left (not_not_intro h4) h ha
        simp [latchesAfter, regRead, regReadOne, aligned, h4, hitOf, ha, hreach]
    · simp [latchesAfter, regRead, aligned, h4]
  have hzero : leBytes 4 0 = zeros 4 := by decide
  simp [latchStep, hans, hnone, hzero]

/-- The latches of `s` but the one that `fn` holds at `a`. -/
def latchesBut (s : State) (fn a : Nat) : List Latch := s.latches.filter (fun l => !(l.addr == a && l.fn == fn))

theorem find_latchesBut_same (s : State) (fn a : Nat) : (latchesBut s fn a).find? (fun l => l.addr == a && l.fn == fn) = none := by
  refine List.find?_eq_none.2 fun l hl hp => ?_
  have hkept := (List.mem_filter.1 hl).2
  rw [hp] at hkept
  exact absurd hkept (by decide)

theorem find_latchesBut_ne (s : State) {fn a g b : Nat} (hne : g ≠ fn ∨ b ≠ a) :
    (latchesBut s fn a).find? (fun l => l.addr == b && l.fn == g) = s.latches.find? (fun l => l.addr == b && l.fn == g) := by
  rw [latchesBut, List.find?_filter]
  congr 1
  funext l
  by_cases hl : l.addr = b ∧ l.fn = g
  · obtain ⟨rfl, rfl⟩ := hl
    simpa using hne.symm
  · have hf : (l.addr == b && l.fn == g) = false := by simpa using hl
    simp [hf]

/-- A value and its low `n` bytes have the same `n` bytes. -/
theorem leBytes_mod (n x : Nat) : leBytes n (x % 2 ^ (8 * n)) = leBytes n x := by
  induction n generalizing x with
  | zero => rfl
  | succ n ih =>
    have hpow : 2 ^ (8 * (n + 1)) = 256 * 2 ^ (8 * n) := by rw [Nat.mul_succ, Nat.pow_add, Nat.mul_comm]
    have hlow : BitVec.ofNat 8 (x % 2 ^ (8 * (n + 1))) = BitVec.ofNat 8 x := by
      apply BitVec.eq_of_toNat_eq
      simp [hpow]
    have hhigh : x % 2 ^ (8 * (n + 1)) / 256 = x / 256 % 2 ^ (8 * n) := by rw [hpow, Nat.mod_mul_right_div_self]
    rw [leBytes, leBytes, hlow, hhigh, ih]

section
variable {s : State} {fn addr : Nat} {h : RegHit} (ha : regAt addr = some h) (hl : latches h.row.reg = true)
  (hreach : reaches s fn h.row.reg h.k h.j = true) (h4 : addr % 4 = 0)
include hreach h4

theorem latchStep_of_reaches : latchStep fn addr s
    = emit { s with latches := latchesAfter s fn addr } (.readData fn (leBytes 4 (regReadOne s fn addr 4)) false) := by
  simp [latchStep, answers_of_reaches hreach, regRead, aligned, h4]

include ha hl

/-- The lower half of a register that latches: the upper half is latched for the function. -/
theorem latchStep_lower_half (hoff : h.off = 0) : latchStep fn addr s
    = emit { s with latches := latchesBut s fn (regAddr h.row.reg h.k h.j)
        ++ [⟨regAddr h.row.reg h.k h.j, fn, BitVec.ofNat 32 (regValue s h.row.reg h.k h.j / 2 ^ 32)⟩] }
      (.readData fn (leBytes 4 (regValue s h.row.reg h.k h.j)) false) := by
  have hrng : h.row.reg ≠ .rngRd := fun e => absurd (e ▸ hl) (by decide)
  have hval : regReadOne s fn addr 4 = regValue s h.row.reg h.k h.j % 2 ^ (8 * 4) := by
    simp [regReadOne, hitOf, ha, hrng, hreach, hoff, partOf]
  rw [latchStep_of_reaches hreach h4, hval, leBytes_mod]
  simp [latchesAfter, aligned, h4, hitOf, ha, hl, hreach, hoff, latchesBut]

/-- The upper half: the latch answers where there is one, and is used up. -/
theorem latchStep_upper_half (hoff : h.off = 4) : latchStep fn addr s
    = emit { s with latches := latchesBut s fn (regAddr h.row.reg h.k h.j) }
      (.readData fn (leBytes 4 (match latchAt s fn (regAddr h.row.reg h.k h.j) with
        | some u => u.toNat
        | none => regValue s h.row.reg h.k h.j / 2 ^ 32)) false) := by
  have hrng : h.row.reg ≠ .rngRd := fun e => absurd (e ▸ hl) (by decide)
  have hafter : latchesAfter s fn addr = latchesBut s fn (regAddr h.row.reg h.k h.j) := by
    simp [latchesAfter, aligned, h4, hitOf, ha, hl, hreach, hoff, latchesBut]
  rw [latchStep_of_reaches hreach h4, hafter]
  cases hlatch : latchAt s fn (regAddr h.row.reg h.k h.j) with
  | some u => simp [regReadOne, hitOf, ha, hrng, hreach, hl, hoff, hlatch]
  | none =>
    have hval : regReadOne s fn addr 4 = regValue s h.row.reg h.k h.j / 2 ^ 32 % 2 ^ (8 * 4) := by
      simp [regReadOne, hitOf, ha, hrng, hreach, hl, hoff, hlatch, partOf]
    rw [hval, leBytes_mod]

end

/-! ### LOG_CLEAR (R59) -/

theorem exec_logClear_eq (s : State) (fn addr size : Nat) (v : Word) :
    exec (.logClear fn addr size v) s = .next (logWrite s fn addr size v.toNat) := rfl

/-- The pending half-clears of `s` but those that `fn` began at `a`. -/
def halfClearsBut (s : State) (fn a : Nat) : List HalfClear := s.halfClears.filter (fun c => !(c.addr == a && c.fn == fn))

theorem not_mem_halfClearsBut {s : State} {fn a : Nat} {c : HalfClear} (hc : c ∈ halfClearsBut s fn a) : ¬ (c.addr = a ∧ c.fn = fn) := by
  rintro ⟨rfl, rfl⟩
  exact absurd (List.mem_filter.1 hc).2 (by simp)

theorem halfClearsBut_eq_self {s : State} {fn a : Nat} (hnone : ∀ c ∈ s.halfClears, ¬ (c.addr = a ∧ c.fn = fn)) :
    halfClearsBut s fn a = s.halfClears :=
  List.filter_eq_self.2 fun c hc => by
    have hother : (c.addr == a && c.fn == fn) = false := by simpa using hnone c hc
    rw [hother, Bool.not_false]

theorem clearLog_of_ne_qreStrFlt (s : State) {r : Reg} (hr : r ≠ .qreStrFlt) (k j : Nat) : clearLog s r k j = rset s r 0 k j := by
  unfold clearLog
  split
  · exact absurd rfl hr
  · rfl

section
variable {s : State} {fn addr v : Nat} {h : RegHit} (ha : regAt addr = some h) (hlog : isLog h.row.reg = true)
  (hreach : reaches s fn h.row.reg h.k h.j = true)
include ha hlog hreach

theorem logWrite_whole (h8 : addr % 8 = 0) (hoff : h.off = 0) (hv : v % 2 ^ 64 = 2 ^ 64 - 1) :
    logWrite s fn addr 8 v = clearLog { s with halfClears := halfClearsBut s fn (regAddr h.row.reg h.k h.j) } h.row.reg h.k h.j := by
  simp only [logWrite, hitOf, ha, hlog, hreach, aligned, h8, hoff, hv, halfClearsBut, beq_self_eq_true, decide_true, Bool.and_self,
    Bool.not_true, Bool.false_eq_true, if_false, if_true]

/-- A 4-byte write to half a log record: its bits are all ones, or it only ends a clear that the function began. -/
theorem logWrite_half (h4 : addr % 4 = 0) : logWrite s fn addr 4 v
    = if v % 2 ^ 32 = 2 ^ 32 - 1 then
        if (∃ c ∈ s.halfClears, c.addr = regAddr h.row.reg h.k h.j ∧ c.fn = fn ∧ c.upper ≠ (h.off == 4)) then
          clearLog { s with halfClears := halfClearsBut s fn (regAddr h.row.reg h.k h.j) } h.row.reg h.k h.j
        else { s with halfClears := halfClearsBut s fn (regAddr h.row.reg h.k h.j) ++ [⟨regAddr h.row.reg h.k h.j, h.off == 4, fn⟩] }
      else { s with halfClears := halfClearsBut s fn (regAddr h.row.reg h.k h.j) } := by
  have hany : (s.halfClears.filter (fun c => c.addr == regAddr h.row.reg h.k h.j && c.fn == fn)).any
        (fun c => c.upper != (h.off == 4)) = true
      ↔ ∃ c ∈ s.halfClears, c.addr = regAddr h.row.reg h.k h.j ∧ c.fn = fn ∧ c.upper ≠ (h.off == 4) := by
    simp only [List.any_filter, List.any_eq_true, Bool.and_eq_true, beq_iff_eq, bne_iff_ne, and_assoc]
  simp only [logWrite, hitOf, ha, hlog, hreach, Bool.and_self, Bool.not_true, Bool.false_eq_true, if_false, hany, aligned, h4,
    halfClearsBut, beq_self_eq_true, decide_true, Bool.true_and, Bool.true_or, if_true, decide_eq_true_eq,
    show ¬ (4 : Nat) = 8 by decide, decide_false, Bool.false_and]

end

/-! ### The obligations -/

/-- Settles O33: each clause is the lemma about its command for that case of the address and the data. -/
theorem registerAccesses : Obligations.RegisterAccesses := by
  intro s fn addr v
  refine ⟨fun size hacc => ?_, fun h4 hnone => ?_, fun h ha hr h4 hreach => ?_, fun h size ha hr hacc hreach => ?_,
    fun hans haddr => ?_, fun h ha hl hreach h4 => ⟨fun hoff => ?_, fun hoff => ?_⟩,
    fun h ha hlog hflt hreach => ⟨fun h8 hoff hv => ?_, fun h4 hv => ⟨fun hother => ?_, fun hnone => ?_⟩, fun h4 hv => ?_⟩⟩
  · rw [exec_registerWrite_eq, registerStep_of_not_access s fn addr size _ hacc]
  · rw [exec_registerWrite_eq, registerStep_of_unreached s fn _ h4 (by simp [hnone])]
  · have hhit : ∀ h', regAt addr = some h' → storesOnly h'.row.reg = true ∧ reaches s fn h'.row.reg h'.k h'.j = false := by
      intro h' ha'
      obtain rfl : h = h' := Option.some.inj (ha.symm.trans ha')
      exact ⟨hr, hreach⟩
    rw [exec_registerWrite_eq, registerStep_of_unreached s fn _ h4 hhit]
  · rw [exec_registerWrite_eq, registerStep_of_storesOnly s fn size _ ha hr hacc hreach]
    refine ⟨_, rfl, fun f hf i hlo hhi => ?_, fun a hne => tget_tset_ne' _ _ _ _ _ _ hne, rfl⟩
    rw [testBit_rget_storeReg s ha hf ⟨hlo, hhi⟩, writtenBit_access]
  · rw [exec_latchingRead_eq, latchStep_of_unreached hans haddr]
  · rw [exec_latchingRead_eq, latchStep_lower_half ha hl hreach h4 hoff]
    refine ⟨_, rfl, rfl, ?_, fun g b hne => ?_, rfl⟩
    · simp [latchAt, List.find?_append, find_latchesBut_same]
    · have hnew : (regAddr h.row.reg h.k h.j == b && fn == g) = false := by
        simpa using fun hb hf => hne.elim (· hf.symm) (· hb.symm)
      simp [latchAt, List.find?_append, find_latchesBut_ne s hne, hnew]
  · rw [exec_latchingRead_eq, latchStep_upper_half ha hl hreach h4 hoff]
    refine ⟨_, rfl, ?_, rfl, rfl⟩
    simp [latchAt, find_latchesBut_same]
  · rw [exec_logClear_eq, logWrite_whole ha hlog hreach h8 hoff (by omega), clearLog_of_ne_qreStrFlt _ hflt]
    exact ⟨_, rfl, rget_rset _ _ _ _ _, fun b hne => tget_tset_ne' _ _ _ _ _ _ hne⟩
  · rw [exec_logClear_eq, logWrite_half ha hlog hreach h4, if_pos hv, if_pos hother, clearLog_of_ne_qreStrFlt _ hflt]
    exact ⟨_, rfl, rget_rset _ _ _ _ _⟩
  · have hfirst : ¬ ∃ c ∈ s.halfClears, c.addr = regAddr h.row.reg h.k h.j ∧ c.fn = fn ∧ c.upper ≠ (h.off == 4) :=
      fun ⟨c, hc, haddr, hfn, _⟩ => hnone c hc ⟨haddr, hfn⟩
    rw [exec_logClear_eq, logWrite_half ha hlog hreach h4, if_pos hv, if_neg hfirst, halfClearsBut_eq_self hnone]
    exact ⟨_, rfl, rfl, rfl⟩
  · rw [exec_logClear_eq, logWrite_half ha hlog hreach h4, if_neg hv]
    exact ⟨_, rfl, rfl, fun c hc => not_mem_halfClearsBut hc⟩

/-- No register is listed after reset, so each reads as the reset value of its row. -/
theorem rget_reset (r : Reg) (k j : Nat) : rget State.reset r k j = resetOf (regRow r) := rfl

theorem blownFrom_reset : BlownFrom factoryFuses State.reset :=
  ⟨rfl, rfl, rfl, rfl, rfl, rfl, rfl, rfl, rfl, Nat.le_refl _, Nat.le_refl _, id⟩

/-- Settles O50: every field is read off `State.reset`; the canonical form is `canonical_reset`. -/
theorem resetState : Obligations.ResetState :=
  ⟨rfl, rfl, rfl, rfl, rfl, rfl, rfl, rget_reset, rfl, rfl, rfl, rfl, rfl, rfl, rfl, rfl, rfl, canonical_reset, blownFrom_reset⟩

end Sys2Proof.Proofs
end

section
/-! PROOFS. The statement about V.LD and V.ST (R25, R102, R103, R150, R159): lanes and bytes of a row, what a quire without upsets reads
and writes, and the two instructions. -/

namespace Sys2Proof.Proofs

open Sys2Proof.Machine Sys2Proof.Safety Sys2Proof.Laws

/-! ### Lanes -/

@[simp] theorem length_lanesOf (w n x : Nat) : (lanesOf w n x).length = n := by simp [lanesOf]

theorem lanesOf_succ (w n x : Nat) : lanesOf w (n + 1) x = x % 2 ^ w :: lanesOf w n (x >>> w) := by
  simp [lanesOf, List.range_succ_eq_map, Nat.mul_succ, Nat.add_comm (w * _) w, Nat.shiftRight_add]

theorem getElem?_lanesOf (w : Nat) {n e : Nat} (v : VReg) (he : e < n) : (lanesOf w n v.toNat)[e]? = some (lane w v e) := by
  simp [lanesOf, lane, he, Nat.shiftRight_eq_div_pow]

theorem ofLanes_cons (w a : Nat) (l : List Nat) : ofLanes w (a :: l) = 2 ^ w * ofLanes w l + a % 2 ^ w := by
  simp [ofLanes, Nat.mul_comm]

theorem ofLanes_lt (w : Nat) (l : List Nat) : ofLanes w l < 2 ^ (w * l.length) := by
  induction l with
  | nil => simp [ofLanes]
  | cons a l ih =>
    have ha : a % 2 ^ w < 2 ^ w := Nat.mod_lt _ (Nat.two_pow_pos w)
    rw [ofLanes_cons, List.length_cons, Nat.mul_succ, Nat.add_comm (w * _), Nat.pow_add]
    calc 2 ^ w * ofLanes w l + a % 2 ^ w < 2 ^ w * (ofLanes w l + 1) := by rw [Nat.mul_succ]; omega
      _ ≤ 2 ^ w * 2 ^ (w * l.length) := Nat.mul_le_mul_left _ ih

/-- A register that has room for the lanes holds their number. -/
theorem toNat_ofNat_ofLanes {w n : Nat} {l : List Nat} (hl : w * l.length ≤ n) : (BitVec.ofNat n (ofLanes w l)).toNat = ofLanes w l := by
  rw [BitVec.toNat_ofNat]
  exact Nat.mod_eq_of_lt (Nat.lt_of_lt_of_le (ofLanes_lt w l) (Nat.pow_le_pow_right (by decide) hl))

/-- Lane `e` of a number put together from lanes. -/
theorem ofLanes_div_mod (w : Nat) {l : List Nat} {e v : Nat} (h : l[e]? = some v) : ofLanes w l / 2 ^ (w * e) % 2 ^ w = v % 2 ^ w := by
  induction l generalizing e with
  | nil => simp at h
  | cons a l ih =>
    cases e with
    | zero =>
      obtain rfl : a = v := by simpa using h
      simp [ofLanes_cons]
    | succ e =>
      have hdiv : ofLanes w (a :: l) / 2 ^ w = ofLanes w l := by
        rw [ofLanes_cons, Nat.mul_add_div (Nat.two_pow_pos w), Nat.div_eq_of_lt (Nat.mod_lt _ (Nat.two_pow_pos w)), Nat.add_zero]
      rw [Nat.mul_succ, Nat.add_comm (w * e), Nat.pow_add, ← Nat.div_div_eq_div_mul, hdiv]
      exact ih (by simpa using h)

/-- Lane `e` of a register put together from no more lanes than it has. -/
theorem lane_ofNat_ofLanes {w : Nat} {l : List Nat} (hl : w * l.length ≤ 16384) {e v : Nat} (h : l[e]? = some v) :
    lane w (BitVec.ofNat 16384 (ofLanes w l)) e = v % 2 ^ w := by
  rw [lane, toNat_ofNat_ofLanes hl, ofLanes_div_mod w h]

theorem lane_mod (w : Nat) (v : VReg) (e : Nat) : lane w v e % 2 ^ w = lane w v e := Nat.mod_mod _ _

/-- The lanes that `writeLanes` puts together fit into the register. -/
theorem writeLanes_fits (w : Nat) (f : Nat → Option Lane → Nat) (old : VReg) (ls : List (Option Lane)) :
    w * (List.zipWith f (lanesOf w (16384 / w) old.toNat) ls).length ≤ 16384 := by
  rw [List.length_zipWith, length_lanesOf]
  exact Nat.le_trans (Nat.mul_le_mul_left w (Nat.min_le_left _ _)) (Nat.mul_div_le _ _)

/-- A lane that the write leaves out keeps its value. -/
theorem lane_writeLanes_keep (bad w : Nat) (old : VReg) {ls : List (Option Lane)} {e : Nat} (he : e < 16384 / w)
    (h : ls[e]? = some none) : lane w (writeLanes bad w old ls) e = lane w old e := by
  rw [← lane_mod w old]
  refine lane_ofNat_ofLanes (writeLanes_fits ..) ?_
  simp [List.getElem?_zipWith, getElem?_lanesOf w old he, h]

/-- A lane that is written, and that no uncorrectable word feeds, takes its value. -/
theorem lane_writeLanes_put (bad w : Nat) (old : VReg) {ls : List (Option Lane)} {e v : Nat} (he : e < 16384 / w)
    (h : ls[e]? = some (some (v, false))) : lane w (writeLanes bad w old ls) e = v % 2 ^ w := by
  refine lane_ofNat_ofLanes (writeLanes_fits ..) ?_
  simp [List.getElem?_zipWith, getElem?_lanesOf w old he, h]

theorem getElem?_maskLanes (g : Pred) {ls : List Lane} {e : Nat} {l : Lane} (h : ls[e]? = some l) :
    (maskLanes g ls)[e]? = some (if g.getLsbD e then some l else none) := by
  simp [maskLanes, List.getElem?_zipIdx, h]

/-- Under a guard of all ones no lane of a row is left out. -/
theorem maskLanes_allOnes {ls : List Lane} (h : ls.length ≤ 1024) : maskLanes (BitVec.allOnes 1024) ls = ls.map some := by
  refine List.ext_getElem? fun e => ?_
  by_cases he : e < ls.length
  · have hbit : (BitVec.allOnes 1024).getLsbD e = true := by rw [BitVec.getLsbD_allOnes, decide_eq_true (by omega)]
    rw [getElem?_maskLanes _ (List.getElem?_eq_getElem he), hbit, List.getElem?_map, List.getElem?_eq_getElem he]
    rfl
  · rw [List.getElem?_eq_none (by simpa [maskLanes] using he), List.getElem?_eq_none (by simpa using he)]

theorem vLanes_nil (x : Stream) (r w : Nat) : vLanes x [] r w = (lanesOf w (16384 / w) (x.v r).toNat).map (fun v => (v, false)) := rfl

/-! ### Bytes -/

theorem leNat_lt (bs : List Byte) : leNat bs < 2 ^ (8 * bs.length) := by
  induction bs with
  | nil => simp [leNat]
  | cons b bs ih =>
    have hb := b.isLt
    rw [List.length_cons, Nat.mul_succ, Nat.pow_add, leNat]
    omega

theorem leBytes_add (m n x : Nat) : leBytes (m + n) x = leBytes m x ++ leBytes n (x >>> (8 * m)) := by
  induction m generalizing x with
  | zero => simp [leBytes]
  | succ m ih =>
    have hshift : (x / 256) >>> (8 * m) = x >>> (8 * (m + 1)) := by
      rw [Nat.mul_succ, Nat.add_comm (8 * m), Nat.shiftRight_add, Nat.shiftRight_eq_div_pow x 8]
    rw [Nat.succ_add, leBytes, leBytes, ih, hshift, List.cons_append]

/-- The bytes of a number are those of its lanes in order. -/
theorem flatMap_leBytes_lanesOf (k n x : Nat) : (lanesOf (8 * k) n x).flatMap (leBytes k) = leBytes (k * n) x := by
  induction n generalizing x with
  | zero => rfl
  | succ n ih => rw [lanesOf_succ, List.flatMap_cons, leBytes_mod, ih, Nat.mul_succ, Nat.add_comm (k * n), leBytes_add]

theorem chunksOf_cons {α : Type} (n k : Nat) (a : α) (t : List α) :
    chunksOf n (k + 1) (a :: t) = (a :: t).take n :: chunksOf n k ((a :: t).drop n) := rfl

theorem getElem?_chunksOf {α : Type} (n : Nat) {k i : Nat} {l : List α} (hi : i < k) (hl : n * i < l.length) :
    (chunksOf n k l)[i]? = some ((l.drop (n * i)).take n) := by
  induction k generalizing i l with
  | zero => omega
  | succ k ih =>
    cases l with
    | nil => simp at hl
    | cons a t =>
      rw [chunksOf_cons]
      cases i with
      | zero => rfl
      | succ i =>
        have hrest : n * i < ((a :: t).drop n).length := by rw [List.length_drop]; rw [Nat.mul_succ] at hl; omega
        rw [List.getElem?_cons_succ, ih (by omega) hrest, List.drop_drop, Nat.mul_succ, Nat.add_comm n]

/-! ### The state past an instruction (R597) -/

/-- The quire after the stream has moved past the instruction: the stream's PC, its program order and its wait have changed. -/
theorem quire_advance (s : State) (q st : Nat) (w : IWord) :
    quire (advance s q st w) q = (quire s q).setStream st { stream s q st with
      pc := (stream s q st).pc + (if w.long then 16 else 8), nextSeq := (stream s q st).nextSeq + 1, openWait := none } :=
  quire_setQuire _ _ _

theorem stream_advance (s : State) (q st : Nat) (w : IWord) :
    stream (advance s q st w) q st = { stream s q st with
      pc := (stream s q st).pc + (if w.long then 16 else 8), nextSeq := (stream s q st).nextSeq + 1, openWait := none } := by
  rw [stream, quire_advance, stream_setStream]

@[simp] theorem stream_advance_p (s : State) (q st : Nat) (w : IWord) (i : Nat) :
    (stream (advance s q st w) q st).p i = (stream s q st).p i := by rw [stream_advance]; rfl

@[simp] theorem stream_advance_v (s : State) (q st : Nat) (w : IWord) (i : Nat) :
    (stream (advance s q st w) q st).v i = (stream s q st).v i := by rw [stream_advance]; rfl

@[simp] theorem spadBad_advance (s : State) (q st : Nat) (w : IWord) (a n : Nat) :
    spadBad (advance s q st w) q a n = spadBad s q a n := by rw [spadBad, quire_advance]; rfl

@[simp] theorem spadBytes_advance (s : State) (q st : Nat) (w : IWord) (a n : Nat) :
    spadBytes (advance s q st w) q a n = spadBytes s q a n := by rw [spadBytes, quire_advance]; rfl

/-! ### A quire without upsets (R123, R493) -/

/-- A clean scratchpad range reads as it is stored, and the read changes nothing. -/
theorem spadRead_clean {s : State} {q : Nat} (h : (quire s q).upsets = []) {a n : Nat} (hbad : spadBad s q a n = false) :
    spadRead s q a n = (s, some (spadBytes s q a n)) := by simp [spadRead, spadTouch, h, hbad]

/-- Registers without upsets are read without an error. -/
theorem readRegs_clean {s : State} {q : Nat} (h : (quire s q).upsets = []) (f : Flight) (pipe width : Nat) :
    readRegs s q f pipe width = (s, []) := by simp [readRegs, h]

/-- A guard read without an error feeds no element. -/
theorem feedGuard_nil (f : Flight) (o : BOut) : feedGuard f [] o = o := rfl

/-- A result of one vector register writes that register alone. -/
theorem writeOut_vector {s : State} {q st : Nat} (h : (quire s q).upsets = []) (r w bad : Nat) (ls : List (Option Lane)) :
    writeOut s q st { v := [(r, w, ls)], bad := bad } = wrV s q st r (writeLanes bad w ((stream s q st).v r) ls) := by
  have hset : (quire (setStream s q st ((stream s q st).setV r (writeLanes bad w ((stream s q st).v r) ls))) q).upsets = [] := by
    rw [setStream, quire_setQuire]
    exact h
  simp [writeOut, wrV, hset]

/-! ### V.LD and V.ST (R102, R103, R159) -/

/-- The elements of the row at `a`. -/
def rowLanes (s : State) (q a : Nat) : List Lane := (chunksOf 4 512 (spadBytes s q a 2048)).map (fun c => (leNat c, false))

theorem getElem?_rowLanes (s : State) (q a : Nat) {e : Nat} (he : e < 512) :
    (rowLanes s q a)[e]? = some (leNat (spadBytes s q (a + 4 * e) 4), false) := by
  have hlen : 4 * e < (spadBytes s q a 2048).length := by rw [spadBytes, tslice_length]; omega
  have hpart : ((spadBytes s q a 2048).drop (4 * e)).take 4 = spadBytes s q (a + 4 * e) 4 := by
    rw [spadBytes, tslice_drop, tslice_take _ _ _ _ _ (by omega), spadBytes]
  rw [rowLanes, List.getElem?_map, getElem?_chunksOf 4 he hlen, hpart]
  rfl

/-- What V.LD leaves in register F1: the row at `a` under the guard. -/
def loadedRow (s : State) (q st : Nat) (w : IWord) (a : Nat) : VReg :=
  writeLanes (2 ^ 32 - 1) 32 ((stream s q st).v w.f1.toNat) (maskLanes ((stream s q st).p w.pg.toNat) (rowLanes s q a))

@[simp] theorem loadedRow_advance (s : State) (q st : Nat) (w : IWord) (a : Nat) :
    loadedRow (advance s q st w) q st w a = loadedRow s q st w a := by simp [loadedRow, rowLanes]

/-- A lane that the guard selects takes the row's element; any other keeps its value. -/
theorem lane_loadedRow (s : State) (q st : Nat) (w : IWord) (a : Nat) {e : Nat} (he : e < 512) :
    lane 32 (loadedRow s q st w a) e
      = if guardBit s q st w e then leNat (spadBytes s q (a + 4 * e) 4) else vlane s q st 32 w.f1.toNat e := by
  have hmask : (maskLanes ((stream s q st).p w.pg.toNat) (rowLanes s q a))[e]?
      = some (if guardBit s q st w e then some (leNat (spadBytes s q (a + 4 * e) 4), false) else none) :=
    getElem?_maskLanes _ (getElem?_rowLanes s q a he)
  cases hg : guardBit s q st w e with
  | true =>
    rw [hg, if_pos rfl] at hmask
    have hlt : leNat (spadBytes s q (a + 4 * e) 4) < 2 ^ 32 := by simpa [spadBytes] using leNat_lt (spadBytes s q (a + 4 * e) 4)
    rw [loadedRow, lane_writeLanes_put _ _ _ he hmask, Nat.mod_eq_of_lt hlt, if_pos rfl]
  | false =>
    rw [hg, if_neg Bool.false_ne_true] at hmask
    rw [loadedRow, lane_writeLanes_keep _ _ _ he hmask, if_neg Bool.false_ne_true, vlane]

theorem actVld_clean {s : State} {q : Nat} {f : Flight} (h : (quire s q).upsets = []) (hbad : spadBad s q (f.val 1) 2048 = false) :
    actVld q s f = wrV s q f.stream f.w.f1.toNat (loadedRow s q f.stream f.w (f.val 1)) := by
  simp only [actVld, spadRead_clean h hbad, readRegs_clean h, feedGuard_nil, writeOut_vector h, List.isEmpty_nil, if_true]
  rfl

/-- Under a guard of all ones V.ST writes its whole register. -/
theorem actVst_clean {s : State} {q : Nat} {f : Flight} (h : (quire s q).upsets = [])
    (hg : guardOf (stream s q f.stream) f = BitVec.allOnes 1024) :
    actVst q s f = spadWrite s q (f.val 1) (leBytes 2048 ((stream s q f.stream).v f.w.f1.toNat).toNat) := by
  have hlen : (vLanes (stream s q f.stream) [] f.w.f1.toNat 32).length ≤ 1024 := by simp [vLanes_nil]
  have hall : ((vLanes (stream s q f.stream) [] f.w.f1.toNat 32).map some).all Option.isSome = true := by simp
  have hbytes := flatMap_leBytes_lanesOf 4 512 ((stream s q f.stream).v f.w.f1.toNat).toNat
  simp only [actVst, readRegs_clean h, hg, maskLanes_allOnes hlen, feedGuard_nil, List.map_cons, List.headD_cons, hall, List.isEmpty_nil,
    if_true]
  rw [← hbytes, vLanes_nil, List.flatMap_map, List.flatMap_map]
  rfl

/-- A row address within the scratchpad passes the check of the row (R45, R150). -/
theorem spadCheck_row {a : Nat} (hal : a % 2048 = 0) (hlt : a < spadSize) : spadCheck a 2048 2048 = 0 := by
  have hsize : spadSize = 2097152 := rfl
  have hend : ¬ (a ≥ spadSize ∨ a + 2048 > spadSize) := by omega
  simp [spadCheck, hend, hal]

/-- A row instruction that its stream takes, at a row address within the scratchpad, acts at once if nothing holds it. -/
theorem issue_planRow {s : State} {q st : Nat} {o : Op} {w : IWord} {s1 : State} (h : Takes s q st o w s1)
    (ha : assigned o.maj o.sub = true) (hal : (stream s1 q st).s w.f2.toNat % 2048 = 0) (hlt : (stream s1 q st).s w.f2.toNat < spadSize)
    (write : Bool) (hb : blocked (quire s1 q) (planRow write s1 (newFlight s1 q st w o)).f = false) (start : State → Flight → State) :
    issue s q st w o (planRow write) start
      = settleQuire (start (advance s1 q st w) (planRow write s1 (newFlight s1 q st w o)).f) q := by
  have hmem : (planRow write s1 (newFlight s1 q st w o)).f.mem = [] := by cases write <;> rfl
  rw [issue_starts h ha (planRow write) start (spadCheck_row hal hlt) rfl rfl (Or.inr ⟨rfl, hb⟩), hmem, consumeLines_nil]

/-- Settles O3: each instruction starts at once and then does what it does in a quire without upsets. -/
theorem vectorLoadStore : Obligations.VectorLoadStore := by
  intro q st w s s1 a u ld sto hal hlt hclean
  refine ⟨fun htakes hfree hbad => ⟨loadedRow s1 q st w a, ?_, fun _ he => lane_loadedRow s1 q st w a he⟩,
    fun htakes hfree hguard => ?_⟩
  · let f := (planRow false s1 (newFlight s1 q st w ld)).f
    have hact : actVld q u f = wrV u q st w.f1.toNat (loadedRow s1 q st w a) := by
      rw [← loadedRow_advance]
      exact actVld_clean (f := f) hclean ((spadBad_advance ..).trans hbad)
    rw [exec_vLd, execVLd, issue_planRow htakes rfl hal hlt false hfree, hact]
  · let f := (planRow true s1 (newFlight s1 q st w sto)).f
    have hact : actVst q u f = spadWrite u q a (leBytes 2048 ((stream s1 q st).v w.f1.toNat).toNat) := by
      rw [← stream_advance_v]
      exact actVst_clean (f := f) hclean ((stream_advance_p ..).trans hguard)
    rw [exec_vSt, execVSt, issue_planRow htakes rfl hal hlt true hfree, hact]

end Sys2Proof.Proofs
end

section
/-! PROOFS. Tiles, handles and the scratchpad (R25, R64–R70, R82–R84): what each operation of the quire that the T. instructions share
changes and leaves, and when such an instruction starts at its issue. -/

namespace Sys2Proof.Proofs

open Sys2Proof.Machine Sys2Proof.Safety Sys2Proof.Laws

/-! ### Handles and tiles -/

theorem tfind_append_of_forall_ne {α : Type} {t : Tab α} (u : Tab α) {k : Nat} (h : ∀ p ∈ t, p.1 ≠ k) :
    tfind (t ++ u) k = tfind u k := by
  induction t with
  | nil => rfl
  | cons p t ih =>
    rw [List.cons_append, tfind, if_neg (h p (by simp)), ih fun r hr => h r (by simp [hr])]

@[simp] theorem tfind_tupd_same {α : Type} (t : Tab α) (k : Nat) (v : α) : tfind (tupd t k v) k = some v := by
  have hlow : ∀ p ∈ t.filter (fun p => decide (p.1 < k)), p.1 ≠ k := by
    simp only [List.mem_filter, decide_eq_true_eq]
    omega
  rw [tupd, tfind_append_of_forall_ne _ hlow, tfind, if_pos rfl]

/-- Changing the tile of one name, which keeps its name, changes what is found under that name. -/
theorem find?_map_key (l : List Tile) {k : TileKey} {h : Tile → Tile} (hkey : ∀ t, t.key = k → (h t).key = k) :
    (l.map (fun u => if u.key == k then h u else u)).find? (fun t => t.key == k) = (l.find? (fun t => t.key == k)).map h := by
  have hsame : (fun t : Tile => t.key == k) ∘ (fun u => if u.key == k then h u else u) = fun t => t.key == k := by
    funext u
    by_cases hu : u.key = k
    · simp [hu, hkey u hu]
    · simp [hu]
  rw [List.find?_map, hsame]
  cases hf : l.find? (fun t => t.key == k) with
  | none => rfl
  | some t =>
    have ht : t.key = k := by simpa using List.find?_some hf
    simp [ht]

/-- The tiles with `t` in the place of the tile of its name, or behind the others. -/
def tilesWith (l : List Tile) (t : Tile) : List Tile :=
  if l.any (fun u => u.key == t.key) then l.map (fun u => if u.key == t.key then t else u) else l ++ [t]

theorem find?_tilesWith (l : List Tile) (t : Tile) : (tilesWith l t).find? (fun u => u.key == t.key) = some t := by
  unfold tilesWith
  split
  next hany =>
    obtain ⟨u, hu⟩ := Option.isSome_iff_exists.1 ((List.find?_isSome (p := fun u : Tile => u.key == t.key)).2 (List.any_eq_true.1 hany))
    rw [find?_map_key l fun _ _ => rfl, hu, Option.map_some]
  next hnone =>
    rw [List.find?_append, List.find?_eq_none.2 fun u hu hk => hnone (List.any_eq_true.2 ⟨u, hu, hk⟩)]
    simp

theorem quire_putTile (s : State) (q : Nat) (t : Tile) :
    quire (putTile s q t) q = { quire s q with tiles := tilesWith (quire s q).tiles t } := by
  simp only [putTile, tilesWith]
  split <;> rw [quire_setQuire]

theorem quire_modTile (s : State) (q : Nat) (k : TileKey) (h : Tile → Tile) :
    quire (modTile s q k h) q = { quire s q with tiles := (quire s q).tiles.map (fun u => if u.key == k then h u else u) } :=
  quire_setQuire ..

theorem quire_vatFresh (s : State) (q : Nat) (k : TileKey) :
    quire (vatFresh s q k) q = { quire s q with upsets := (quire s q).upsets.filter (fun u =>
      !(u.store == .vat k.1 k.2.1 k.2.2 || u.store == .header k.1 k.2.1 k.2.2)) } := quire_setQuire ..

theorem quire_dropFlight (s : State) (q st n : Nat) :
    quire (dropFlight s q st n) q
      = { quire s q with flights := (quire s q).flights.filter (fun f => !(f.stream == st && f.seq == n)) } := quire_setQuire ..

theorem quire_wrS (s : State) (q st r v : Nat) :
    quire (wrS s q st r v) q = (quire s q).setStream st ((stream s q st).setS r v) := quire_setQuire ..

/-- A tile that has been put is the tile of its name. -/
theorem tileAt_putTile (s : State) (q : Nat) (t : Tile) : tileAt (quire (putTile s q t) q) t.key = some t := by
  rw [quire_putTile]
  exact find?_tilesWith _ t

theorem tileAt_modTile (s : State) (q : Nat) {k : TileKey} {h : Tile → Tile} (hkey : ∀ t, t.key = k → (h t).key = k) :
    tileAt (quire (modTile s q k h) q) k = (tileAt (quire s q) k).map h := by
  rw [quire_modTile]
  exact find?_map_key _ hkey

/-! ### The end of a wait for releases (R70) -/

/-- Forgetting waits changes nothing that does not look at the streams' waits. -/
theorem forgetWait_keeps {α : Type} (g : Quire → α)
    (hg : ∀ (y : Quire) st v, g (y.setStream st { y.stream st with openWait := v }) = g y) (x : Quire) (ks : List TileKey) :
    g (forgetWait x ks) = g x := by
  unfold forgetWait
  generalize List.range 8 = l
  induction l generalizing x with
  | nil => rfl
  | cons st l ih =>
    rw [List.foldl_cons, ih]
    split
    · rfl
    · exact hg x st _

/-- A closed tile is there no longer. -/
theorem tileAt_closeTile (s : State) (q : Nat) (k : TileKey) : tileAt (quire (closeTile s q k) q) k = none := by
  rw [closeTile, quire_setQuire, tileAt, forgetWait_keeps Quire.tiles fun _ _ _ => rfl, List.find?_eq_none]
  simp

@[simp] theorem spad_closeTile (s : State) (q : Nat) (k : TileKey) : (quire (closeTile s q k) q).spad = (quire s q).spad := by
  rw [closeTile, quire_setQuire, forgetWait_keeps Quire.spad fun _ _ _ => rfl]

theorem stream_setStream_sregs (y : Quire) (st r : Nat) (v : Option (Nat × List TileKey)) :
    ((y.setStream st { y.stream st with openWait := v }).stream r).sregs = (y.stream r).sregs := by
  by_cases hr : r = st
  · rw [hr, stream_setStream]
  · rw [stream_setStream_ne _ _ _ _ hr]

@[simp] theorem sregs_closeTile (s : State) (q st : Nat) (k : TileKey) :
    (stream (closeTile s q k) q st).sregs = (stream s q st).sregs := by
  rw [stream, closeTile, quire_setQuire, forgetWait_keeps (fun y => (y.stream st).sregs) fun y r v => stream_setStream_sregs y r st v]
  rfl

/-! ### What other operations of the quire leave -/

@[simp] theorem spad_wrS (s : State) (q st r v : Nat) : (quire (wrS s q st r v) q).spad = (quire s q).spad := by
  rw [quire_wrS]
  rfl

@[simp] theorem tiles_wrS (s : State) (q st r v : Nat) : (quire (wrS s q st r v) q).tiles = (quire s q).tiles := by
  rw [quire_wrS]
  rfl

theorem upsets_dropFlight {s : State} {q : Nat} (h : (quire s q).upsets = []) (st n : Nat) :
    (quire (dropFlight s q st n) q).upsets = [] := by
  rw [quire_dropFlight]
  exact h

theorem flights_advance (s : State) (q st : Nat) (w : IWord) : (quire (advance s q st w) q).flights = (quire s q).flights := by
  rw [quire_advance]
  rfl

theorem spad_advance (s : State) (q st : Nat) (w : IWord) : (quire (advance s q st w) q).spad = (quire s q).spad := by
  rw [quire_advance]
  rfl

/-! ### Scalar registers -/

theorem sval_wrS (s : State) (q st v : Nat) {r : Nat} (hr : r ≠ 0) : sval (wrS s q st r v) q st r = BitVec.ofNat 64 v := by
  rw [sval, stream, quire_wrS, stream_setStream]
  simp only [Stream.s, Stream.setS, hr, if_false, tget_tset_same, BitVec.ofNat_toNat, BitVec.setWidth_eq]

theorem sval_congr {s t : State} {q st : Nat} (h : (stream s q st).sregs = (stream t q st).sregs) (r : Nat) :
    sval s q st r = sval t q st r := by rw [sval, sval, Stream.s, Stream.s, h]

/-! ### Numbers in the scratchpad -/

@[simp] theorem length_leBytes (n x : Nat) : (leBytes n x).length = n := by
  induction n generalizing x with
  | zero => rfl
  | succ n ih => rw [leBytes, List.length_cons, ih]

theorem leNat_leBytes (n x : Nat) : leNat (leBytes n x) = x % 2 ^ (8 * n) := by
  induction n generalizing x with
  | zero => simp [leBytes, leNat, Nat.mod_one]
  | succ n ih =>
    have hpow : 2 ^ (8 * (n + 1)) = 256 * 2 ^ (8 * n) := by rw [Nat.mul_succ, Nat.pow_add, Nat.mul_comm]
    rw [leBytes, leNat, ih, hpow, Nat.mod_mul]
    rfl

/-- Piece `i` of a list put together from pieces of one length. -/
theorem take_drop_flatMap {α β : Type} {f : α → List β} {k : Nat} {l : List α} (hk : ∀ a ∈ l, (f a).length = k) {i : Nat} {a : α}
    (h : l[i]? = some a) : ((l.flatMap f).drop (i * k)).take k = f a := by
  induction l generalizing i with
  | nil => simp at h
  | cons b l ih =>
    have hb : (f b).length = k := hk b (by simp)
    cases i with
    | zero =>
      obtain rfl : b = a := by simpa using h
      simp [← hb]
    | succ i =>
      have hskip : (i + 1) * k = (f b).length + i * k := by rw [hb, Nat.succ_mul, Nat.add_comm]
      rw [List.flatMap_cons, hskip, List.drop_append, List.drop_eq_nil_of_le (Nat.le_add_right ..), List.nil_append,
        Nat.add_sub_cancel_left]
      exact ih (fun c hc => hk c (by simp [hc])) (by simpa using h)

/-- Element `i * k + j` of a list put together from pieces of length `k`. -/
theorem getElem?_flatMap_mul_add {α β : Type} {f : α → List β} {k : Nat} {l : List α} (hk : ∀ a ∈ l, (f a).length = k)
    {i j : Nat} {a : α} (h : l[i]? = some a) (hj : j < k) : (l.flatMap f)[i * k + j]? = (f a)[j]? := by
  rw [← take_drop_flatMap hk h, List.getElem?_take_of_lt hj, List.getElem?_drop]

theorem length_flatMap_of_forall {α β : Type} {f : α → List β} {k : Nat} {l : List α} (hk : ∀ a ∈ l, (f a).length = k) :
    (l.flatMap f).length = l.length * k := by
  rw [List.length_flatMap, List.map_congr_left hk, List.map_const', List.sum_replicate_nat]

theorem spadNum_congr {s t : State} {q : Nat} (h : (quire s q).spad = (quire t q).spad) (a n : Nat) :
    spadNum s q a n = spadNum t q a n := by rw [spadNum, spadNum, spadBytes, spadBytes, h]

theorem spadTouch_clean {s : State} {q : Nat} (h : (quire s q).upsets = []) (a n : Nat) : spadTouch s q a n = s := by
  simp [spadTouch, h]

section
variable {s : State} {q : Nat} (h : (quire s q).upsets = []) (a : Nat) (bs : List Byte)
include h

/-- A write in a quire without upsets touches the scratchpad and its poison alone. -/
theorem quire_spadWrite_clean : ∃ poison, quire (spadWrite s q a bs) q = { quire s q with
    spad := if bs = [] then (quire s q).spad else tputs blankByte (quire s q).spad a bs, spadPoison := poison } := by
  refine ⟨(quire (spadWrite s q a bs) q).spadPoison, ?_⟩
  by_cases hbs : bs = []
  · simp [spadWrite, hbs]
  · have hlen : bs.length ≠ 0 := by simpa using hbs
    simp only [spadWrite, hlen, if_false, spadTouch_clean h, ite_self, quire_setQuire, h, List.filter_nil, hbs]

theorem upsets_spadWrite : (quire (spadWrite s q a bs) q).upsets = [] := by
  obtain ⟨poison, hq⟩ := quire_spadWrite_clean h a bs
  rw [hq]
  exact h

theorem tiles_spadWrite : (quire (spadWrite s q a bs) q).tiles = (quire s q).tiles := by
  obtain ⟨poison, hq⟩ := quire_spadWrite_clean h a bs
  rw [hq]

theorem tget_spadWrite_in {i : Nat} (hi : i < bs.length) : tget blankByte (quire (spadWrite s q a bs) q).spad (a + i) = bs[i] := by
  obtain ⟨poison, hq⟩ := quire_spadWrite_clean h a bs
  have hbs : bs ≠ [] := List.ne_nil_of_length_pos (by omega)
  rw [hq]
  simp only [hbs, if_false]
  exact tget_tputs_in blankByte _ a bs i hi

theorem tget_spadWrite_out {k : Nat} (hk : k < a ∨ a + bs.length ≤ k) :
    tget blankByte (quire (spadWrite s q a bs) q).spad k = tget blankByte (quire s q).spad k := by
  obtain ⟨poison, hq⟩ := quire_spadWrite_clean h a bs
  rw [hq]
  by_cases hbs : bs = []
  · simp only [hbs, if_true]
  · simp only [hbs, if_false]
    exact tget_tputs_out blankByte _ a k bs hk

/-- A number that lies within what is written. -/
theorem spadNum_spadWrite_in {o n : Nat} (hn : o + n ≤ bs.length) :
    spadNum (spadWrite s q a bs) q (a + o) n = leNat ((bs.drop o).take n) := by
  have hbytes : spadBytes (spadWrite s q a bs) q (a + o) n = (bs.drop o).take n := by
    apply List.ext_getElem
    · simp only [spadBytes, tslice_length, List.length_take, List.length_drop]
      omega
    · intro i hi _
      have hi : i < n := by simpa [spadBytes] using hi
      simp only [spadBytes, tslice, List.getElem_map, List.getElem_range, List.getElem_take, List.getElem_drop]
      rw [Nat.add_assoc, tget_spadWrite_in h a bs (by omega)]
  rw [spadNum, hbytes]

/-- A number that lies outside what is written. -/
theorem spadNum_spadWrite_out {b n : Nat} (hb : b + n ≤ a ∨ a + bs.length ≤ b) :
    spadNum (spadWrite s q a bs) q b n = spadNum s q b n := by
  have hbytes : spadBytes (spadWrite s q a bs) q b n = spadBytes s q b n := by
    refine List.map_congr_left fun i hi => tget_spadWrite_out h a bs ?_
    have := List.mem_range.1 hi
    omega
  rw [spadNum, hbytes, spadNum]

/-- Number `i` of numbers of `k` bytes that are written in a row after `pre`. -/
theorem spadNum_spadWrite_flatMap {α : Type} (g : α → Nat) (k : Nat) (pre : List Byte) {l : List α} {i : Nat} {x : α}
    (hx : l[i]? = some x) :
    spadNum (spadWrite s q a (pre ++ l.flatMap (fun y => leBytes k (g y)))) q (a + (pre.length + i * k)) k = g x % 2 ^ (8 * k) := by
  have hk : ∀ y ∈ l, (leBytes k (g y)).length = k := fun y _ => length_leBytes k (g y)
  have hi : (i + 1) * k ≤ l.length * k := Nat.mul_le_mul_right k (List.getElem?_eq_some_iff.1 hx).1
  have hlen : pre.length + i * k + k ≤ (pre ++ l.flatMap (fun y => leBytes k (g y))).length := by
    rw [List.length_append, length_flatMap_of_forall hk]
    rw [Nat.succ_mul] at hi
    omega
  rw [spadNum_spadWrite_in h a _ hlen, List.drop_append, List.drop_eq_nil_of_le (by omega), List.nil_append, Nat.add_sub_cancel_left,
    take_drop_flatMap hk hx, leNat_leBytes]

end

/-! ### The issue of a T. instruction (R83, R84, R131) -/

/-- What holds an instruction depends on the instructions in flight alone. -/
theorem blocked_congr {x y : Quire} (h : x.flights = y.flights) (f : Flight) : blocked x f = blocked y f := by
  simp only [blocked, earlierOf, flightsOf, reservedFrom, issuedBefore, taggedBefore, h]

/-- Where no acquire is in flight, an instruction without ranges is held by nothing. -/
theorem blocked_of_no_ranges {x : Quire} {f : Flight} (hacq : x.flights.any acquiring = false) (hmaj : f.maj ≠ 0x18)
    (hrd : f.spRd = []) (hwr : f.spWr = []) (hmem : f.mem = []) : blocked x f = false := by
  have hnone : (earlierOf x f).any acquiring = false := by
    rw [List.any_eq_false] at hacq ⊢
    exact fun g hg => hacq g (List.mem_filter.1 (List.mem_filter.1 hg).1).1
  simp [blocked, hnone, rangesMeet, reservedFrom, taggedBefore, isTagged, hmaj, hrd, hwr, hmem]

theorem sheetFree_congr {s t : State} {q : Nat} {k : TileKey} (h : (quire t q).flights = (quire s q).flights)
    (hfree : SheetFree s q k) : SheetFree t q k := fun f hf => hfree f (h ▸ hf)

theorem sheetFull_of_sheetFree {s : State} {q : Nat} {k : TileKey} (hfree : SheetFree s q k) : sheetFull (quire s q) k.1 = false := by
  have hnone : (quire s q).flights.filter (fun g => g.part == .sheet k.1 && (g.phase == .queued || g.phase == .mma 0)) = [] :=
    List.filter_eq_nil_iff.2 fun g hg => by simp [(hfree g hg).2]
  simp [sheetFull, hnone]

/-- An ordering operation that nothing holds, and on whose tile and sheet nothing is in flight, acts at its issue. -/
theorem ordIssue_acts {s : State} {q : Nat} {f : Flight} {k : TileKey} (htile : f.tile = some k) (hpart : f.part = .sheet k.1)
    (hfree : SheetFree s q k) (hb : blocked (quire s q) f = false) : ordIssue q s f = ordRun q s f := by
  have htiles : onTile (quire s q) k = [] := List.filter_eq_nil_iff.2 fun g hg => by simp [(hfree g hg).1]
  have hcal : calBusy (quire s q) f = false := by
    refine List.any_eq_false.2 fun g hg => ?_
    simp [hpart, (hfree g ((List.takeWhile_sublist _).subset hg)).2]
  simp [ordIssue, htile, htiles, ordReady, hb, hcal]

/-- A T. instruction that a stream takes and that passes its checks issues on the state past it. -/
theorem issue_tileOp {s : State} {q st : Nat} {o : Op} {w : IWord} {s1 : State} (h : Takes s q st o w s1) (hmaj : o.maj = 0x14)
    (hsub : o.sub ≤ 6) (plan : State → Flight → Issue) (start : State → Flight → State)
    (hfault : (plan s1 (newFlight s1 q st w o)).fault = 0) (hfull : (plan s1 (newFlight s1 q st w o)).full = false)
    (hawait : (plan s1 (newFlight s1 q st w o)).await = []) (hmem : (plan s1 (newFlight s1 q st w o)).f.mem = []) :
    issue s q st w o plan start = settleQuire (start (advance s1 q st w) (plan s1 (newFlight s1 q st w o)).f) q := by
  have hassigned : assigned o.maj o.sub = true := by simp [hmaj, assigned, hsub]
  rw [issue_starts h hassigned plan start hfault hfull hawait (Or.inl hmaj), hmem, consumeLines_nil]

/-- An operand on a 64-byte boundary within the scratchpad passes its check (R45, R150). -/
theorem spadCheck_of_spadOperand {a n : Nat} (h : SpadOperand a n) : spadCheck a n 64 = 0 := by
  obtain ⟨hal, hlt, hend⟩ := h
  have hin : ¬ (a ≥ spadSize ∨ a + n > spadSize) := by omega
  simp [spadCheck, hin, hal]

/-- A Calender format's values are whole bytes. -/
theorem mul_calWidth_div (n c : Nat) : n * calWidth c / 8 = n * (calWidth c / 8) := by
  have hdvd : 8 ∣ calWidth c := by
    unfold calWidth
    split <;> decide
  exact Nat.mul_div_assoc n hdvd

/-- The place of an element determines its row and its column. -/
theorem rowMajor_div_mod {n i j : Nat} (hj : j < n) : (i * n + j) / n = i ∧ (i * n + j) % n = j := by
  rw [Nat.mul_comm, Nat.mul_add_div (by omega), Nat.mul_add_mod, Nat.div_eq_of_lt hj, Nat.mod_eq_of_lt hj]
  exact ⟨rfl, rfl⟩

/-- The place of an element lies within the table. -/
theorem rowMajor_lt {m n i j : Nat} (hi : i < m) (hj : j < n) : i * n + j < m * n := by
  have := Nat.mul_le_mul_right n hi
  rw [Nat.succ_mul] at this
  omega

end Sys2Proof.Proofs
end

section
/-! PROOFS. The statement about T.ZERO and T.PRELOAD (R64, R65, R69, R71, R73, R74). -/

namespace Sys2Proof.Proofs

open Sys2Proof.Machine Sys2Proof.Safety Sys2Proof.Laws

/-! ### The issue of an opening (R65, R70) -/

/-- The tiles as the issue checks see them once an opening has issued. -/
def tilesEntered (x : Quire) (o : Opening) (st : Nat) : List Tile :=
  if (tileAt x o.key).isSome then x.tiles.map (fun u => if u.key == o.key then { u with sharedAt := o.shared } else u)
  else tilesWith x.tiles { openTile o st 0 [] with opening := true }

/-- The state in which an issued opening acts: its handle is written and its tile entered. -/
def entered (s : State) (q : Nat) (f : Flight) : State :=
  let o := openingOf f.w
  let x := quire s q
  let s1 := setQuire s q { x with handles := tupd x.handles f.w.f1.toNat ⟨o.key.1, o.key.2.1, o.key.2.2, o.shape⟩ }
  if (tileAt x o.key).isSome then modTile s1 q o.key (fun t => { t with sharedAt := o.shared })
  else putTile s1 q { openTile o f.stream 0 [] with opening := true }

theorem openIssue_eq (q : Nat) (s : State) (f : Flight) : openIssue q s f = ordIssue q (entered s q f) f := rfl

theorem quire_entered (s : State) (q : Nat) (f : Flight) :
    quire (entered s q f) q = { quire s q with
      handles := tupd (quire s q).handles f.w.f1.toNat
        ⟨(openingOf f.w).key.1, (openingOf f.w).key.2.1, (openingOf f.w).key.2.2, (openingOf f.w).shape⟩
      tiles := tilesEntered (quire s q) (openingOf f.w) f.stream } := by
  unfold entered tilesEntered
  by_cases ht : (tileAt (quire s q) (openingOf f.w).key).isSome
  · simp only [ht, if_true, quire_modTile, quire_setQuire]
  · simp only [ht, if_false, quire_putTile, quire_setQuire, Bool.false_eq_true]

/-- The flight of an opening, as its plan makes it. -/
def openingFlight (preload : Bool) (s : State) (q st sub : Nat) (w : IWord) : Flight :=
  (planOpen q preload s (newFlight s q st w (openOp sub w))).f

/-- The fault of an opening whose frames are free, and whose source, if it has one, passes its checks. -/
theorem planOpen_fault {preload : Bool} {s : State} {q : Nat} {f : Flight}
    (hcheck : openingCheck (quire s q) (openingOf f.w) f.stream = (0, []))
    (hsrc : preload = true → ¬ ((openingOf f.w).key.2.2 = 2 ∧ (openingOf f.w).sfmt < 4)
      ∧ SpadOperand (f.val 1) (preloadBytes (openingOf f.w))) : (planOpen q preload s f).fault = 0 := by
  cases preload with
  | false => simp [planOpen, hcheck, firstFault]
  | true =>
    obtain ⟨hfmt, hop⟩ := hsrc rfl
    have hfmt : (decide ((openingOf f.w).key.2.2 = 2) && decide ((openingOf f.w).sfmt < 4)) = false := by simpa using hfmt
    simp only [planOpen, hcheck, hfmt, spadCheck_of_spadOperand hop, firstFault, Bool.not_true, Bool.false_eq_true, if_false,
      bne_self_eq_false]

/-- An opening that a stream takes and that passes its checks acts at once, once its handle is written and its tile entered. -/
theorem issue_opening {preload : Bool} {s : State} {q st sub : Nat} {w : IWord} {s1 : State} (h : Takes s q st (openOp sub w) w s1)
    (hsub : sub ≤ 1) (hcheck : openingCheck (quire s1 q) (openingOf w) st = (0, [])) (hfree : SheetFree s1 q (openingOf w).key)
    (hsrc : preload = true → ¬ ((openingOf w).key.2.2 = 2 ∧ (openingOf w).sfmt < 4)
      ∧ SpadOperand ((stream s1 q st).s w.f2.toNat) (preloadBytes (openingOf w)))
    (hb : blocked (quire s1 q) (openingFlight preload s1 q st sub w) = false) :
    issue s q st w (openOp sub w) (planOpen q preload) (openIssue q)
      = settleQuire (ordRun q (entered (advance s1 q st w) q (openingFlight preload s1 q st sub w))
          (openingFlight preload s1 q st sub w)) q := by
  let f := newFlight s1 q st w (openOp sub w)
  have hawait : (planOpen q preload s1 f).await = [] := congrArg Prod.snd hcheck
  have hflights : (quire (entered (advance s1 q st w) q (openingFlight preload s1 q st sub w)) q).flights = (quire s1 q).flights := by
    rw [quire_entered, quire_advance]
    rfl
  rw [issue_tileOp h rfl (by simp only [openOp]; omega) (planOpen q preload) (openIssue q) (planOpen_fault (f := f) hcheck hsrc)
    (sheetFull_of_sheetFree hfree) hawait rfl, openIssue_eq]
  congr 1
  exact ordIssue_acts rfl rfl (sheetFree_congr hflights hfree) ((blocked_congr hflights _).trans hb)

/-! ### What an opening leaves (R65, R71) -/

/-- The state in which the opening `f` has put its tile `t`, from the state `s` in which it acts. -/
def opened (s : State) (q : Nat) (f : Flight) (t : Tile) : State :=
  putTile (vatFresh (dropFlight s q f.stream f.seq) q (openingOf f.w).key) q t

theorem ordRun_tZero {f : Flight} (hsub : f.sub = 0) (q : Nat) (s : State) : ordRun q s f
    = opened s q f (openTile (openingOf f.w) f.stream 0 (List.replicate (elemsOf (openingOf f.w).shape) 0)) := by
  rw [ordRun, if_pos hsub]
  rfl

theorem tileAt_opened (s : State) (q : Nat) (f : Flight) (t : Tile) : tileAt (quire (opened s q f t) q) t.key = some t := tileAt_putTile ..

theorem tfind_handles_opened (s : State) (q : Nat) (f : Flight) (t : Tile) :
    tfind (quire (opened (entered s q f) q f t) q).handles f.w.f1.toNat
      = some ⟨(openingOf f.w).key.1, (openingOf f.w).key.2.1, (openingOf f.w).key.2.2, (openingOf f.w).shape⟩ := by
  have hkeep : (quire (opened (entered s q f) q f t) q).handles = (quire (entered s q f) q).handles := by
    rw [opened, quire_putTile, quire_vatFresh, quire_dropFlight]
  rw [hkeep, quire_entered, tfind_tupd_same]

/-! ### T.PRELOAD's source (R73, R74) -/

/-- The source values that the bytes hold, converted. -/
def sourceValues (o : Opening) (bs : List Byte) : List (Int × Bool × Bool × Bool × Bool) :=
  (chunksOf (calWidth o.sfmt / 8) (preloadCount o) bs).map (fun c => preloadOne o.key.2.2 o.sfmt (leNat c))

/-- The number of the source value that the element at place `e` takes. -/
def sourceIndex (o : Opening) (e : Nat) : Nat :=
  if o.mode = 0 then e / colsOf o.shape else if o.mode = 1 then e % colsOf o.shape
  else if o.transpose then e % colsOf o.shape * rowsOf o.shape + e / colsOf o.shape else e

/-- What each element takes, with the flags it sets. -/
def sourceElems (o : Opening) (bs : List Byte) : List (Int × Bool × Bool × Bool × Bool) :=
  (List.range (elemsOf o.shape)).map (fun e => (sourceValues o bs).toArray.getD (sourceIndex o e) (0, false, false, false, false))

/-- The tile that T.PRELOAD leaves. -/
def preloadedTile (o : Opening) (st : Nat) (bs : List Byte) : Tile :=
  { openTile o st 1 ((sourceElems o bs).map (·.1)) with
    ovfPos := (sourceElems o bs).any (fun v => v.2.1), ovfNeg := (sourceElems o bs).any (fun v => v.2.2.1)
    nan := (sourceElems o bs).any (fun v => v.2.2.2.1), inexact := (sourceElems o bs).any (fun v => v.2.2.2.2)
    res := resSum ((sourceElems o bs).map (·.1)) }

/-- A source without poison, in a quire without upsets, is read whole and fills the tile. -/
theorem ordRun_tPreload {s : State} {q : Nat} {f : Flight} (hsub : f.sub = 1) (h : (quire s q).upsets = [])
    (hbad : spadBad s q (f.val 1) (preloadBytes (openingOf f.w)) = false) :
    ordRun q s f = opened s q f
      (preloadedTile (openingOf f.w) f.stream (spadBytes s q (f.val 1) (preloadBytes (openingOf f.w)))) := by
  rw [ordRun, if_neg (by omega), if_pos hsub]
  simp only [preloadRun, spadRead_clean h hbad]
  rfl

theorem calWidth_div_pos (c : Nat) : 0 < calWidth c / 8 := by
  unfold calWidth
  split <;> decide

/-- A part of a range of the scratchpad. -/
theorem take_drop_spadBytes (s : State) (q a : Nat) {m b n : Nat} (h : b + n ≤ m) :
    ((spadBytes s q a m).drop b).take n = spadBytes s q (a + b) n := by
  rw [spadBytes, tslice_drop, tslice_take _ _ _ _ _ (by omega), spadBytes]

theorem getElem?_sourceValues (s : State) (q a : Nat) (o : Opening) {p : Nat} (hp : p < preloadCount o) :
    (sourceValues o (spadBytes s q a (preloadBytes o)))[p]?
      = some (preloadOne o.key.2.2 o.sfmt (spadNum s q (a + p * (calWidth o.sfmt / 8)) (calWidth o.sfmt / 8))) := by
  have hbytes : preloadBytes o = preloadCount o * (calWidth o.sfmt / 8) := mul_calWidth_div ..
  have hend : (p + 1) * (calWidth o.sfmt / 8) ≤ preloadCount o * (calWidth o.sfmt / 8) := Nat.mul_le_mul_right _ hp
  rw [Nat.succ_mul] at hend
  have hpos := calWidth_div_pos o.sfmt
  have hlen : calWidth o.sfmt / 8 * p < (spadBytes s q a (preloadBytes o)).length := by
    rw [spadBytes, tslice_length, hbytes, Nat.mul_comm]
    omega
  rw [sourceValues, List.getElem?_map, getElem?_chunksOf _ hp hlen, Option.map_some, Nat.mul_comm,
    take_drop_spadBytes s q a (by rw [hbytes]; exact hend), spadNum]

/-- Every element takes a value that the source has. -/
theorem sourceIndex_lt (o : Opening) {i j : Nat} (hi : i < rowsOf o.shape) (hj : j < colsOf o.shape) :
    sourceIndex o (i * colsOf o.shape + j) < preloadCount o := by
  obtain ⟨hdiv, hmod⟩ := rowMajor_div_mod (i := i) hj
  unfold sourceIndex preloadCount elemsOf
  rw [hdiv, hmod]
  split
  · exact hi
  split
  · exact hj
  split
  · rw [Nat.mul_comm (rowsOf o.shape)]
    exact rowMajor_lt hj hi
  · exact rowMajor_lt hi hj

/-- An element of the tile is its source value, converted. -/
theorem getD_elems_preloadedTile (s : State) (q a st : Nat) (o : Opening) {i j : Nat} (hi : i < rowsOf o.shape) (hj : j < colsOf o.shape) :
    (preloadedTile o st (spadBytes s q a (preloadBytes o))).elems.getD (i * colsOf o.shape + j) 0
      = (preloadOne o.key.2.2 o.sfmt (spadNum s q
          (a + sourceIndex o (i * colsOf o.shape + j) * (calWidth o.sfmt / 8)) (calWidth o.sfmt / 8))).1 := by
  have hlt : i * colsOf o.shape + j < elemsOf o.shape := rowMajor_lt hi hj
  have hval := getElem?_sourceValues s q a o (sourceIndex_lt o hi hj)
  simp [preloadedTile, openTile, sourceElems, hlt, hval]

/-! ### The obligation -/

/-- T.ZERO. -/
theorem exec_tZero_opens {q st : Nat} {w : IWord} {s s1 : State} (h : Takes s q st (openOp 0 w) w s1)
    (hcheck : openingCheck (quire s1 q) (openingOf w) st = (0, [])) (hfree : SheetFree s1 q (openingOf w).key)
    (hacq : (quire s1 q).flights.any acquiring = false) :
    exec (.tZero q st w) s = .next (settleQuire (opened (entered (advance s1 q st w) q (openingFlight false s1 q st 0 w)) q
      (openingFlight false s1 q st 0 w)
      (openTile (openingOf w) st 0 (List.replicate (elemsOf (openingOf w).shape) 0))) q) := by
  have hb : blocked (quire s1 q) (openingFlight false s1 q st 0 w) = false :=
    blocked_of_no_ranges hacq (by simp [openingFlight, planOpen, newFlight, openOp]) rfl rfl rfl
  rw [exec_tZero, execTZero, issue_opening h (by omega) hcheck hfree (by simp) hb, ordRun_tZero rfl]
  rfl

/-- T.PRELOAD. -/
theorem exec_tPreload_opens {q st : Nat} {w : IWord} {s s1 : State} (h : Takes s q st (openOp 1 w) w s1)
    (hcheck : openingCheck (quire s1 q) (openingOf w) st = (0, [])) (hfree : SheetFree s1 q (openingOf w).key)
    (hfmt : ¬ ((openingOf w).key.2.2 = 2 ∧ (openingOf w).sfmt < 4))
    (hop : SpadOperand ((stream s1 q st).s w.f2.toNat) (preloadBytes (openingOf w)))
    (hb : blocked (quire s1 q) { newFlight s1 q st w (openOp 1 w) with
      spRd := [((stream s1 q st).s w.f2.toNat, preloadBytes (openingOf w))] } = false)
    (hclean : (quire s1 q).upsets = [])
    (hbad : spadBad s1 q ((stream s1 q st).s w.f2.toNat) (preloadBytes (openingOf w)) = false) :
    exec (.tPreload q st w) s = .next (settleQuire (opened (entered (advance s1 q st w) q (openingFlight true s1 q st 1 w)) q
      (openingFlight true s1 q st 1 w)
      (preloadedTile (openingOf w) st (spadBytes s1 q ((stream s1 q st).s w.f2.toNat) (preloadBytes (openingOf w))))) q) := by
  let f := openingFlight true s1 q st 1 w
  let u := entered (advance s1 q st w) q f
  have hq : quire u q = { quire s1 q with streams := (quire u q).streams, handles := (quire u q).handles, tiles := (quire u q).tiles } := by
    rw [quire_entered, quire_advance]
    rfl
  have hbytes (a n : Nat) : spadBytes u q a n = spadBytes s1 q a n := by rw [spadBytes, hq, spadBytes]
  have hrun : ordRun q u f = opened u q f
      (preloadedTile (openingOf w) st (spadBytes s1 q ((stream s1 q st).s w.f2.toNat) (preloadBytes (openingOf w)))) := by
    rw [← hbytes]
    exact ordRun_tPreload (f := f) rfl (by rw [hq]; exact hclean) (by rw [spadBad, hq]; exact hbad)
  rw [exec_tPreload, execTPreload, issue_opening (preload := true) h (by omega) hcheck hfree (fun _ => ⟨hfmt, hop⟩) hb, hrun]

/-- Settles O8: each instruction acts at its issue, once its handle is written. -/
theorem tileOpening : Obligations.TileOpening := by
  intro q st w s s1 o x a n m wd hcheck hfree hacq
  refine ⟨fun h => ⟨_, exec_tZero_opens h hcheck hfree hacq, tileAt_opened .., tfind_handles_opened ..⟩,
    fun h _ hfmt hop hb hclean hbad => ⟨_, _, exec_tPreload_opens h hcheck hfree hfmt hop hb hclean hbad, tileAt_opened ..,
      tfind_handles_opened .., rfl, rfl, rfl, rfl, rfl, fun i j hi hj => ?_⟩⟩
  obtain ⟨hdiv, hmod⟩ := rowMajor_div_mod (i := i) hj
  rw [getD_elems_preloadedTile s1 q a st o hi hj, sourceIndex, hdiv, hmod]

end Sys2Proof.Proofs
end

section
/-! PROOFS. The statement about T.DRAIN (R75, R87, R88, R91, Table 03.5), and the issue that T.RMAX and T.RMIN share with it. -/

namespace Sys2Proof.Proofs

open Sys2Proof.Machine Sys2Proof.Safety Sys2Proof.Laws

/-! ### The issue of a Calender operation (R65, R69, R87, R94) -/

/-- The owner of an open tile passes the checks of its handle. -/
theorem handleCheck_of_ownTile {s : State} {q st h : Nat} {t : Tile} (hown : OwnTile s q st h t) :
    handleCheck (quire s q) st h true = (0, t.key, t.shape) := by
  obtain ⟨hhandle, htile, hrel, howner, -⟩ := hown
  have htile : tileAt (quire s q) (t.sheet, t.slot, t.fmt) = some t := htile
  simp [handleCheck, hhandle, htile, hrel, howner, Tile.key]

/-- The scratchpad ranges that a Calender operation on the tile writes. -/
def calRanges (f : Flight) (t : Tile) : List (Nat × Nat) :=
  if f.sub = 4 then [(f.val 1, drainBytes f.w t.fmt t.shape)]
  else
    let n := (redLines f.w t.shape).1 * redK f.w
    [(f.val 1, n * calWidth (optF f.w 22 19) / 8), (f.val 2, 2 * n)]

/-- The flight of a Calender operation on the tile. -/
def calFlight (f : Flight) (t : Tile) : Flight := { f with part := .sheet t.sheet, tile := some t.key, spWr := calRanges f t }

theorem planCal_of_ownTile {s : State} {q : Nat} {f : Flight} {t : Tile} (hown : OwnTile s q f.stream f.w.f1.toNat t) :
    planCal q s f = { fault := firstFault ((calRanges f t).map (fun r => spadCheck r.1 r.2 64) ++ [0])
                      full := sheetFull (quire s q) t.sheet, f := calFlight f t } := by
  simp only [planCal, handleCheck_of_ownTile hown]
  rfl

theorem firstFault_eq_zero {l : List Nat} (h : ∀ c ∈ l, c = 0) : firstFault l = 0 := by
  induction l with
  | nil => rfl
  | cons c l ih =>
    rw [firstFault, h c (by simp)]
    exact ih fun d hd => h d (by simp [hd])

/-- A Calender operation of the tile's owner, whose destinations pass their checks, issues on the state past it. -/
theorem issue_calender {s : State} {q st : Nat} {o : Op} {w : IWord} {s1 : State} {t : Tile} (h : Takes s q st o w s1)
    (hmaj : o.maj = 0x14) (hsub : o.sub ≤ 6) (hown : OwnTile s1 q st w.f1.toNat t) (hfree : SheetFree s1 q t.key)
    (hranges : ∀ r ∈ calRanges (newFlight s1 q st w o) t, SpadOperand r.1 r.2) (start : State → Flight → State) :
    issue s q st w o (planCal q) start
      = settleQuire (start (advance s1 q st w) (calFlight (newFlight s1 q st w o) t)) q := by
  have hplan := planCal_of_ownTile (f := newFlight s1 q st w o) hown
  have hfault : firstFault ((calRanges (newFlight s1 q st w o) t).map (fun r => spadCheck r.1 r.2 64) ++ [0]) = 0 := by
    refine firstFault_eq_zero fun c hc => ?_
    rcases List.mem_append.1 hc with hc | hc
    · obtain ⟨r, hr, rfl⟩ := List.mem_map.1 hc
      exact spadCheck_of_spadOperand (hranges r hr)
    · exact List.mem_singleton.1 hc
  rw [issue_tileOp h hmaj hsub (planCal q) start (by rw [hplan]; exact hfault) (by rw [hplan]; exact sheetFull_of_sheetFree hfree)
    (by rw [hplan]) (by rw [hplan]; rfl), hplan]

/-! ### The Calender reads a tile (R55, R96, R97) -/

/-- A quire as a Calender operation finds it: no upset, none of a path, and the tile `t`, whose residue agrees. -/
structure Readable (s : State) (q : Nat) (t : Tile) : Prop where
  upsets : (quire s q).upsets = []
  strikes : (quire s q).strikes = []
  tile : tileAt (quire s q) t.key = some t
  residue : resSum t.elems = t.res

/-- Without stochastic rounding no draw is taken. -/
theorem drawsOf_nearest {f : Flight} (hrnd : optF f.w 18 18 = 0) (shape : Nat) : drawsOf f shape = 0 := by simp [drawsOf, hrnd]

/-- A Calender operation that rounds to nearest reads its tile without an error and writes its results. -/
theorem ordRun_calender {s : State} {q : Nat} {f : Flight} {t : Tile} (hsub : 4 ≤ f.sub) (htile : f.tile = some t.key)
    (hrnd : optF f.w 18 18 = 0) (hread : Readable s q t) : ordRun q s f = calWrite q t.key [] t s f := by
  obtain ⟨hup, hst, ht, hres⟩ := hread
  have hrun : ordRun q s f = calRun q [] s f := by
    rw [ordRun, if_neg (by omega), if_neg (by omega)]
    simp only [calStart, drawsOf_nearest hrnd, if_true]
  have hdrop (p : UPath) : dropStrikes s q p = s := by simp [dropStrikes, hst]
  have hok (p : Nat → Bool) : vatRead s q f.stream t.key p = (s, false) := by simp [vatRead, hup]
  have hclean (p : UPath) (again : Bool) : calRead t (strikesOf (quire s q) p again) = t.elems := by simp [strikesOf, hst, calRead]
  rw [hrun]
  simp only [calRun, htile, hdrop, hok, ht, hclean, hres, if_true, Bool.false_eq_true, if_false]

/-! ### T.DRAIN -/

/-- The state in which an issued T.DRAIN acts: a releasing one has closed its tile to the issue checks (R70). -/
def releasedIf (s : State) (q : Nat) (w : IWord) (k : TileKey) : State :=
  if optF w 6 6 = 1 then modTile s q k (fun t => { t with releasing := true }) else s

/-- The tile as that T.DRAIN finds it. -/
def releasingIf (w : IWord) (t : Tile) : Tile := if optF w 6 6 = 1 then { t with releasing := true } else t

theorem quire_releasedIf (s : State) (q : Nat) (w : IWord) (k : TileKey) :
    quire (releasedIf s q w k) q = { quire s q with tiles := (quire (releasedIf s q w k) q).tiles } := by
  unfold releasedIf
  split
  · rw [quire_modTile]
  · rfl

theorem readable_releasedIf {s : State} {q : Nat} {t : Tile} (w : IWord) (h : Readable s q t) :
    Readable (releasedIf s q w t.key) q (releasingIf w t) := by
  obtain ⟨hup, hst, ht, hres⟩ := h
  refine ⟨by rw [quire_releasedIf]; exact hup, by rw [quire_releasedIf]; exact hst, ?_, ?_⟩
  · unfold releasedIf releasingIf
    split
    · exact (tileAt_modTile s q (h := fun u => { u with releasing := true }) fun _ hk => hk).trans (congrArg _ ht)
    · exact ht
  · unfold releasingIf
    split <;> exact hres

/-- What T.DRAIN writes does not depend on the release. -/
theorem drainOut_releasingIf (f : Flight) (w : IWord) (t : Tile) (words : List Nat) :
    drainOut f (releasingIf w t) words = drainOut f t words := by
  unfold releasingIf
  split <;> rfl

theorem headerOf_releasingIf (w : IWord) (t : Tile) : headerOf (releasingIf w t) = headerOf t := by
  unfold releasingIf
  split <;> rfl

theorem key_releasingIf (w : IWord) (t : Tile) : (releasingIf w t).key = t.key := by
  unfold releasingIf
  split <;> rfl

/-- What T.DRAIN does with its tile at its end (R75, R87): it releases it, clears it, or keeps it. -/
def tileEnds (s : State) (q : Nat) (w : IWord) (k : TileKey) : State :=
  if optF w 6 6 = 1 then closeTile s q k else if optF w 7 7 = 1 then modTile s q k clearTile else s

@[simp] theorem spad_tileEnds (s : State) (q : Nat) (w : IWord) (k : TileKey) : (quire (tileEnds s q w k) q).spad = (quire s q).spad := by
  unfold tileEnds
  split
  · exact spad_closeTile s q k
  split
  · rw [quire_modTile]
  · rfl

@[simp] theorem sregs_tileEnds (s : State) (q st : Nat) (w : IWord) (k : TileKey) :
    (stream (tileEnds s q w k) q st).sregs = (stream s q st).sregs := by
  unfold tileEnds
  split
  · exact sregs_closeTile s q st k
  split
  · rw [stream, quire_modTile]
    rfl
  · rfl

/-- The tile after T.DRAIN: a releasing one leaves none. -/
theorem tileAt_tileEnds {s : State} {q : Nat} {w : IWord} {t : Tile} (h : tileAt (quire s q) t.key = some (releasingIf w t)) :
    tileAt (quire (tileEnds s q w t.key) q) t.key
      = if optF w 6 6 = 1 then none else if optF w 7 7 = 1 then some (clearTile t) else some t := by
  unfold tileEnds
  by_cases hrel : optF w 6 6 = 1
  · simp only [hrel, if_true, tileAt_closeTile]
  · rw [releasingIf, if_neg hrel] at h
    rw [if_neg hrel, if_neg hrel]
    split
    · rw [tileAt_modTile s q (h := clearTile) fun _ hk => hk, h, Option.map_some]
    · exact h

/-- The bytes that T.DRAIN writes and the header in F3, from the state `s` in which it acts. -/
def drained (s : State) (q : Nat) (f : Flight) (t : Tile) : State :=
  wrS (spadWrite (dropFlight s q f.stream f.seq) q (f.val 1) (drainOut f t [])) q f.stream (f3Of f.w) (headerOf t)

theorem drained_releasingIf (s : State) (q : Nat) (f : Flight) (w : IWord) (t : Tile) :
    drained s q f (releasingIf w t) = drained s q f t := by rw [drained, drained, drainOut_releasingIf, headerOf_releasingIf]

theorem calWrite_tDrain {f : Flight} (hsub : f.sub = 4) (q : Nat) (k : TileKey) (t : Tile) (s : State) :
    calWrite q k [] t s f = tileEnds (drained s q f t) q f.w k := by
  simp only [calWrite, hsub, if_true]
  rfl

theorem drainIssue_acts {s : State} {q : Nat} {f : Flight} {t : Tile} (hsub : f.sub = 4) (htile : f.tile = some t.key)
    (hpart : f.part = .sheet t.sheet) (hrnd : optF f.w 18 18 = 0) (hfree : SheetFree s q t.key)
    (hb : blocked (quire s q) f = false) (hread : Readable s q t) :
    drainIssue q s f = tileEnds (drained (releasedIf s q f.w t.key) q f t) q f.w t.key := by
  have hflights : (quire (releasedIf s q f.w t.key) q).flights = (quire s q).flights := by rw [quire_releasedIf]
  have hissue : drainIssue q s f = ordIssue q (releasedIf s q f.w t.key) f := by
    simp only [drainIssue, htile]
    rfl
  have htile' : f.tile = some (releasingIf f.w t).key := by rw [key_releasingIf, htile]
  rw [hissue, ordIssue_acts htile hpart (sheetFree_congr hflights hfree) ((blocked_congr hflights f).trans hb),
    ordRun_calender (by omega) htile' hrnd (readable_releasedIf f.w hread), key_releasingIf, calWrite_tDrain hsub,
    drained_releasingIf]

/-! ### What T.DRAIN writes (R88, R91, Table 03.5) -/

/-- The values of a converted T.DRAIN, in the order in which they are written. -/
def drainValues (f : Flight) (t : Tile) : List Nat :=
  let outs := (t.elems.zipIdx.map (fun e => calOut (tileState t) (optF f.w 22 19) (rndAt (optF f.w 18 18 == 1) [] e.2)
    (optF f.w 17 17 == 1) (vatL t.fmt) (signed 8 (optF f.w 16 9)) e.1)).toArray
  let n := colsOf t.shape
  let m := rowsOf t.shape
  (if optF f.w 8 8 = 1 then (List.range (n * m)).map (fun x => (x % m) * n + x / m) else List.range (n * m)).map (fun e => outs.getD e 0)

theorem drainOut_converted {f : Flight} (t : Tile) (hc : optF f.w 22 19 ≠ 8) :
    drainOut f t [] = (drainValues f t).flatMap (fun v => leBytes (calWidth (optF f.w 22 19) / 8) v) := by
  simp only [drainOut, hc, if_false]
  rfl

theorem drainOut_raw {f : Flight} (t : Tile) (hc : optF f.w 22 19 = 8) :
    drainOut f t [] = (leBytes 8 (headerOf t) ++ zeros 56)
      ++ t.elems.flatMap (fun e => leBytes (vatBits t.fmt / 8) (wrapTo (vatBits t.fmt) e)) := by
  simp only [drainOut, hc, if_true]

theorem length_drainValues (f : Flight) (t : Tile) : (drainValues f t).length = elemsOf t.shape := by
  unfold drainValues elemsOf
  split <;> simp [Nat.mul_comm]

/-- The number of bytes T.DRAIN writes is that of its range. -/
theorem length_drainOut (f : Flight) {t : Tile} (hlen : t.elems.length = elemsOf t.shape) :
    (drainOut f t []).length = drainBytes f.w t.fmt t.shape := by
  unfold drainBytes imageBytes
  by_cases hc : optF f.w 22 19 = 8
  · rw [drainOut_raw t hc, if_pos hc, List.length_append, List.length_append, length_flatMap_of_forall fun _ _ => length_leBytes _ _,
      length_leBytes, hlen, zeros, List.length_replicate]
  · rw [drainOut_converted t hc, if_neg hc, length_flatMap_of_forall fun _ _ => length_leBytes _ _, length_drainValues, mul_calWidth_div]

/-- Rounding to nearest takes no draw. -/
theorem rndAt_nearest {f : Flight} (hrnd : optF f.w 18 18 = 0) (words : List Nat) (e : Nat) :
    rndAt (optF f.w 18 18 == 1) words e = .rne := by simp [rndAt, hrnd]

/-- The value written for element (i, j): a transposed T.DRAIN writes it in column order. -/
theorem getElem?_drainValues {f : Flight} {t : Tile} (hrnd : optF f.w 18 18 = 0) (hlen : t.elems.length = elemsOf t.shape) {i j : Nat}
    (hi : i < rowsOf t.shape) (hj : j < colsOf t.shape) :
    (drainValues f t)[if optF f.w 8 8 = 1 then j * rowsOf t.shape + i else i * colsOf t.shape + j]?
      = some (calOut (tileState t) (optF f.w 22 19) .rne (optF f.w 17 17 == 1) (vatL t.fmt) (signed 8 (optF f.w 16 9))
          (t.elems.getD (i * colsOf t.shape + j) 0)) := by
  have hplace : i * colsOf t.shape + j < t.elems.length := hlen ▸ rowMajor_lt hi hj
  unfold drainValues
  by_cases htr : optF f.w 8 8 = 1
  · obtain ⟨hdiv, hmod⟩ := rowMajor_div_mod (i := j) hi
    have hlt : j * rowsOf t.shape + i < colsOf t.shape * rowsOf t.shape := rowMajor_lt hj hi
    simp [htr, hlt, hdiv, hmod, hplace, rndAt_nearest hrnd]
  · have hlt : i * colsOf t.shape + j < colsOf t.shape * rowsOf t.shape := Nat.mul_comm (rowsOf t.shape) _ ▸ rowMajor_lt hi hj
    simp [htr, hlt, hplace, rndAt_nearest hrnd]

/-! ### The state after T.DRAIN -/

/-- The bytes of a vat element are whole. -/
theorem vatBits_eq (fmt : Nat) : 8 * (vatBits fmt / 8) = vatBits fmt := by
  unfold vatBits
  split
  · rfl
  split <;> rfl

theorem wrapTo_lt (n : Nat) (x : Int) : wrapTo n x < 2 ^ n := by
  have hpos : (0 : Int) < ((2 ^ n : Nat) : Int) := by exact_mod_cast Nat.two_pow_pos n
  have hlt := Int.emod_lt_of_pos x hpos
  have hnn := Int.emod_nonneg x (Int.ne_of_gt hpos)
  unfold wrapTo
  omega

section
variable {s : State} {q : Nat} {f : Flight} {t : Tile} (h : (quire s q).upsets = [])
include h

theorem tileAt_drained (k : TileKey) : tileAt (quire (drained s q f t) q) k = tileAt (quire s q) k := by
  rw [tileAt, tileAt, drained, tiles_wrS, tiles_spadWrite (upsets_dropFlight h ..), quire_dropFlight]

omit h in
theorem spadNum_drained (b n : Nat) : spadNum (drained s q f t) q b n
    = spadNum (spadWrite (dropFlight s q f.stream f.seq) q (f.val 1) (drainOut f t [])) q b n := spadNum_congr (spad_wrS ..) b n

/-- A converted T.DRAIN writes each element through the Calender. -/
theorem spadNum_drained_converted (hc : optF f.w 22 19 ≠ 8) (hrnd : optF f.w 18 18 = 0) (hlen : t.elems.length = elemsOf t.shape)
    {i j : Nat} (hi : i < rowsOf t.shape) (hj : j < colsOf t.shape) :
    spadNum (drained s q f t) q (f.val 1 + (if optF f.w 8 8 = 1 then j * rowsOf t.shape + i else i * colsOf t.shape + j)
        * (calWidth (optF f.w 22 19) / 8)) (calWidth (optF f.w 22 19) / 8)
      = calOut (tileState t) (optF f.w 22 19) .rne (optF f.w 17 17 == 1) (vatL t.fmt) (signed 8 (optF f.w 16 9))
          (t.elems.getD (i * colsOf t.shape + j) 0) % 2 ^ (8 * (calWidth (optF f.w 22 19) / 8)) := by
  have hnum := spadNum_spadWrite_flatMap (upsets_dropFlight h f.stream f.seq) (f.val 1) (fun v => v) (calWidth (optF f.w 22 19) / 8) []
    (getElem?_drainValues hrnd hlen hi hj)
  rw [List.nil_append, List.length_nil, Nat.zero_add] at hnum
  rw [spadNum_drained, drainOut_converted t hc, hnum]

section
variable (hc : optF f.w 22 19 = 8)
include hc

/-- A raw T.DRAIN writes the header first (Table 03.5). -/
theorem spadNum_drained_header : spadNum (drained s q f t) q (f.val 1) 8 = headerOf t % 2 ^ 64 := by
  have hnum := spadNum_spadWrite_in (upsets_dropFlight h f.stream f.seq) (f.val 1) (drainOut f t []) (o := 0) (n := 8)
    (by simp [drainOut_raw t hc])
  rw [Nat.add_zero] at hnum
  rw [spadNum_drained, hnum, drainOut_raw t hc, List.drop_zero, List.append_assoc,
    List.take_left' (length_leBytes ..), leNat_leBytes]

/-- Then 56 bytes of zero. -/
theorem spadNum_drained_reserved {b : Nat} (hb : b < 56) : spadNum (drained s q f t) q (f.val 1 + 8 + b) 1 = 0 := by
  have hbytes : drainOut f t [] = leBytes 8 (headerOf t) ++ (zeros 56
      ++ t.elems.flatMap (fun e => leBytes (vatBits t.fmt / 8) (wrapTo (vatBits t.fmt) e))) := by
    rw [drainOut_raw t hc, List.append_assoc]
  have hnum := spadNum_spadWrite_in (upsets_dropFlight h f.stream f.seq) (f.val 1) (drainOut f t []) (o := 8 + b) (n := 1)
    (by simp [hbytes, zeros]; omega)
  have hzero : (zeros 56).drop b = 0#8 :: zeros (55 - b) := by
    rw [zeros, List.drop_replicate, show 56 - b = 55 - b + 1 by omega, List.replicate_succ, zeros]
  rw [spadNum_drained, Nat.add_assoc, hnum, hbytes, ← List.drop_drop, List.drop_left' (length_leBytes ..),
    List.drop_append_of_le_length (by simp [zeros]; omega), hzero]
  rfl

/-- Then the elements. -/
theorem spadNum_drained_raw (hlen : t.elems.length = elemsOf t.shape) {e : Nat} (he : e < elemsOf t.shape) :
    spadNum (drained s q f t) q (f.val 1 + 64 + e * (vatBits t.fmt / 8)) (vatBits t.fmt / 8)
      = wrapTo (vatBits t.fmt) (t.elems.getD e 0) := by
  have hget : t.elems[e]? = some (t.elems.getD e 0) := by simp [hlen, he]
  have hnum := spadNum_spadWrite_flatMap (upsets_dropFlight h f.stream f.seq) (f.val 1) (wrapTo (vatBits t.fmt)) (vatBits t.fmt / 8)
    (leBytes 8 (headerOf t) ++ zeros 56) hget
  have hpre : (leBytes 8 (headerOf t) ++ zeros 56).length = 64 := by simp [zeros]
  rw [hpre, vatBits_eq, Nat.mod_eq_of_lt (wrapTo_lt ..)] at hnum
  rw [spadNum_drained, drainOut_raw t hc, Nat.add_assoc, hnum]

end

/-- T.DRAIN writes within its range alone. -/
theorem spadNum_drained_out (hlen : t.elems.length = elemsOf t.shape) {b n : Nat}
    (hb : b + n ≤ f.val 1 ∨ f.val 1 + drainBytes f.w t.fmt t.shape ≤ b) : spadNum (drained s q f t) q b n = spadNum s q b n := by
  rw [← length_drainOut f hlen] at hb
  rw [spadNum_drained, spadNum_spadWrite_out (upsets_dropFlight h ..) _ _ hb]
  exact spadNum_congr (by rw [quire_dropFlight]) b n

end

/-! ### T.DRAIN as its statement has it -/

theorem readable_advance {s : State} {q st : Nat} {w : IWord} {t : Tile} (h : Readable s q t) : Readable (advance s q st w) q t := by
  obtain ⟨hup, hst, ht, hres⟩ := h
  constructor
  · rw [quire_advance]; exact hup
  · rw [quire_advance]; exact hst
  · rw [quire_advance]; exact ht
  · exact hres

/-- The operation of T.DRAIN. -/
def drainOp (w : IWord) : Op :=
  { maj := 0x14, sub := 4, f1 := .t, f2 := .s, f3 := .sw, opt := maskOf 22 6, codes := decide (optF w 22 19 ≤ 8), effect := true
    gates := (if optF w 22 19 = 8 then [8] else []) ++ (if optF w 18 18 = 1 then [9] else []) }

/-- T.DRAIN of the tile's owner, without stochastic rounding, acts at its issue. -/
theorem exec_tDrain_acts {s : State} {q st : Nat} {w : IWord} {s1 : State} {t : Tile} (h : Takes s q st (drainOp w) w s1)
    (hrnd : optF w 18 18 = 0) (hown : OwnTile s1 q st w.f1.toNat t) (hfree : SheetFree s1 q t.key) (hread : Readable s1 q t)
    (hranges : ∀ r ∈ calRanges (newFlight s1 q st w (drainOp w)) t, SpadOperand r.1 r.2)
    (hb : blocked (quire s1 q) (calFlight (newFlight s1 q st w (drainOp w)) t) = false) :
    exec (.tDrain q st w) s = .next (settleQuire (tileEnds (drained (releasedIf (advance s1 q st w) q w t.key) q
      (calFlight (newFlight s1 q st w (drainOp w)) t) t) q w t.key) q) := by
  let f := calFlight (newFlight s1 q st w (drainOp w)) t
  have hexec : exec (.tDrain q st w) s = .next (issue s q st w (drainOp w) (planCal q) (drainIssue q)) := rfl
  rw [hexec, issue_calender h rfl (show (4 : Nat) ≤ 6 by decide) hown hfree hranges (drainIssue q),
    drainIssue_acts (f := f) rfl rfl rfl hrnd (sheetFree_congr (flights_advance ..) hfree)
      ((blocked_congr (flights_advance ..) f).trans hb) (readable_advance hread)]
  rfl

/-- T.DRAIN writes each element, the header in F3, and its tile's end. -/
theorem tileDrain : TileDrain := by
  intro q st w s s1 t o a c n m wd len htakes hrnd hown hfree hup hst hres hop hb
  have ⟨_, htile, _, _, hlen⟩ := hown
  have hread : Readable s1 q t := ⟨hup, hst, htile, hres⟩
  let f := calFlight (newFlight s1 q st w o) t
  let v := releasedIf (advance s1 q st w) q w t.key
  have hbytes : drainBytes w t.fmt t.shape = len := by simp only [drainBytes, imageBytes, mul_calWidth_div, len, c, wd]
  have hranges : calRanges (newFlight s1 q st w o) t = [(a, len)] := by rw [← hbytes]; rfl
  have hissue : exec (.tDrain q st w) s = .next (settleQuire (tileEnds (drained v q f t) q w t.key) q) :=
    exec_tDrain_acts htakes hrnd hown hfree hread (by rw [show drainOp w = o from rfl, hranges]; simpa using hop)
      (by rw [← hranges] at hb; exact hb)
  have hreadv := readable_releasedIf w (readable_advance (st := st) (w := w) hread)
  have hnum (b k : Nat) : spadNum (tileEnds (drained v q f t) q w t.key) q b k = spadNum (drained v q f t) q b k :=
    spadNum_congr (spad_tileEnds ..) b k
  refine ⟨_, hissue, fun hc i j hi hj => ?_, fun hc => ⟨?_, fun b hb => ?_, fun e he => ?_⟩, fun hf3 => ?_, ?_, fun b hb => ?_⟩
  · rw [hnum]
    exact spadNum_drained_converted (f := f) hreadv.upsets (Nat.ne_of_lt hc) hrnd hlen hi hj
  · rw [hnum]
    exact spadNum_drained_header (f := f) hreadv.upsets hc
  · rw [hnum]
    exact spadNum_drained_reserved (f := f) hreadv.upsets hc hb
  · rw [hnum]
    exact spadNum_drained_raw (f := f) hreadv.upsets hc hlen he
  · rw [sval_congr (sregs_tileEnds ..)]
    exact sval_wrS _ _ _ _ hf3
  · refine tileAt_tileEnds ?_
    have htile := hreadv.tile
    rw [key_releasingIf] at htile
    rw [tileAt_drained hreadv.upsets, htile]
  · have hspad : (quire v q).spad = (quire s1 q).spad := by rw [quire_releasedIf]; exact spad_advance ..
    have hout : b + 1 ≤ f.val 1 ∨ f.val 1 + drainBytes f.w t.fmt t.shape ≤ b := by
      rw [show drainBytes f.w t.fmt t.shape = len from hbytes]
      exact hb
    rw [hnum, spadNum_drained_out (f := f) hreadv.upsets hlen hout, spadNum_congr hspad]

end Sys2Proof.Proofs
end

section
/-! PROOFS. The statement about T.RMAX and T.RMIN (R94, R95), and the obligation that joins it to T.DRAIN's. -/

namespace Sys2Proof.Proofs

open Sys2Proof.Machine Sys2Proof.Safety Sys2Proof.Laws

/-! ### The winners of a line (R94) -/

/-- `v` takes the place of `y` as the best so far. -/
def lineBetter (max : Bool) (v y : Int) : Bool := if max then decide (y < v) else decide (v < y)

/-- T.RMAX, minor opcode 5, prefers the higher value. -/
theorem lineBetter_iff (sub : Nat) (v y : Int) : lineBetter (sub == 5) v y = true ↔ if sub = 5 then y < v else v < y := by
  unfold lineBetter
  by_cases h : sub = 5 <;> simp [h]

/-- The winner `b` stands before `v`: its value is better, or equal at an index that is not higher. -/
def Precedes (max : Bool) (b v : Nat × Int) : Prop := lineBetter max b.2 v.2 = true ∨ (v.2 = b.2 ∧ b.1 ≤ v.1)

/-- The better of two candidates, of equals the first. -/
def linePick (max : Bool) (a v : Nat × Int) : Nat × Int := if lineBetter max v.2 a.2 then v else a

/-- The first of the best of a line. -/
def lineBest (max : Bool) (x : Nat × Int) (xs : List (Nat × Int)) : Nat × Int := xs.foldl (linePick max) x

theorem winners_cons (max : Bool) (k : Nat) (x : Nat × Int) (xs : List (Nat × Int)) : winners max (k + 1) (x :: xs)
    = lineBest max x xs :: winners max k ((x :: xs).filter (fun v => v.1 != (lineBest max x xs).1)) := rfl

theorem Precedes.refl (max : Bool) (a : Nat × Int) : Precedes max a a := Or.inr ⟨rfl, Nat.le_refl _⟩

theorem Precedes.trans {max : Bool} {a b c : Nat × Int} (hab : Precedes max a b) (hbc : Precedes max b c) : Precedes max a c := by
  unfold Precedes lineBetter at *
  cases max <;> simp only [if_true, if_false, Bool.false_eq_true, decide_eq_true_eq] at * <;> omega

/-- The candidate picked stands before both, where the first has the lower index. -/
theorem linePick_precedes (max : Bool) {a v : Nat × Int} (h : a.1 < v.1) :
    Precedes max (linePick max a v) a ∧ Precedes max (linePick max a v) v := by
  unfold linePick
  cases hb : lineBetter max v.2 a.2 with
  | true => exact ⟨Or.inl hb, Precedes.refl max v⟩
  | false =>
    refine ⟨Precedes.refl max a, ?_⟩
    unfold Precedes lineBetter at *
    cases max <;> simp only [if_true, if_false, Bool.false_eq_true, decide_eq_true_eq, decide_eq_false_iff_not] at * <;> omega

/-- The best of a line of rising indices is of the line and stands before all of it. -/
theorem lineBest_precedes (max : Bool) {x : Nat × Int} {xs : List (Nat × Int)} (h : (x :: xs).Pairwise (fun a b => a.1 < b.1)) :
    lineBest max x xs ∈ x :: xs ∧ ∀ v ∈ x :: xs, Precedes max (lineBest max x xs) v := by
  induction xs generalizing x with
  | nil => exact ⟨by simp [lineBest], by simp [lineBest, Precedes.refl]⟩
  | cons y ys ih =>
    obtain ⟨hx, hys⟩ := List.pairwise_cons.1 h
    have hxy : x.1 < y.1 := hx y (by simp)
    have hpick : linePick max x y = x ∨ linePick max x y = y := by
      unfold linePick
      split <;> simp
    have hrise : (linePick max x y :: ys).Pairwise (fun a b => a.1 < b.1) := by
      obtain ⟨hy, hrest⟩ := List.pairwise_cons.1 hys
      refine List.pairwise_cons.2 ⟨fun v hv => ?_, hrest⟩
      rcases hpick with hp | hp <;> rw [hp]
      · exact hx v (by simp [hv])
      · exact hy v hv
    obtain ⟨hmem, hall⟩ := ih hrise
    have hbest : lineBest max x (y :: ys) = lineBest max (linePick max x y) ys := rfl
    obtain ⟨hpx, hpy⟩ := linePick_precedes max hxy
    rw [hbest]
    refine ⟨?_, fun v hv => ?_⟩
    · rcases List.mem_cons.1 hmem with hm | hm
      · rw [hm]
        rcases hpick with hp | hp <;> simp [hp]
      · simp [hm]
    · rcases List.mem_cons.1 hv with rfl | hv
      · exact (hall _ (by simp)).trans hpx
      rcases List.mem_cons.1 hv with rfl | hv
      · exact (hall _ (by simp)).trans hpy
      · exact hall v (by simp [hv])

/-- Leaving the winner out leaves one less. -/
theorem length_filter_ne {l : List (Nat × Int)} (h : l.Pairwise (fun a b => a.1 < b.1)) {b : Nat × Int} (hb : b ∈ l) :
    (l.filter (fun v => v.1 != b.1)).length + 1 = l.length := by
  induction l with
  | nil => exact absurd hb List.not_mem_nil
  | cons a l ih =>
    obtain ⟨ha, hl⟩ := List.pairwise_cons.1 h
    rcases List.mem_cons.1 hb with rfl | hb
    · have hkeep : l.filter (fun v => v.1 != b.1) = l := List.filter_eq_self.2 fun v hv => bne_iff_ne.2 (Nat.ne_of_gt (ha v hv))
      rw [List.filter_cons_of_neg (by simp), hkeep, List.length_cons]
    · have hne : (a.1 != b.1) = true := bne_iff_ne.2 (Nat.ne_of_lt (ha b hb))
      rw [List.filter_cons_of_pos (p := fun v : Nat × Int => v.1 != b.1) hne, List.length_cons, ih hl hb, List.length_cons]

/-- Winner `k` of a line. -/
def lineWinner (max : Bool) (K : Nat) (l : List (Nat × Int)) (k : Nat) : Nat × Int := (winners max K l).getD k (0, 0)

theorem length_winners (max : Bool) {K : Nat} {l : List (Nat × Int)} (h : l.Pairwise (fun a b => a.1 < b.1)) (hK : K ≤ l.length) :
    (winners max K l).length = K := by
  induction K generalizing l with
  | zero => rfl
  | succ K ih =>
    cases l with
    | nil => simp at hK
    | cons x xs =>
      have hless := length_filter_ne h (lineBest_precedes max h).1
      rw [winners_cons, List.length_cons, ih (h.filter _) (by omega)]

/-- Each winner is of the line, differs from those before it, and stands before all that are none of those. -/
theorem lineWinner_spec (max : Bool) {K : Nat} {l : List (Nat × Int)} (h : l.Pairwise (fun a b => a.1 < b.1)) (hK : K ≤ l.length) {k : Nat}
    (hk : k < K) :
    lineWinner max K l k ∈ l ∧ (∀ j, j < k → (lineWinner max K l j).1 ≠ (lineWinner max K l k).1)
      ∧ ∀ v ∈ l, (∀ j, j < k → (lineWinner max K l j).1 ≠ v.1) → Precedes max (lineWinner max K l k) v := by
  induction K generalizing l k with
  | zero => omega
  | succ K ih =>
    cases l with
    | nil => simp at hK
    | cons x xs =>
      obtain ⟨hmem, hall⟩ := lineBest_precedes max h
      have hless := length_filter_ne h hmem
      have hzero : lineWinner max (K + 1) (x :: xs) 0 = lineBest max x xs := rfl
      cases k with
      | zero => exact ⟨hmem, fun j hj => absurd hj (by omega), fun v hv _ => hall v hv⟩
      | succ k =>
        obtain ⟨hin, hdiff, hbest⟩ := ih (h.filter fun v => v.1 != (lineBest max x xs).1) (by omega) (k := k) (by omega)
        have hsucc (j : Nat) : lineWinner max (K + 1) (x :: xs) (j + 1)
            = lineWinner max K ((x :: xs).filter (fun v => v.1 != (lineBest max x xs).1)) j := rfl
        obtain ⟨hline, hne⟩ := List.mem_filter.1 hin
        refine ⟨hsucc k ▸ hline, fun j hj => ?_, fun v hv hout => ?_⟩
        · rw [hsucc]
          cases j with
          | zero => exact fun he => absurd he.symm (bne_iff_ne.1 hne)
          | succ j => exact hdiff j (by omega)
        · rw [hsucc]
          have hv0 : v.1 ≠ (lineBest max x xs).1 := fun he => hout 0 (by omega) he.symm
          exact hbest v (List.mem_filter.2 ⟨hv, bne_iff_ne.2 hv0⟩) fun j hj => hout (j + 1) (by omega)

/-! ### The lines of a tile -/

/-- The value of element `x` of line `l`: one tile state makes all equal (R94). -/
def lineKey (w : IWord) (t : Tile) (l x : Nat) : Int :=
  if tileState t = .finite then t.elems.getD (if optF w 8 8 = 0 then l * colsOf t.shape + x else x * colsOf t.shape + l) 0 else 0

/-- A line with the indices of its elements. -/
def tileLine (w : IWord) (t : Tile) (l : Nat) : List (Nat × Int) :=
  (List.range (redLines w t.shape).2).map (fun x => (x, lineKey w t l x))

/-- The winners of every line, in the order in which they are written. -/
def allWinners (f : Flight) (t : Tile) : List (Nat × Int) :=
  (List.range (redLines f.w t.shape).1).flatMap (fun l => winners (f.sub == 5) (redK f.w) (tileLine f.w t l))

theorem tileLine_rises (w : IWord) (t : Tile) (l : Nat) : (tileLine w t l).Pairwise (fun a b => a.1 < b.1) :=
  List.pairwise_map.2 (List.pairwise_lt_range.imp fun hlt => hlt)

theorem mem_tileLine {w : IWord} {t : Tile} {l : Nat} {v : Nat × Int} :
    v ∈ tileLine w t l ↔ v.1 < (redLines w t.shape).2 ∧ v.2 = lineKey w t l v.1 := by
  simp only [tileLine, List.mem_map, List.mem_range]
  constructor
  · rintro ⟨x, hx, rfl⟩
    exact ⟨hx, rfl⟩
  · rintro ⟨hx, hkey⟩
    exact ⟨v.1, hx, Prod.ext rfl hkey.symm⟩

theorem optF_lt (w : IWord) (hi lo : Nat) : optF w hi lo < 2 ^ (hi + 1 - lo) := Nat.mod_lt _ (Nat.two_pow_pos _)

theorem optF_bit (w : IWord) (i : Nat) : optF w i i = 0 ∨ optF w i i = 1 := by
  have hlt := optF_lt w i i
  rw [Nat.add_sub_cancel_left] at hlt
  omega

theorem sixteen_le_rowsOf (shape : Nat) : 16 ≤ rowsOf shape := by
  unfold rowsOf
  split <;> decide

theorem sixteen_le_colsOf (shape : Nat) : 16 ≤ colsOf shape := by
  unfold colsOf
  split <;> decide

/-- A line has room for its winners: there are no more than 8. -/
theorem redK_le (w : IWord) (t : Tile) (l : Nat) : redK w ≤ (tileLine w t l).length := by
  have hk := optF_lt w 7 5
  have hlen : 16 ≤ (redLines w t.shape).2 := by
    unfold redLines
    split
    · exact sixteen_le_colsOf _
    · exact sixteen_le_rowsOf _
  rw [tileLine, List.length_map, List.length_range, redK]
  omega

theorem length_winners_tileLine (f : Flight) (t : Tile) (l : Nat) :
    (winners (f.sub == 5) (redK f.w) (tileLine f.w t l)).length = redK f.w := length_winners _ (tileLine_rises ..) (redK_le ..)

theorem length_allWinners (f : Flight) (t : Tile) : (allWinners f t).length = (redLines f.w t.shape).1 * redK f.w := by
  rw [allWinners, length_flatMap_of_forall fun l _ => length_winners_tileLine f t l, List.length_range]

theorem getElem?_allWinners (f : Flight) (t : Tile) {l k : Nat} (hl : l < (redLines f.w t.shape).1) (hk : k < redK f.w) :
    (allWinners f t)[l * redK f.w + k]? = some (lineWinner (f.sub == 5) (redK f.w) (tileLine f.w t l) k) := by
  have hlen := length_winners_tileLine f t l
  rw [allWinners, getElem?_flatMap_mul_add (fun l _ => length_winners_tileLine f t l) (List.getElem?_range hl) hk, lineWinner]
  simp [hlen, hk]

/-! ### What T.RMAX and T.RMIN write (R94, R95) -/

/-- The values written, through the Calender without stochastic rounding. -/
def redValue (f : Flight) (t : Tile) (v : Nat × Int) : Nat :=
  calOut (tileState t) (optF f.w 22 19) .rne (optF f.w 17 17 == 1) (vatL t.fmt) (signed 8 (optF f.w 16 9)) v.2

theorem redOut_nearest {f : Flight} (hrnd : optF f.w 18 18 = 0) (t : Tile) : redOut f t []
    = ((allWinners f t).flatMap (fun v => leBytes (calWidth (optF f.w 22 19) / 8) (redValue f t v)),
        (allWinners f t).flatMap (fun v => leBytes 2 (v.1 + f.val 3 % 65536))) := by
  have hwins : (List.range (redLines f.w t.shape).1).flatMap (fun l => winners (f.sub == 5) (redK f.w)
      ((List.range (redLines f.w t.shape).2).map (fun x => (x, if tileState t = .finite then
        t.elems.toArray.getD (if optF f.w 8 8 = 0 then l * colsOf t.shape + x else x * colsOf t.shape + l) 0 else 0)))) = allWinners f t := by
    simp [allWinners, tileLine, lineKey]
  have hvalues : packOut (optF f.w 22 19) ((allWinners f t).zipIdx.map (fun v => calOut (tileState t) (optF f.w 22 19)
      (rndAt (optF f.w 18 18 == 1) [] v.2) (optF f.w 17 17 == 1) (vatL t.fmt) (signed 8 (optF f.w 16 9)) v.1.2))
      = (allWinners f t).flatMap (fun v => leBytes (calWidth (optF f.w 22 19) / 8) (redValue f t v)) := by
    have hplain : (allWinners f t).zipIdx.map (fun v => redValue f t v.1) = (allWinners f t).map (redValue f t) := by
      have hfst := congrArg (List.map (redValue f t)) (List.zipIdx_map_fst 0 (allWinners f t))
      rw [List.map_map] at hfst
      exact hfst
    simp only [rndAt_nearest hrnd]
    exact (congrArg (packOut (optF f.w 22 19)) hplain).trans (List.flatMap_map ..)
  rw [← hvalues, ← hwins]
  rfl

/-- The state that T.RMAX or T.RMIN leaves, from the state `s` in which it acts. -/
def reduced (s : State) (q : Nat) (f : Flight) (t : Tile) : State :=
  wrS (spadWrite (spadWrite (dropFlight s q f.stream f.seq) q (f.val 1) (redOut f t []).1) q (f.val 2) (redOut f t []).2) q f.stream
    (f4Of f.w) (headerOf t)

theorem calWrite_reduction {f : Flight} (hsub : f.sub ≠ 4) (q : Nat) (k : TileKey) (t : Tile) (s : State) :
    calWrite q k [] t s f = reduced s q f t := by
  simp only [calWrite, hsub, if_false]
  rfl

section
variable {s : State} {q : Nat} {f : Flight} {t : Tile} (h : (quire s q).upsets = [])
include h

theorem tileAt_reduced (k : TileKey) : tileAt (quire (reduced s q f t) q) k = tileAt (quire s q) k := by
  have hdrop := upsets_dropFlight h f.stream f.seq
  rw [tileAt, tileAt, reduced, tiles_wrS, tiles_spadWrite (upsets_spadWrite hdrop ..), tiles_spadWrite hdrop, quire_dropFlight]

variable (hrnd : optF f.w 18 18 = 0) {l k : Nat} (hl : l < (redLines f.w t.shape).1) (hk : k < redK f.w)
include hrnd hl hk

/-- The index of a winner, plus the base. -/
theorem spadNum_reduced_index : spadNum (reduced s q f t) q (f.val 2 + 2 * (l * redK f.w + k)) 2
    = ((lineWinner (f.sub == 5) (redK f.w) (tileLine f.w t l) k).1 + f.val 3) % 65536 := by
  have hnum := spadNum_spadWrite_flatMap
    (upsets_spadWrite (upsets_dropFlight h f.stream f.seq) (f.val 1) (redOut f t []).1) (f.val 2)
    (fun v => v.1 + f.val 3 % 65536) 2 [] (getElem?_allWinners f t hl hk)
  rw [List.nil_append, List.length_nil, Nat.zero_add, Nat.mul_comm] at hnum
  rw [reduced, spadNum_congr (spad_wrS ..), congrArg Prod.snd (redOut_nearest hrnd t), hnum]
  omega

/-- The value of a winner, where the indices are written apart from the values. -/
theorem spadNum_reduced_value
    (hapart : overlaps (f.val 1, (redLines f.w t.shape).1 * redK f.w * (calWidth (optF f.w 22 19) / 8))
      (f.val 2, 2 * ((redLines f.w t.shape).1 * redK f.w)) = false) :
    spadNum (reduced s q f t) q (f.val 1 + (l * redK f.w + k) * (calWidth (optF f.w 22 19) / 8)) (calWidth (optF f.w 22 19) / 8)
      = redValue f t (lineWinner (f.sub == 5) (redK f.w) (tileLine f.w t l) k) % 2 ^ (8 * (calWidth (optF f.w 22 19) / 8)) := by
  have hdrop := upsets_dropFlight h f.stream f.seq
  have hnum := spadNum_spadWrite_flatMap hdrop (f.val 1) (redValue f t) (calWidth (optF f.w 22 19) / 8) [] (getElem?_allWinners f t hl hk)
  rw [List.nil_append, List.length_nil, Nat.zero_add] at hnum
  have hlen : ((allWinners f t).flatMap (fun v => leBytes 2 (v.1 + f.val 3 % 65536))).length
      = 2 * ((redLines f.w t.shape).1 * redK f.w) := by
    rw [length_flatMap_of_forall fun _ _ => length_leBytes _ _, length_allWinners, Nat.mul_comm]
  have hlt := Nat.mul_le_mul_right (calWidth (optF f.w 22 19) / 8) (rowMajor_lt hl hk)
  rw [Nat.succ_mul] at hlt
  have hpos : 0 < (redLines f.w t.shape).1 * redK f.w := Nat.lt_of_le_of_lt (Nat.zero_le _) (rowMajor_lt hl hk)
  have hout : f.val 1 + (l * redK f.w + k) * (calWidth (optF f.w 22 19) / 8) + calWidth (optF f.w 22 19) / 8 ≤ f.val 2
      ∨ f.val 2 + ((allWinners f t).flatMap (fun v => leBytes 2 (v.1 + f.val 3 % 65536))).length
        ≤ f.val 1 + (l * redK f.w + k) * (calWidth (optF f.w 22 19) / 8) := by
    simp only [overlaps, Bool.and_eq_false_iff, decide_eq_false_iff_not] at hapart
    rw [hlen]
    omega
  rw [reduced, spadNum_congr (spad_wrS ..), redOut_nearest hrnd t, spadNum_spadWrite_out (upsets_spadWrite hdrop ..) _ _ hout, hnum]

end

/-! ### The obligation -/

/-- T.RMAX and T.RMIN are the issue of their word. -/
theorem exec_reduction {c : Nat → Nat → IWord → Instr} {sub : Nat}
    (hc : (c, sub) ∈ ([(.tRmax, 5), (.tRmin, 6)] : List ((Nat → Nat → IWord → Instr) × Nat))) (q st : Nat) (w : IWord) (s : State) :
    exec (c q st w) s = .next (issue s q st w (redOp sub w) (planCal q) (ordIssue q)) ∧ (sub = 5 ∨ sub = 6) := by
  simp only [List.mem_cons, Prod.mk.injEq, List.not_mem_nil, or_false] at hc
  rcases hc with ⟨rfl, rfl⟩ | ⟨rfl, rfl⟩
  · exact ⟨rfl, Or.inl rfl⟩
  · exact ⟨rfl, Or.inr rfl⟩

theorem calRanges_reduction {f : Flight} (hsub : f.sub ≠ 4) (t : Tile) : calRanges f t
    = [(f.val 1, (redLines f.w t.shape).1 * redK f.w * (calWidth (optF f.w 22 19) / 8)),
       (f.val 2, 2 * ((redLines f.w t.shape).1 * redK f.w))] := by
  rw [calRanges, if_neg hsub, ← mul_calWidth_div]

/-- T.RMAX or T.RMIN of the tile's owner, without stochastic rounding, acts at its issue. -/
theorem issue_reduction {s : State} {q st sub : Nat} {w : IWord} {s1 : State} {t : Tile} (h : Takes s q st (redOp sub w) w s1)
    (hsub : sub = 5 ∨ sub = 6) (hrnd : optF w 18 18 = 0) (hown : OwnTile s1 q st w.f1.toNat t) (hfree : SheetFree s1 q t.key)
    (hread : Readable s1 q t) (hranges : ∀ r ∈ calRanges (newFlight s1 q st w (redOp sub w)) t, SpadOperand r.1 r.2)
    (hb : blocked (quire s1 q) (calFlight (newFlight s1 q st w (redOp sub w)) t) = false) :
    issue s q st w (redOp sub w) (planCal q) (ordIssue q)
      = settleQuire (reduced (advance s1 q st w) q (calFlight (newFlight s1 q st w (redOp sub w)) t) t) q := by
  let f := calFlight (newFlight s1 q st w (redOp sub w)) t
  rw [issue_calender h rfl (show sub ≤ 6 by omega) hown hfree hranges (ordIssue q),
    ordIssue_acts (f := f) rfl rfl (sheetFree_congr (flights_advance ..) hfree) ((blocked_congr (flights_advance ..) f).trans hb),
    ordRun_calender (f := f) (show 4 ≤ sub by omega) rfl hrnd (readable_advance hread),
    calWrite_reduction (show sub ≠ 4 by omega)]

/-- T.RMAX and T.RMIN write the winners of each line, and their indices, and the header in F4. -/
theorem tileReductions : TileReductions := by
  intro c sub hmem q st w s s1 t a b base fm wd col n lines len K key bt htakes hrnd hown hfree hup hst hres hopa hopb hapart hb
  obtain ⟨hexec, hsub⟩ := exec_reduction hmem q st w s
  have ⟨_, htile, _, _, _⟩ := hown
  let f := calFlight (newFlight s1 q st w (redOp sub w)) t
  have hred : redLines w t.shape = (lines, len) := by
    rcases optF_bit w 8 with h8 | h8 <;> simp [redLines, lines, len, col, n, h8]
  have hkey (l x : Nat) : lineKey w t l x = key l x := by
    rcases optF_bit w 8 with h8 | h8 <;> simp [lineKey, key, col, n, h8]
  have hranges : calRanges (newFlight s1 q st w (redOp sub w)) t = [(a, lines * K * wd), (b, 2 * (lines * K))] := by
    rw [calRanges_reduction (show sub ≠ 4 by omega), show (newFlight s1 q st w (redOp sub w)).w = w from rfl, hred]
    rfl
  have hissue : exec (c q st w) s = .next (settleQuire (reduced (advance s1 q st w) q f t) q) := by
    rw [hexec, issue_reduction htakes hsub hrnd hown hfree ⟨hup, hst, htile, hres⟩ (by rw [hranges]; simpa using ⟨hopa, hopb⟩)
      (by rw [← hranges] at hb; exact hb)]
  have hclean : (quire (advance s1 q st w) q).upsets = [] := by rw [quire_advance]; exact hup
  refine ⟨_, fun l k => (lineWinner (sub == 5) K (tileLine w t l) k).1, hissue, fun hf4 => sval_wrS _ _ _ _ hf4, ?_, fun l k hl hk => ?_⟩
  · rw [tileAt_reduced hclean, quire_advance]
    exact htile
  · have hl' : l < (redLines f.w t.shape).1 := by rw [show f.w = w from rfl, hred]; exact hl
    obtain ⟨hin, hdiff, hbest⟩ := lineWinner_spec (sub == 5) (tileLine_rises w t l) (redK_le w t l) (k := k) hk
    obtain ⟨hlt, hval⟩ := mem_tileLine.1 hin
    rw [hred] at hlt
    rw [hkey] at hval
    refine ⟨hlt, hdiff, fun x hx hout => ?_, spadNum_reduced_index (f := f) hclean hrnd hl' hk, ?_⟩
    · have hx' : (x, key l x) ∈ tileLine w t l := mem_tileLine.2 ⟨by rw [hred]; exact hx, (hkey l x).symm⟩
      have hp := hbest _ hx' hout
      rw [Precedes, lineBetter_iff, hval] at hp
      exact hp
    · have hnum := spadNum_reduced_value (f := f) hclean hrnd hl' hk (by rw [show f.w = w from rfl, hred]; exact hapart)
      exact hnum.trans (congrArg (fun y => calOut (tileState t) fm .rne (optF w 17 17 == 1) (vatL t.fmt) (signed 8 (optF w 16 9)) y
        % 2 ^ (8 * wd)) hval)

/-- Settles O11: the two statements, each over the state that its instruction leaves. -/
theorem tileDrainAndReductions : Obligations.TileDrainAndReductions := ⟨tileDrain, tileReductions⟩

end Sys2Proof.Proofs
end
